-- ==== Sys2Proof/Word.lean ====
section
/-! DEFINITION. The word and byte types of the ZV7400 and nothing else: registers are 32-bit words (R390, R397),
memory is bytes, field time is a 64-bit count (R5). -/
namespace Sys2Proof

/-- A 32-bit register word. -/
abbrev Word := BitVec 32

/-- A byte of memory. -/
abbrev Byte := BitVec 8

/-- A word from a natural number, modulo 2^32. -/
abbrev wd (n : Nat) : Word := BitVec.ofNat 32 n

/-- A word from an integer, two's complement. -/
abbrev wi (n : Int) : Word := BitVec.ofInt 32 n

end Sys2Proof
end

