-- ==== Sys2Proof/Syntax.lean ====
section
/-! DEFINITION. The commands the block takes from outside, one constructor per row of the opcode table, with their operands.
An operand `t` is the FT in ns at which an event happens; `k` a porch tick count; `m` a master number (R417); `r` the
dictionary request that carries a command (R356); a measured quantity that the hardware would sense is an operand. -/
namespace Sys2Proof

/-- The transports of a dictionary request, in the order of R388. -/
inductive Transport where
  | hc0 | hc1 | he0 | he1 | hg0 | keyhole | firmware
  deriving DecidableEq, Repr

/-- A dictionary request as the server sees it, without the object: who sends it, its SessionToken and its Tid (R356). -/
structure Req where
  transport : Transport
  client : Nat
  token : Nat
  tid : Nat
  deriving DecidableEq, Repr


/-- How a command that has two doors arrives: by a register write of master `m`, or by dictionary request `r`. -/
inductive Via where
  | reg (m : Nat)
  | dict (r : Req)
  deriving DecidableEq, Repr

/-- One microsecond of a coil: the raw current sample in 0.1 mA, before the offset correction of R207; the voltage applied, in mV, 0 while
the coil freewheels; and whether a switching edge falls in it (R208, R209). -/
structure CoilSample where
  raw : Int
  mV : Nat
  edge : Bool
  deriving DecidableEq, Repr

/-- What the off-state probe of a solenoid or load channel finds (R215, R254). -/
inductive Probe where
  | good | open_ | toBattery | toGround
  deriving DecidableEq, Repr

/-- What comes in on a host Ethernet port (R354): a UDP datagram with its addresses and ports, an ICMP echo request, an ARP request. -/
inductive HostIn where
  | udp (src dst srcPort dstPort : Nat) (b : List Byte)
  | echo (src dst ident seq : Nat) (b : List Byte)
  | arp (sender target : Nat)
  deriving DecidableEq, Repr


/-- The commands of the block, one constructor per row of the opcode table. -/
inductive Instr where
  /-- REGISTER_WRITE: A write to a device register that has no row of its own; reserved encodings leave the field unchanged and set CFG_REJECT. (R8) -/
  | registerWrite (t : Nat) (m : Nat) (a : Nat) (w : Word)
  /-- LOW_WORD_READ: Reading the low word of a 64-bit register copies bits 63:32 into the reading master's shadow. (R391) -/
  | lowWordRead (t : Nat) (m : Nat) (a : Nat)
  /-- DICT_READ: A dictionary read request PDU is checked under R361 and answered with the value or an abort. (R356) -/
  | dictRead (t : Nat) (r : Req) (idx : Nat) (sub : Nat) (off : Nat) (data : List Byte)
  /-- DICT_WRITE: A dictionary write request PDU to an object without a row of its own is checked and applied whole or refused. (R356) -/
  | dictWrite (t : Nat) (r : Req) (idx : Nat) (sub : Nat) (off : Nat) (data : List Byte)
  /-- DICT_CANCEL: A request with Op 3 cancels a pending Tid of the same client. (R356) -/
  | dictCancel (t : Nat) (r : Req) (idx : Nat) (sub : Nat)
  /-- DICT_PENDING_STATUS: Every 50 ms while a request is still being worked, the server answers Status 2. (R356) -/
  | dictPendingStatus (t : Nat)
  /-- CAN_TRANSFER_FRAME: A single, first, consecutive or acknowledge frame of a dictionary transfer arrives on HC0 or HC1. (R357) -/
  | canTransferFrame (t : Nat) (port : Nat) (id : Nat) (bytes : List Byte)
  /-- CAN_TRANSFER_TIMEOUT: A gap longer than TransferTimeout abandons a CAN transfer without a response. (R357) -/
  | canTransferTimeout (t : Nat)
  /-- STAGED_VALUE_EXPIRE: A client's staged object values are discarded 60 s after its last request. (R376) -/
  | stagedValueExpire (t : Nat)
  /-- REF_OSC_REQUEST: A block requests the reference oscillator, which starts. (R40) -/
  | refOscRequest (block : Nat)
  /-- REF_OSC_STABLE: The reference oscillator becomes stable 1.5 ms after start. (R40) -/
  | refOscStable
  /-- PLL_LOCK: A PLL reports lock and its derived clock may be used. (R40) -/
  | pllLock (n : Nat)
  /-- REF_OSC_STOP: The oscillator stops 10 ms after the last request is withdrawn. (R40) -/
  | refOscStop (k : Nat)
  /-- GNSS_SAMPLE_SUBMIT: A write of GNSS_CTRL with VALID 1 submits GNSS_OFFS as a sample, judged against the epoch, Latch and outlier tests and applied by the servo. (R522) -/
  | gnssSampleSubmit (t : Nat) (m : Nat) (num : Nat)
  /-- GNSS_SOURCE_INVALIDATE: A write of GNSS_CTRL with VALID 0 makes the GNSS source invalid at once. (R46) -/
  | gnssSourceInvalidate (t : Nat) (m : Nat) (num : Nat)
  /-- REFERENCE_MESSAGE_RX: A reference message arrives on the time bus and its start-of-frame FT is captured. (R54) -/
  | referenceMessageRx (t : Nat) (bus : Nat) (sender : Nat) (capture : Nat) (txPrev : Nat) (round : Nat) (cls : Nat) (flags : Nat) (check : Nat)
  /-- ROUND_START: At each round start the time master sends a reference message and receivers judge the previous round. (R52) -/
  | roundStart (t : Nat)
  /-- MASTER_LOSS_ELECTION: After MasterLossRounds rounds without an accepted reference message every candidate sends at the next round start. (R55) -/
  | masterLossElection (t : Nat)
  /-- CANDIDATE_CHALLENGE: A candidate whose key has stayed below the master's for 10 rounds sends a reference message. (R55) -/
  | candidateChallenge (t : Nat)
  /-- GNSS_SOURCE_TIMEOUT: 2 s after the last accepted GNSS sample's Latch instant the source becomes invalid. (R48) -/
  | gnssSourceTimeout (t : Nat)
  /-- PTP_SOURCE_TIMEOUT: After 4 sync intervals without an IEEE 1588 sample the source becomes invalid. (R48) -/
  | ptpSourceTimeout (t : Nat)
  /-- TIME_MESSAGE: A Transom time message delivers an IEEE 1588 offset sample with its sender class to the FT unit. (R57) -/
  | timeMessage (t : Nat) (offset : Int) (delay : Nat) (port : Nat) (cls : Nat)
  /-- PTP_MESSAGE_RX: The host die receives an IEEE 1588 message and computes offset and path delay. (R57) -/
  | ptpMessageRx (t : Nat) (port : Nat) (domain : Nat) (t1 : Nat) (t2 : Nat) (t3 : Nat) (t4 : Nat) (priority1 : Nat) (clockClass : Nat) (accuracy : Nat) (variance : Nat) (priority2 : Nat) (identity : Nat)
  /-- PTP_SYNC_SEND: As master, the host die sends IEEE 1588 sync messages each sync interval. (R57) -/
  | ptpSyncSend (t : Nat)
  /-- TIME_LANE_PPS: At each whole second of FT the field side sends a PPS edge on the time lane. (R56) -/
  | timeLanePps (t : Nat)
  /-- TIME_LANE_WORD: The field-time word for a PPS edge crosses to the host die, which aligns host FT. (R56) -/
  | timeLaneWord (t : Nat) (err : Int)
  /-- TIME_LANE_TIMEOUT: 1.5 s without an accepted PPS clears LANE_VALID. (R48) -/
  | timeLaneTimeout (t : Nat)
  /-- PORCH_CAL_WINDOW: At the end of each 64 s window the porch rate error is measured and PORCH_CAL updated. (R59) -/
  | porchCalWindow (t : Nat) (ppb : Int)
  /-- PORCH_CARRY_LOAD: At the first porch tick after PLL lock following a wake or reset, FT is loaded from the stored pair. (R60) -/
  | porchCarryLoad (k : Nat)
  /-- FIELD_TIME_SET: A write of FieldTimeSet sets FT directly unless a source is valid or queues hold entries. (R63) -/
  | fieldTimeSet (t : Nat) (r : Req) (v : Nat)
  /-- SYSTEM_EPOCH_WRITE: A write of SystemEpochGps, allowed only while the package number is 0. (R62) -/
  | systemEpochWrite (t : Nat) (r : Req) (v : Nat)
  /-- WALL_CLOCK_WRITE: A host write of WallClock sets UtcOffset unless GNSS is valid. (R64) -/
  | wallClockWrite (t : Nat) (r : Req) (v : Nat)
  /-- GPS_UTC_LEAP_WRITE: A write of GpsUtcLeap recomputes UtcOffset while GNSS is valid. (R64) -/
  | gpsUtcLeapWrite (t : Nat) (r : Req) (v : Nat)
  /-- PORCH_MIRROR: Every 360 s the porch mirrors its counters to the configuration partition. (R65) -/
  | porchMirror (k : Nat)
  /-- PORCH_ALARM: A rendezvous alarm equals the porch tick counter and wakes the package when enabled. (R58) -/
  | porchAlarm (k : Nat) (n : Nat)
  /-- LATCH_REQUEST: A single or periodic Latch request through LAT_CMD or the dictionary is judged into a slot. (R66) -/
  | latchRequest (t : Nat) (via : Via) (v : Nat) (periodic : Bool)
  /-- LATCH_CANCEL: A cancel of a Latch slot frees it. (R66) -/
  | latchCancel (t : Nat) (via : Via) (slot : Nat)
  /-- LATCH_FIRE: At a Latch instant all units copy their counters into the shadow bank of the firing number. (R67) -/
  | latchFire (t : Nat) (slot : Nat)
  /-- LATCH_COPIES_DONE: 2 µs after a Latch firing every copy is taken and the LATCH interrupt is raised. (R405) -/
  | latchCopiesDone (t : Nat)
  /-- HEAD_STATUS_FRAME: A side-channel status frame of an antenna head is received and checked. (R76) -/
  | headStatusFrame (t : Nat) (n : Nat) (place : Nat) (syms : List Nat)
  /-- HEAD_LINK_TIMEOUT: 300 µs without samples or status loses the head link. (R96) -/
  | headLinkTimeout (t : Nat) (n : Nat)
  /-- HEAD_SUPPLY_TRIP: Head supply current above 250 mA turns the supply off and records 0x2003. (R96) -/
  | headSupplyTrip (t : Nat) (n : Nat) (ma : Nat)
  /-- HEAD_SUPPLY_RETRY: 1 s after a trip the head supply is switched on again. (R96) -/
  | headSupplyRetry (t : Nat) (n : Nat)
  /-- HEAD_CONTROL_REPEAT: Every 100 ms the whole set of control frames is sent on CTL. (R78) -/
  | headControlRepeat (t : Nat)
  /-- INTEGRATION_END: At the end of a channel's integration its loops update and a dump entry is written. (R86) -/
  | integrationEnd (t : Nat) (ch : Nat) (sums : List Int) (periods : Nat)
  /-- INT_ALIGN: Writing INT_ALIGN restarts the channel's integration at the next code epoch. (R83) -/
  | intAlign (t : Nat) (m : Nat) (ch : Nat)
  /-- CODE_MEMORY_WRITE: A write of GB_CODE_DATA stores code memory and advances the address. (R87) -/
  | codeMemoryWrite (t : Nat) (m : Nat) (w : Word)
  /-- ACQ_REQUEST: An acquisition request is queued or refused. (R88) -/
  | acqRequest (t : Nat) (m : Nat)
  /-- ACQ_CAPTURE_DONE: The snapshot capture of a search completes and evaluation starts. (R89) -/
  | acqCaptureDone (t : Nat) (samples : List Byte)
  /-- ACQ_SEARCH_DONE: A search completes and its result is written. (R90) -/
  | acqSearchDone (t : Nat) (res : List Nat)
  /-- ACQ_CANCEL: ACQ_CMD cancel or ACQ_EN 0 cancels the search with RESULT 4. (R90) -/
  | acqCancel (t : Nat) (m : Nat)
  /-- BURST_START: Every 32,768 porch ticks in Parked or Standby a GNSS burst powers up. (R93) -/
  | burstStart (k : Nat)
  /-- BURST_MEASUREMENT: At the first porch tick after 20 ms of tracking the burst record is stored and the burst ends. (R94) -/
  | burstMeasurement (k : Nat)
  /-- FI_EDGE: A frequency-input edge passes the glitch filter and is counted and stamped. (R102) -/
  | fiEdge (t : Nat) (n : Nat) (rising : Bool)
  /-- FI_TIMEOUT: TIMEOUT × 10 ms without an edge sets STOPPED. (R103) -/
  | fiTimeout (t : Nat) (n : Nat)
  /-- FI_FIFO_POP: Reading FI_FIFO_LO removes the head stamp. (R104) -/
  | fiFifoPop (t : Nat) (m : Nat) (n : Nat)
  /-- IMU_DRDY: A DRDY edge starts an inertial-port transfer. (R105) -/
  | imuDrdy (t : Nat) (p : Nat) (rising : Bool)
  /-- IMU_PERIODIC_TRIGGER: In periodic mode a transfer starts at each multiple of IMU_PERIOD. (R105) -/
  | imuPeriodicTrigger (t : Nat) (p : Nat)
  /-- IMU_TRANSFER_DONE: A transfer completes, is checked and written into the ring. (R106) -/
  | imuTransferDone (t : Nat) (p : Nat) (data : List Byte)
  /-- IMU_TIMEOUT: IMU_TIMEOUT without a good entry sets TIMEOUT. (R106) -/
  | imuTimeout (t : Nat) (p : Nat)
  /-- POSE_COMMIT: A write of POSE_COMMIT copies the staging area to the pending buffer, or is refused for a foreign master. (R107) -/
  | poseCommit (t : Nat) (m : Nat)
  /-- FIELD_ORIGIN_WRITE: A write of FieldOriginEcef outside Field sets the origin and records 0x2017. (R100) -/
  | fieldOriginWrite (t : Nat) (r : Req) (sub : Nat) (v : Nat)
  /-- FRAME_START: At each shutter frame start the device publishes pose and parameters, commits queue entries and performs frame-start work. (R147) -/
  | frameStart (t : Nat)
  /-- EP_BIND: EpCommand 1 binds an ID to an output and places it in an engine slot. (R127) -/
  | epBind (t : Nat) (r : Req)
  /-- EP_UNBIND: EpCommand 2 unbinds a DISABLED endpoint. (R125) -/
  | epUnbind (t : Nat) (r : Req)
  /-- EP_ENABLE: EpCommand 3 or OWN_CMD set state enables an endpoint. (R125) -/
  | epEnable (t : Nat) (via : Via)
  /-- EP_DISABLE: EpCommand 4 or OWN_CMD set state disables an endpoint. (R126) -/
  | epDisable (t : Nat) (via : Via)
  /-- EP_SET_ACCOUNT: EpCommand 5 sets the AccountWord. (R128) -/
  | epSetAccount (t : Nat) (r : Req)
  /-- EP_SET_LATE_WINDOW: EpCommand 6 or OWN_CMD op 4 sets LateWindow. (R128) -/
  | epSetLateWindow (t : Nat) (via : Via)
  /-- EP_CLEAR_FAULT: EpCommand 7 returns a FAULTED endpoint to DISABLED. (R125) -/
  | epClearFault (t : Nat) (r : Req)
  /-- REMAP_REQUEST: A remap request through RemapCommand 1 or OWN_CMD op 1 is judged and reserves a target slot. (R133) -/
  | remapRequest (t : Nat) (via : Via)
  /-- REMAP_WITHDRAW: A withdrawal of a pending remap clears REMAP_PENDING and frees the slot. (R136) -/
  | remapWithdraw (t : Nat) (via : Via)
  /-- OWN_LOOKUP: OWN_CMD op 5 returns owner, slot, state and epoch of an ID. (R144) -/
  | ownLookup (t : Nat) (m : Nat)
  /-- RANGE_VERIFY_STORE: RangeCommand 1 verifies the range descriptors and stores them. (R130) -/
  | rangeVerifyStore (t : Nat) (r : Req)
  /-- RANGE_RELOAD: RangeCommand 2 unbinds every endpoint and binds the stored ranges again. (R131) -/
  | rangeReload (t : Nat) (r : Req)
  /-- FRAME_LENGTH_WRITE: A write of FrameLength is judged and scheduled. (R147) -/
  | frameLengthWrite (t : Nat) (r : Req) (v : Nat)
  /-- FRM_DONE: An engine writes FRM_DONE, ending its frame and delivering any held wake. (R149) -/
  | frmDone (t : Nat) (m : Nat)
  /-- PANE_CREATE: PaneCommand 1 creates a pane filled with PaneMissingFill. (R154) -/
  | paneCreate (t : Nat) (r : Req)
  /-- PANE_DELETE: PaneCommand 2 deletes a pane. (R155) -/
  | paneDelete (t : Nat) (r : Req)
  /-- PANE_CLEAR_COVERAGE: PaneCommand 3 clears the coverage bits of a pane. (R155) -/
  | paneClearCoverage (t : Nat) (r : Req)
  /-- PANE_DATA_WRITE: A PaneData write changes zone or whole bytes and invalidates cache lines. (R155) -/
  | paneDataWrite (t : Nat) (r : Req) (off : Nat) (data : List Byte)
  /-- PANE_FETCH: PF_CMD requests a pane fetch into an engine's memory. (R158) -/
  | paneFetch (t : Nat) (m : Nat)
  /-- PANE_FETCH_DONE: A fetch completes, writing the header last and raising FETCH. (R158) -/
  | paneFetchDone (t : Nat) (e : Nat) (tag : Nat)
  /-- TARGET_DATAGRAM: The host die receives a target datagram on TargetPort and checks it. (R164) -/
  | targetDatagram (t : Nat) (b : List Byte)
  /-- TARGET_LIST_IN: A target-list-in message is checked record by record and written into the target ring. (R164) -/
  | targetListIn (t : Nat) (b : List Byte)
  /-- TARGET_SOURCE_TIMEOUT: A source without an accepted datagram for TargetSourceTimeout becomes not live. (R165) -/
  | targetSourceTimeout (t : Nat) (slot : Nat)
  /-- TARGET_SOURCE_RELEASE: A source not live for 60 s gives up its slot. (R165) -/
  | targetSourceRelease (t : Nat) (slot : Nat)
  /-- QUEUE_ACTION: SHQ_CMD OP 1 queues an action after the ordered checks. (R172) -/
  | queueAction (t : Nat) (m : Nat)
  /-- QUEUE_WITHDRAW: SHQ_CMD OP 2 withdraws an uncommitted entry. (R175) -/
  | queueWithdraw (t : Nat) (m : Nat)
  /-- QUEUE_REPLACE: SHQ_CMD OP 3 replaces an entry in one fabric cycle. (R175) -/
  | queueReplace (t : Nat) (m : Nat)
  /-- ACTION_FIRE: At FireFt the queue executes or discards the action and drives the output. (R176) -/
  | actionFire (t : Nat) (id : Nat)
  /-- SCHEDULE_UNDELIVERABLE: An on schedule not sent by FireFt − NodeLead/2 is dropped and cancelled. (R180) -/
  | scheduleUndeliverable (t : Nat) (e : Nat) (handle : Nat)
  /-- MEASUREMENT_WINDOW_CLOSE: 1,000 ms after FireFt without a measurement the actuation's event is written unmeasured. (R182) -/
  | measurementWindowClose (t : Nat) (id : Nat)
  /-- AA_RD_WRITE: Firmware advances AA_RD within the valid range or is rejected. (R185) -/
  | aaRdWrite (t : Nat) (m : Nat) (v : Nat)
  /-- LEDGER_RUN_SUBMIT: LED_CMD submits a coverage run, which is checked, painted, stored and offered. (R186) -/
  | ledgerRunSubmit (t : Nat) (m : Nat)
  /-- LEDGER_RECORD_RX: A ledger record from another package is checked and applied. (R189) -/
  | ledgerRecordRx (t : Nat) (port : Nat) (sender : Nat) (b : List Byte)
  /-- LEDGER_RESEND_REQUEST: A gap lasting LedgerResendDelay sends a resend request. (R190) -/
  | ledgerResendRequest (t : Nat) (src : Nat)
  /-- LEDGER_RESEND_RX: A resend request is answered with own records or gone. (R190) -/
  | ledgerResendRx (t : Nat) (port : Nat) (src : Nat) (first : Nat)
  /-- LEDGER_GONE_RX: A gone answer advances Contig past the missing records. (R190) -/
  | ledgerGoneRx (t : Nat) (sender : Nat) (src : Nat) (count : Nat) (first : Nat)
  /-- LEDGER_RESEND_TIMEOUT: An unanswered resend is repeated up to 3 times, then treated as gone. (R192) -/
  | ledgerResendTimeout (t : Nat) (src : Nat)
  /-- LEDGER_REPLAY: LedgerReplay clears coverage and reapplies the ledger partition. (R191) -/
  | ledgerReplay (t : Nat) (r : Req) (v : Nat)
  /-- LEDGER_REPLAY_DONE: The replay completes and records 0x3029. (R191) -/
  | ledgerReplayDone (t : Nat)
  /-- SOL_BOOST_END: Current reaching PEAK_I or BOOST_TIME ends the boost phase. (R202) -/
  | solBoostEnd (t : Nat) (n : Nat) (raw : Int)
  /-- SOL_PEAK_END: The allowed peak time ends and hold begins. (R214) -/
  | solPeakEnd (t : Nat) (n : Nat) (trace : List Int)
  /-- SOL_KNEE_REACHED: Current at the knee ends fast recovery. (R202) -/
  | solKneeReached (t : Nat) (n : Nat) (raw : Int)
  /-- SOL_SLOW_RECOVERY_END: Slow recovery ends and the channel turns off. (R202) -/
  | solSlowRecoveryEnd (t : Nat) (n : Nat) (trace : List Int)
  /-- SOL_OPEN_LOAD_CHECK: At 500 µs after profile start a current below 50 mA is open load. (R215) -/
  | solOpenLoadCheck (t : Nat) (n : Nat) (raw : Int)
  /-- SOL_OVERCURRENT: Current at 7.5 A forces fast recovery. (R215) -/
  | solOvercurrent (t : Nat) (n : Nat) (raw : Int)
  /-- SOL_DRIVER_OVERTEMP: A channel junction at 160 °C forces fast recovery. (R215) -/
  | solDriverOvertemp (t : Nat) (n : Nat)
  /-- SOL_DRIVER_COOLED: At 145 °C the channel re-energises if ON. (R215) -/
  | solDriverCooled (t : Nat) (n : Nat)
  /-- SOL_COIL_COOLDOWN_END: 10 s after a coil overtemperature the channel may energise again. (R215) -/
  | solCoilCooldownEnd (t : Nat) (n : Nat)
  /-- SOL_OPENING_DETECT: The opening detector finds the armature's arrival. (R208) -/
  | solOpeningDetect (t : Nat) (n : Nat) (trace : List CoilSample)
  /-- SOL_CLOSING_DETECT: The closing detector finds the recovery kink. (R209) -/
  | solClosingDetect (t : Nat) (n : Nat) (trace : List CoilSample)
  /-- SOL_OPEN_WINDOW_END: OPEN_WIN passes without an opening measurement. (R208) -/
  | solOpenWindowEnd (t : Nat) (n : Nat)
  /-- SOL_PULSE_START: A pulse of a level train starts a whole profile. (R205) -/
  | solPulseStart (t : Nat) (n : Nat)
  /-- SOL_PULSE_OFF: A pulse turns off t_on after its start. (R205) -/
  | solPulseOff (t : Nat) (n : Nat)
  /-- SOL_THERM_STALE: 60 s without a resistance sample makes the thermal model stale. (R213) -/
  | solThermStale (t : Nat) (n : Nat)
  /-- SOL_OFF_PROBE: The 100 ms off-state probe checks continuity and shorts. (R215) -/
  | solOffProbe (t : Nat) (n : Nat) (found : Probe)
  /-- SOL_HOLD_LOW: Hold current low for 5 ms sets HOLD_LOW. (R215) -/
  | solHoldLow (t : Nat) (n : Nat) (trace : List Int)
  /-- SOL_FEED_UV: Die feed below 7.0 V puts every energised channel into fast recovery. (R215) -/
  | solFeedUv (t : Nat) (die : Nat) (mV : List Nat)
  /-- SOL_FEED_RECOVER: At 7.8 V channels with ON run a full profile. (R215) -/
  | solFeedRecover (t : Nat) (die : Nat) (mV : List Nat)
  /-- SOL_FAULT_CLEAR: SOL_CMD bit 0 or SolFaultClear clears a latched fault when the endpoint is off. (R216) -/
  | solFaultClear (t : Nat) (via : Via) (n : Nat)
  /-- SOL_FCNT_CLEAR: SOL_CMD bit 1 clears SOL_FCNT. (R216) -/
  | solFcntClear (t : Nat) (m : Nat) (n : Nat)
  /-- SOL_TEST_PULSE: SolTestPulse runs one profile of the given length. (R221) -/
  | solTestPulse (t : Nat) (r : Req) (n : Nat) (v : Nat)
  /-- BOOST_READY_CHANGE: The boost rail crosses 80 % of BoostVoltage. (R198) -/
  | boostReadyChange (t : Nat) (die : Nat) (mV : List Nat)
  /-- BOOST_FAULT: Rail not ready for 100 ms sets BOOST_FAULT and stops the converter. (R199) -/
  | boostFault (t : Nat) (die : Nat) (mV : List Nat)
  /-- BOOST_RESTART: 1 s after a boost fault the converter restarts. (R199) -/
  | boostRestart (t : Nat) (die : Nat)
  /-- BOOST_CHARGE_COMPLETE: A charge from below 80 % to target estimates the capacitance. (R200) -/
  | boostChargeComplete (t : Nat) (die : Nat) (charge : Nat)
  /-- BOOST_OVERVOLT: Rail above 66 V for 100 µs sets OVERVOLT and stops the converter. (R200) -/
  | boostOvervolt (t : Nat) (die : Nat) (mV : List Nat)
  /-- BOOST_OVERVOLT_END: The rail falls below BoostVoltage and the converter resumes. (R200) -/
  | boostOvervoltEnd (t : Nat) (die : Nat) (mV : List Nat)
  /-- BOOST_CAP_CLEAR: CAP_CLEAR or BoostCapClear clears CAP_FAULT at Service level. (R200) -/
  | boostCapClear (t : Nat) (via : Via) (die : Nat)
  /-- SENSE_REPLICA_READ: Every 1 ms the replica sense channel is read for offset correction. (R207) -/
  | senseReplicaRead (t : Nat) (die : Nat) (tenths : Int)
  /-- SENSE_OFFSET_TIMEOUT: The replica unread for 5 ms is a sense offset fault. (R215) -/
  | senseOffsetTimeout (t : Nat) (die : Nat)
  /-- LV_PERIOD_START: A Louvre period starts, taking a committed set and clamping the period. (R228) -/
  | lvPeriodStart (t : Nat) (n : Nat)
  /-- LV_COMPARE: A compare fires, pulsing its trigger line and interrupt. (R230) -/
  | lvCompare (t : Nat) (n : Nat) (j : Nat)
  /-- LV_COMMIT: A write of LV_COMMIT marks the staged set for transfer. (R228) -/
  | lvCommit (t : Nat) (m : Nat) (n : Nat)
  /-- LV_ENABLE: Writing EN 1 starts a period at count 0 with the staged set. (R234) -/
  | lvEnable (t : Nat) (via : Via) (n : Nat)
  /-- LV_DISABLE: Writing EN 0 drives all outputs low within 5 ns. (R234) -/
  | lvDisable (t : Nat) (via : Via) (n : Nat)
  /-- LV_CMD_TIMEOUT: No committed set for CMD_TIMEOUT disables the module. (R235) -/
  | lvCmdTimeout (t : Nat) (n : Nat)
  /-- LV_SYNC_PULSE: A synchronising pulse restarts the module's period while the chain is open. (R232) -/
  | lvSyncPulse (t : Nat) (n : Nat)
  /-- LV_RESYNC: LvResync or RESYNC opens the chain for 100 ms. (R231) -/
  | lvResync (t : Nat) (via : Via) (die : Nat)
  /-- LV_CHAIN_TIMEOUT: The 100 ms resync window ends. (R231) -/
  | lvChainTimeout (t : Nat) (die : Nat)
  /-- LV_TEST: LvTest opens or closes the die's chain. (R231) -/
  | lvTest (t : Nat) (via : Via) (die : Nat) (v : Nat)
  /-- HINGE_SAMPLE: A slot's timer or line trigger samples and evaluates the compensator. (R244) -/
  | hingeSample (t : Nat) (g : Nat)
  /-- HINGE_COMMIT: HG_COMMIT or SlotCommit marks a slot's staged set. (R258) -/
  | hingeCommit (t : Nat) (via : Via) (g : Nat)
  /-- HINGE_SLOT_ENABLE: Enabling a slot initialises its histories and profile. (R259) -/
  | hingeSlotEnable (t : Nat) (via : Via) (g : Nat)
  /-- HINGE_SLOT_DISABLE: Disabling a slot stops its writes. (R259) -/
  | hingeSlotDisable (t : Nat) (via : Via) (g : Nat)
  /-- HINGE_DISABLE_ALL: HG_CTRL.EN 0 disables every slot of the die. (R259) -/
  | hingeDisableAll (t : Nat) (via : Via) (die : Nat)
  /-- LS_DIRECT_COMMAND: LS_DIRECT or LsCommand sets a load switch directly. (R265) -/
  | lsDirectCommand (t : Nat) (via : Via) (n : Nat) (v : Nat)
  /-- DIO_DIRECT_COMMAND: DIO_DIRECT or DioCommand sets a digital output directly. (R265) -/
  | dioDirectCommand (t : Nat) (via : Via) (n : Nat) (v : Nat)
  /-- LS_CURRENT_LIMIT: A load switch reaches its current limit and regulates. (R267) -/
  | lsCurrentLimit (t : Nat) (n : Nat) (limited : Bool)
  /-- LS_THERMAL_SHUTDOWN: A switch junction at 160 °C switches off. (R267) -/
  | lsThermalShutdown (t : Nat) (n : Nat)
  /-- LS_THERMAL_RESTORE: At 145 °C the switch returns to its commanded state. (R267) -/
  | lsThermalRestore (t : Nat) (n : Nat)
  /-- LS_FAULT_CLEAR: LS_CMD or LsFaultClear clears a latched fault while off is asked. (R267) -/
  | lsFaultClear (t : Nat) (via : Via) (n : Nat)
  /-- LS_FEED_UV: Feed below 7.0 V switches every load switch of the die off. (R268) -/
  | lsFeedUv (t : Nat) (die : Nat) (mV : Nat)
  /-- LS_FEED_RECOVER: At 7.8 V each switch returns within 100 µs. (R268) -/
  | lsFeedRecover (t : Nat) (die : Nat) (mV : Nat)
  /-- LS_PWM_PERIOD: A 5 ms pulsing period starts and its on-time is computed. (R269) -/
  | lsPwmPeriod (t : Nat) (n : Nat) (mV : Nat)
  /-- LS_DWELL_END: A dwell ends on its crossing or after 1 ms. (R270) -/
  | lsDwellEnd (t : Nat) (die : Nat) (mA : List Nat)
  /-- LS_SENSE_SCAN: The sense scan visits the next channel for 100 µs and publishes its mean. (R270) -/
  | lsSenseScan (t : Nat) (n : Nat) (mA : List Nat)
  /-- LS_OPEN_LOAD: Current below threshold for 10 ms while on sets OPEN. (R271) -/
  | lsOpenLoad (t : Nat) (n : Nat)
  /-- LS_LEAKAGE: Current above threshold for 10 ms while off sets LEAK. (R271) -/
  | lsLeakage (t : Nat) (n : Nat)
  /-- DIO_INPUT_CHANGE: A digital input holds a new zone for DEBOUNCE samples and changes state. (R274) -/
  | dioInputChange (t : Nat) (n : Nat) (r : List Nat)
  /-- DIO_OUTPUT_PROTECT: A digital output reaches its current limit or thermal protection. (R275) -/
  | dioOutputProtect (t : Nat) (n : Nat) (limited : Bool) (hot : Bool)
  /-- DIO_GROUP_UV: A group supply below 7.0 V switches its outputs off. (R275) -/
  | dioGroupUv (t : Nat) (g : Nat) (mV : Nat)
  /-- DIO_GROUP_RECOVER: At 7.8 V the group's outputs return. (R275) -/
  | dioGroupRecover (t : Nat) (g : Nat) (mV : Nat)
  /-- DIO_READBACK_MISMATCH: Readback disagreeing with the command for 1 ms sets OUT_LOW or OUT_HIGH. (R276) -/
  | dioReadbackMismatch (t : Nat) (n : Nat) (r : List Nat)
  /-- WDG_KICK: A write to WDG_KICK is judged by owner and token. (R278) -/
  | wdgKick (t : Nat) (m : Nat) (die : Nat) (token : Nat)
  /-- WDG_EXPIRE: No valid kick for WdgTimeout expires the watchdog. (R277) -/
  | wdgExpire (t : Nat) (die : Nat)
  /-- WDG_HOLD_SET: WdgHold set in an authorised session stops the timer. (R280) -/
  | wdgHoldSet (t : Nat) (r : Req) (die : Nat)
  /-- WDG_HOLD_CLEAR: Clearing the hold restarts the timer in ARMED. (R280) -/
  | wdgHoldClear (t : Nat) (r : Req) (die : Nat)
  /-- WDG_TIMEOUT_WRITE: A new WdgTimeout takes effect at once. (R280) -/
  | wdgTimeoutWrite (t : Nat) (r : Req) (die : Nat) (v : Nat)
  /-- WDG_OWNER_WRITE: WdgOwner is written in DISARMED or EXPIRED. (R280) -/
  | wdgOwnerWrite (t : Nat) (r : Req) (die : Nat) (v : Nat)
  /-- FAILSAFE_WRITE: FailsafeSol, FailsafeLs or FailsafeDio stores fail-safe states. (R279) -/
  | failsafeWrite (t : Nat) (r : Req) (die : Nat) (kind : Nat) (v : Nat)
  /-- SAFETY_INPUT_CHANGE: A safety channel's level changes and the pair's state is taken at the next tick. (R282) -/
  | safetyInputChange (t : Nat) (p : Nat) (a : Nat) (b : Nat)
  /-- DISCREPANCY_LATCH: The disagreement counter reaching N latches DISCREPANCY. (R283) -/
  | discrepancyLatch (t : Nat) (p : Nat)
  /-- SIN_ACK: SinAck acknowledges a discrepancy when both channels are safe. (R284) -/
  | sinAck (t : Nat) (r : Req) (p : Nat)
  /-- SIN_ENABLE: Enabling a safety pair sets its channels to mode 3. (R281) -/
  | sinEnable (t : Nat) (r : Req) (p : Nat)
  /-- SIN_DISABLE: Disabling a pair returns its channels to mode 0. (R281) -/
  | sinDisable (t : Nat) (r : Req) (p : Nat)
  /-- ACL_CHANNEL_CHANGE: An all-close channel takes a new reading after five equal samples. (R286) -/
  | aclChannelChange (t : Nat) (die : Nat) (chan : Nat) (ua : List Nat)
  /-- ACL_DISCREPANCY_LATCH: The line's channels disagree for 100 ms and latch a discrepancy. (R286) -/
  | aclDiscrepancyLatch (t : Nat) (die : Nat)
  /-- ACL_ACK: AclAck clears the all-close discrepancy on both dies. (R286) -/
  | aclAck (t : Nat) (r : Req)
  /-- ALL_CLOSE_REPEAT: Every 2 ms in the close state an all-close frame is sent on every enabled bus. (R327) -/
  | allCloseRepeat (t : Nat)
  /-- SILL_CLOSE_REPEAT: Every 1 ms in the close state a Close frame is sent on every running link. (R307) -/
  | sillCloseRepeat (t : Nat)
  /-- AI_TRIGGERED_CONVERSION: A trigger line or Hinge sample starts a triggered conversion. (R289) -/
  | aiTriggeredConversion (t : Nat) (n : Nat)
  /-- AI_CONVERSION_DONE: A conversion result is ready. (R289) -/
  | aiConversionDone (t : Nat) (n : Nat) (code : Nat)
  /-- AI_SCAN_CONVERSION: At each multiple of AI_PERIOD a scanned conversion starts. (R289) -/
  | aiScanConversion (t : Nat) (n : Nat)
  /-- AI_STALE: No result for 3 × AI_PERIOD sets STALE. (R290) -/
  | aiStale (t : Nat) (n : Nat)
  /-- AI_OVERLOAD: Current above 25 mA disconnects the shunt. (R288) -/
  | aiOverload (t : Nat) (n : Nat)
  /-- AI_SHUNT_RETRY: 100 ms after an overload the shunt is reconnected. (R288) -/
  | aiShuntRetry (t : Nat) (n : Nat)
  /-- SENSOR_SUPPLY_TRIP: SENSOR_5V trips and sets SUPPLY on every input of the die. (R288) -/
  | sensorSupplyTrip (t : Nat) (die : Nat) (mA : Nat)
  /-- SILL_ENABLE: SillEnable 1 starts commas on DN and link bring-up. (R299) -/
  | sillEnable (t : Nat) (via : Via) (n : Nat)
  /-- SILL_SYMBOL_LOCK: 64 commas on UP lock the link and Enumerate is sent. (R299) -/
  | sillSymbolLock (t : Nat) (n : Nat)
  /-- SILL_IDENTITY_RX: A tile's Identity frame arrives and its position is recorded. (R299) -/
  | sillIdentityRx (t : Nat) (n : Nat) (sym : Nat) (b : List Byte)
  /-- SILL_ENUM_COMPLETE: 50 µs after the last Identity the chain length is fixed. (R299) -/
  | sillEnumComplete (t : Nat) (n : Nat) (rts : List Nat)
  /-- SILL_TIME_FRAME: A Time frame is sent at each whole millisecond of FT. (R298) -/
  | sillTimeFrame (t : Nat)
  /-- SILL_POLL: The port polls the next tile. (R309) -/
  | sillPoll (t : Nat) (n : Nat)
  /-- SILL_STATUS_RX: A tile's Status frame arrives with flags and measurements. (R309) -/
  | sillStatusRx (t : Nat) (n : Nat) (sym : Nat) (b : List Byte)
  /-- SILL_POLL_TIMEOUT: A Poll unanswered within 50 µs counts toward tile or link loss. (R308) -/
  | sillPollTimeout (t : Nat) (n : Nat)
  /-- SILL_LINK_LOSS: 10 µs without symbols or three bad frames lose the link. (R308) -/
  | sillLinkLoss (t : Nat) (n : Nat) (sym : Nat)
  /-- SILL_REENUM_TIMER: While a tile is lost the port re-enumerates every 1 s. (R308) -/
  | sillReenumTimer (t : Nat) (n : Nat)
  /-- SILL_REENUMERATE: SillReenumerate or REENUM clears SWAPPED and re-enumerates. (R299) -/
  | sillReenumerate (t : Nat) (via : Via) (n : Nat)
  /-- IB_FRAME_RX: A frame is received on an implement port and checked, judged and stored. (R318) -/
  | ibFrameRx (t : Nat) (port : Nat) (start : Nat) (std : Bool) (remote : Bool) (ident : Nat) (data : List Byte)
  /-- NODE_WINDOWS_RESTORE: 1,000 rounds without intrusion restore a node's windows. (R325) -/
  | nodeWindowsRestore (t : Nat) (port : Nat) (node : Nat)
  /-- IB_SILENCE: IbSilence makes the time master send a silence frame. (R328) -/
  | ibSilence (t : Nat) (r : Req) (v : Nat)
  /-- IB_SILENCE_RX: A silence frame restricts sending to priority 0 until UntilFt. (R328) -/
  | ibSilenceRx (t : Nat) (port : Nat) (sender : Nat) (v : Nat)
  /-- SILENCE_END: UntilFt passes and the silence ends. (R328) -/
  | silenceEnd (t : Nat)
  /-- NODE_REPORT_RX: A node report delivers executions, measurements, adoptions or refusals. (R330) -/
  | nodeReportRx (t : Nat) (port : Nat) (node : Nat) (data : List Byte)
  /-- NODE_STATUS_RX: A node status frame updates the node's state. (R331) -/
  | nodeStatusRx (t : Nat) (port : Nat) (node : Nat) (data : List Byte)
  /-- NODE_TIMEOUT: NodeTimeout without status declares the node lost. (R333) -/
  | nodeTimeout (t : Nat) (port : Nat) (node : Nat)
  /-- NODE_CONFIGURE_PERIODIC: Node configure is sent to each controlled node every 1 s. (R331) -/
  | nodeConfigurePeriodic (t : Nat)
  /-- IB_TX_QUEUE: IB_TX_CMD queues a firmware frame or refuses it. (R335) -/
  | ibTxQueue (t : Nat) (m : Nat) (port : Nat)
  /-- IB_FRAME_SEND: A queued frame starts when it fits its window. (R322) -/
  | ibFrameSend (t : Nat) (port : Nat)
  /-- IB_ERROR_STATE: A port changes error state or goes bus-off. (R315) -/
  | ibErrorState (t : Nat) (port : Nat) (st : Nat) (tec : Nat) (rec : Nat)
  /-- RENDEZVOUS_BEACON: A sleeping package sends its beacon each second at its offset. (R336) -/
  | rendezvousBeacon (k : Nat)
  /-- RENDEZVOUS_BEACON_RX: A partner's beacon re-centres its window. (R337) -/
  | rendezvousBeaconRx (k : Nat) (port : Nat) (who : Nat) (data : List Byte)
  /-- RENDEZVOUS_PARTNER_LOST: The window exceeding 250 ms loses the partner and sends a wake-up pattern. (R337) -/
  | rendezvousPartnerLost (k : Nat) (port : Nat) (who : Nat)
  /-- RENDEZVOUS_WAKE_RETRY: The wake-up pattern is repeated at 1 s intervals up to three times. (R337) -/
  | rendezvousWakeRetry (k : Nat) (port : Nat) (who : Nat)
  /-- IB_WAKE_PATTERN: A wake-up pattern or WAKE_REQUEST beacon wakes the package. (R338) -/
  | ibWakePattern (k : Nat) (port : Nat)
  /-- TRANSOM_FRAME_RX: A Transom message frame of an unlisted kind, wrong direction, length or CRC is dropped. (R347) -/
  | transomFrameRx (t : Nat) (lane : Nat) (toField : Bool) (b : List Byte)
  /-- LANE_DOWN: A lane without lock for 10 µs is down. (R345) -/
  | laneDown (t : Nat) (lane : Nat)
  /-- LANE_RETRAIN: A down lane retrains every 10 ms. (R345) -/
  | laneRetrain (t : Nat) (lane : Nat) (locked : Bool)
  /-- HOST_STOP_WRITE: A write of HostStop asserts or releases the host stop. (R349) -/
  | hostStopWrite (t : Nat) (r : Req) (v : Nat)
  /-- HOST_STOP_ASSERT: Three periods at 4 MHz on the stop lane enter the close state. (R349) -/
  | hostStopAssert (t : Nat) (firmware : Bool)
  /-- HOST_STOP_RELEASE: Three periods at 1 MHz release the stop. (R349) -/
  | hostStopRelease (t : Nat) (firmware : Bool)
  /-- STOP_LANE_LOST: 5 µs without an edge loses the stop lane. (R349) -/
  | stopLaneLost (t : Nat)
  /-- STOP_LANE_RETURN: Edges return on the stop lane. (R349) -/
  | stopLaneReturn (t : Nat)
  /-- POSE_IN_DATAGRAM: The host die receives a pose-in datagram and sends it across the Transom. (R350) -/
  | poseInDatagram (t : Nat) (b : List Byte)
  /-- POSE_IN: A pose-in message is written into the pose-in ring. (R350) -/
  | poseIn (t : Nat)
  /-- AS_APPLIED_OUT: TR_TX_CMD sends an as-applied-out message to the host. (R351) -/
  | asAppliedOut (t : Nat) (m : Nat)
  /-- UDP_DATAGRAM_RX: A datagram to an unconfigured UDP port is dropped. (R354) -/
  | udpDatagramRx (t : Nat) (port : Nat) (x : HostIn)
  /-- KEYHOLE_ATTACH: The Keyhole is attached. (R355) -/
  | keyholeAttach (t : Nat)
  /-- KEYHOLE_DETACH: The Keyhole is detached. (R355) -/
  | keyholeDetach (t : Nat)
  /-- CONFIG_JOURNAL_COMMIT: A journal entry for a persistent write is committed and the response sent. (R379) -/
  | configJournalCommit (t : Nat) (ok : Bool)
  /-- CONFIG_COMPACTION_DONE: Compaction completes and deferred writes execute. (R380) -/
  | configCompactionDone (t : Nat)
  /-- RESTORE_DEFAULTS: RestoreDefaults schedules defaults for the next start. (R381) -/
  | restoreDefaults (t : Nat) (r : Req)
  /-- PACKAGE_NUMBER_WRITE: A write of PackageNumber changes membership. (R383) -/
  | packageNumberWrite (t : Nat) (r : Req) (v : Nat)
  /-- ADD: Adds two registers. (R398) -/
  | addR (t : Nat) (e : Nat) (rd : BitVec 5) (rs1 : BitVec 5) (rs2 : BitVec 5)
  /-- SUB: Subtracts two registers. (R398) -/
  | subR (t : Nat) (e : Nat) (rd : BitVec 5) (rs1 : BitVec 5) (rs2 : BitVec 5)
  /-- AND: Bitwise AND. (R398) -/
  | andR (t : Nat) (e : Nat) (rd : BitVec 5) (rs1 : BitVec 5) (rs2 : BitVec 5)
  /-- OR: Bitwise OR. (R398) -/
  | orR (t : Nat) (e : Nat) (rd : BitVec 5) (rs1 : BitVec 5) (rs2 : BitVec 5)
  /-- XOR: Bitwise XOR. (R398) -/
  | xorR (t : Nat) (e : Nat) (rd : BitVec 5) (rs1 : BitVec 5) (rs2 : BitVec 5)
  /-- SHL: Shift left. (R398) -/
  | shl (t : Nat) (e : Nat) (rd : BitVec 5) (rs1 : BitVec 5) (rs2 : BitVec 5)
  /-- SHR: Logical shift right. (R398) -/
  | shr (t : Nat) (e : Nat) (rd : BitVec 5) (rs1 : BitVec 5) (rs2 : BitVec 5)
  /-- SAR: Arithmetic shift right. (R398) -/
  | sar (t : Nat) (e : Nat) (rd : BitVec 5) (rs1 : BitVec 5) (rs2 : BitVec 5)
  /-- CLT: Signed compare less than. (R398) -/
  | clt (t : Nat) (e : Nat) (rd : BitVec 5) (rs1 : BitVec 5) (rs2 : BitVec 5)
  /-- CLTU: Unsigned compare less than. (R398) -/
  | cltu (t : Nat) (e : Nat) (rd : BitVec 5) (rs1 : BitVec 5) (rs2 : BitVec 5)
  /-- MUL: Multiply, low word. (R398) -/
  | mul (t : Nat) (e : Nat) (rd : BitVec 5) (rs1 : BitVec 5) (rs2 : BitVec 5)
  /-- MULHI: Signed multiply, high word. (R398) -/
  | mulhi (t : Nat) (e : Nat) (rd : BitVec 5) (rs1 : BitVec 5) (rs2 : BitVec 5)
  /-- MULHIU: Unsigned multiply, high word. (R398) -/
  | mulhiu (t : Nat) (e : Nat) (rd : BitVec 5) (rs1 : BitVec 5) (rs2 : BitVec 5)
  /-- QUO: Signed quotient; by zero gives 0xFFFF_FFFF. (R398) -/
  | quo (t : Nat) (e : Nat) (rd : BitVec 5) (rs1 : BitVec 5) (rs2 : BitVec 5)
  /-- QUOU: Unsigned quotient. (R398) -/
  | quou (t : Nat) (e : Nat) (rd : BitVec 5) (rs1 : BitVec 5) (rs2 : BitVec 5)
  /-- MOD: Signed remainder; by zero gives the dividend. (R398) -/
  | modR (t : Nat) (e : Nat) (rd : BitVec 5) (rs1 : BitVec 5) (rs2 : BitVec 5)
  /-- MODU: Unsigned remainder. (R398) -/
  | modu (t : Nat) (e : Nat) (rd : BitVec 5) (rs1 : BitVec 5) (rs2 : BitVec 5)
  /-- MIN: Signed minimum. (R398) -/
  | min (t : Nat) (e : Nat) (rd : BitVec 5) (rs1 : BitVec 5) (rs2 : BitVec 5)
  /-- MAX: Signed maximum. (R398) -/
  | max (t : Nat) (e : Nat) (rd : BitVec 5) (rs1 : BitVec 5) (rs2 : BitVec 5)
  /-- MINU: Unsigned minimum. (R398) -/
  | minu (t : Nat) (e : Nat) (rd : BitVec 5) (rs1 : BitVec 5) (rs2 : BitVec 5)
  /-- MAXU: Unsigned maximum. (R398) -/
  | maxu (t : Nat) (e : Nat) (rd : BitVec 5) (rs1 : BitVec 5) (rs2 : BitVec 5)
  /-- LZC: Counts leading zero bits. (R398) -/
  | lzc (t : Nat) (e : Nat) (rd : BitVec 5) (rs1 : BitVec 5)
  /-- BITC: Counts set bits. (R398) -/
  | bitc (t : Nat) (e : Nat) (rd : BitVec 5) (rs1 : BitVec 5)
  /-- ADDK: Adds a constant. (R398) -/
  | addk (t : Nat) (e : Nat) (rd : BitVec 5) (rs1 : BitVec 5) (imm : BitVec 16)
  /-- ANDK: AND with a zero-extended constant. (R398) -/
  | andk (t : Nat) (e : Nat) (rd : BitVec 5) (rs1 : BitVec 5) (imm : BitVec 16)
  /-- ORK: OR with a zero-extended constant. (R398) -/
  | ork (t : Nat) (e : Nat) (rd : BitVec 5) (rs1 : BitVec 5) (imm : BitVec 16)
  /-- XORK: XOR with a zero-extended constant. (R398) -/
  | xork (t : Nat) (e : Nat) (rd : BitVec 5) (rs1 : BitVec 5) (imm : BitVec 16)
  /-- CLTK: Compares with a constant. (R398) -/
  | cltk (t : Nat) (e : Nat) (rd : BitVec 5) (rs1 : BitVec 5) (imm : BitVec 16)
  /-- HIK: Loads a constant into the upper half. (R398) -/
  | hik (t : Nat) (e : Nat) (rd : BitVec 5) (imm : BitVec 16)
  /-- SHK: Shifts by a constant amount and kind. (R398) -/
  | shk (t : Nat) (e : Nat) (rd : BitVec 5) (rs1 : BitVec 5) (imm : BitVec 16)
  /-- LDW: Loads a word. (R398) -/
  | ldw (t : Nat) (e : Nat) (rd : BitVec 5) (rs1 : BitVec 5) (imm : BitVec 16)
  /-- LDH: Loads a signed halfword. (R398) -/
  | ldh (t : Nat) (e : Nat) (rd : BitVec 5) (rs1 : BitVec 5) (imm : BitVec 16)
  /-- LDHU: Loads an unsigned halfword. (R398) -/
  | ldhu (t : Nat) (e : Nat) (rd : BitVec 5) (rs1 : BitVec 5) (imm : BitVec 16)
  /-- LDB: Loads a signed byte. (R398) -/
  | ldb (t : Nat) (e : Nat) (rd : BitVec 5) (rs1 : BitVec 5) (imm : BitVec 16)
  /-- LDBU: Loads an unsigned byte. (R398) -/
  | ldbu (t : Nat) (e : Nat) (rd : BitVec 5) (rs1 : BitVec 5) (imm : BitVec 16)
  /-- STW: Stores a word. (R398) -/
  | stw (t : Nat) (e : Nat) (rd : BitVec 5) (rs1 : BitVec 5) (imm : BitVec 16)
  /-- STH: Stores a halfword. (R398) -/
  | sth (t : Nat) (e : Nat) (rd : BitVec 5) (rs1 : BitVec 5) (imm : BitVec 16)
  /-- STB: Stores a byte. (R398) -/
  | stb (t : Nat) (e : Nat) (rd : BitVec 5) (rs1 : BitVec 5) (imm : BitVec 16)
  /-- LDD: Loads a register pair in one access. (R391) -/
  | ldd (t : Nat) (e : Nat) (rd : BitVec 5) (rs1 : BitVec 5) (imm : BitVec 16)
  /-- STD: Stores a register pair in one access. (R392) -/
  | std (t : Nat) (e : Nat) (rd : BitVec 5) (rs1 : BitVec 5) (imm : BitVec 16)
  /-- BREQ: Branches if equal. (R398) -/
  | breq (t : Nat) (e : Nat) (rs1 : BitVec 5) (rs2 : BitVec 5) (off : BitVec 16)
  /-- BRNE: Branches if not equal. (R398) -/
  | brne (t : Nat) (e : Nat) (rs1 : BitVec 5) (rs2 : BitVec 5) (off : BitVec 16)
  /-- BRLT: Branches if signed less. (R398) -/
  | brlt (t : Nat) (e : Nat) (rs1 : BitVec 5) (rs2 : BitVec 5) (off : BitVec 16)
  /-- BRGE: Branches if signed greater or equal. (R398) -/
  | brge (t : Nat) (e : Nat) (rs1 : BitVec 5) (rs2 : BitVec 5) (off : BitVec 16)
  /-- BRLTU: Branches if unsigned less. (R398) -/
  | brltu (t : Nat) (e : Nat) (rs1 : BitVec 5) (rs2 : BitVec 5) (off : BitVec 16)
  /-- BRGEU: Branches if unsigned greater or equal. (R398) -/
  | brgeu (t : Nat) (e : Nat) (rs1 : BitVec 5) (rs2 : BitVec 5) (off : BitVec 16)
  /-- GO: Long jump. (R398) -/
  | go (t : Nat) (e : Nat) (off : BitVec 26)
  /-- CALL: Long call with link in g31. (R398) -/
  | call (t : Nat) (e : Nat) (off : BitVec 26)
  /-- GOR: Jumps to a register plus offset. (R398) -/
  | gor (t : Nat) (e : Nat) (rs1 : BitVec 5) (imm : BitVec 16)
  /-- CALLR: Calls through a register with link in rd. (R398) -/
  | callr (t : Nat) (e : Nat) (rd : BitVec 5) (rs1 : BitVec 5) (imm : BitVec 16)
  /-- ADD_D: Adds register pairs. (R398) -/
  | addD (t : Nat) (e : Nat) (rd : BitVec 5) (rs1 : BitVec 5) (rs2 : BitVec 5)
  /-- SUB_D: Subtracts register pairs. (R398) -/
  | subD (t : Nat) (e : Nat) (rd : BitVec 5) (rs1 : BitVec 5) (rs2 : BitVec 5)
  /-- CLTU_D: Unsigned compare of pairs. (R398) -/
  | cltuD (t : Nat) (e : Nat) (rd : BitVec 5) (rs1 : BitVec 5) (rs2 : BitVec 5)
  /-- CLT_D: Signed compare of pairs. (R398) -/
  | cltD (t : Nat) (e : Nat) (rd : BitVec 5) (rs1 : BitVec 5) (rs2 : BitVec 5)
  /-- FADD: F32 add. (R398) -/
  | fadd (t : Nat) (e : Nat) (rd : BitVec 5) (rs1 : BitVec 5) (rs2 : BitVec 5)
  /-- FSUB: F32 subtract. (R398) -/
  | fsub (t : Nat) (e : Nat) (rd : BitVec 5) (rs1 : BitVec 5) (rs2 : BitVec 5)
  /-- FMUL: F32 multiply. (R398) -/
  | fmul (t : Nat) (e : Nat) (rd : BitVec 5) (rs1 : BitVec 5) (rs2 : BitVec 5)
  /-- FDIV: F32 divide. (R398) -/
  | fdiv (t : Nat) (e : Nat) (rd : BitVec 5) (rs1 : BitVec 5) (rs2 : BitVec 5)
  /-- FSQRT: F32 square root. (R398) -/
  | fsqrt (t : Nat) (e : Nat) (rd : BitVec 5) (rs1 : BitVec 5)
  /-- FMIN: F32 minimum. (R398) -/
  | fmin (t : Nat) (e : Nat) (rd : BitVec 5) (rs1 : BitVec 5) (rs2 : BitVec 5)
  /-- FMAX: F32 maximum. (R398) -/
  | fmax (t : Nat) (e : Nat) (rd : BitVec 5) (rs1 : BitVec 5) (rs2 : BitVec 5)
  /-- FCLT: F32 compare less than. (R398) -/
  | fclt (t : Nat) (e : Nat) (rd : BitVec 5) (rs1 : BitVec 5) (rs2 : BitVec 5)
  /-- FCEQ: F32 compare equal. (R398) -/
  | fceq (t : Nat) (e : Nat) (rd : BitVec 5) (rs1 : BitVec 5) (rs2 : BitVec 5)
  /-- FFROMI: Converts an integer to F32. (R398) -/
  | ffromi (t : Nat) (e : Nat) (rd : BitVec 5) (rs1 : BitVec 5)
  /-- FTOI: Converts F32 to an integer, saturating. (R398) -/
  | ftoi (t : Nat) (e : Nat) (rd : BitVec 5) (rs1 : BitVec 5)
  /-- FSCT: Sine and cosine of a fraction of a turn. (R398) -/
  | fsct (t : Nat) (e : Nat) (rd : BitVec 5) (rs1 : BitVec 5)
  /-- FANG: Angle of a sine and cosine pair. (R398) -/
  | fang (t : Nat) (e : Nat) (rd : BitVec 5) (rs1 : BitVec 5) (rs2 : BitVec 5)
  /-- ATADD: Atomic add. (R396) -/
  | atadd (t : Nat) (e : Nat) (rd : BitVec 5) (rs1 : BitVec 5) (rs2 : BitVec 5)
  /-- ATSWP: Atomic exchange. (R396) -/
  | atswp (t : Nat) (e : Nat) (rd : BitVec 5) (rs1 : BitVec 5) (rs2 : BitVec 5)
  /-- ATMIN: Atomic signed minimum. (R396) -/
  | atmin (t : Nat) (e : Nat) (rd : BitVec 5) (rs1 : BitVec 5) (rs2 : BitVec 5)
  /-- ATMAX: Atomic signed maximum. (R396) -/
  | atmax (t : Nat) (e : Nat) (rd : BitVec 5) (rs1 : BitVec 5) (rs2 : BitVec 5)
  /-- ATCAS: Atomic compare and store. (R396) -/
  | atcas (t : Nat) (e : Nat) (rd : BitVec 5) (rs1 : BitVec 5) (rs2 : BitVec 5)
  /-- VADD: Vector add. (R400) -/
  | vadd (t : Nat) (e : Nat) (vd : BitVec 4) (vs1 : BitVec 4) (vs2 : BitVec 4) (m : BitVec 5)
  /-- VSUB: Vector subtract. (R400) -/
  | vsub (t : Nat) (e : Nat) (vd : BitVec 4) (vs1 : BitVec 4) (vs2 : BitVec 4) (m : BitVec 5)
  /-- VMUL: Vector multiply. (R400) -/
  | vmul (t : Nat) (e : Nat) (vd : BitVec 4) (vs1 : BitVec 4) (vs2 : BitVec 4) (m : BitVec 5)
  /-- VMULHI: Vector multiply high. (R400) -/
  | vmulhi (t : Nat) (e : Nat) (vd : BitVec 4) (vs1 : BitVec 4) (vs2 : BitVec 4) (m : BitVec 5)
  /-- VAND: Vector AND. (R400) -/
  | vand (t : Nat) (e : Nat) (vd : BitVec 4) (vs1 : BitVec 4) (vs2 : BitVec 4) (m : BitVec 5)
  /-- VOR: Vector OR. (R400) -/
  | vor (t : Nat) (e : Nat) (vd : BitVec 4) (vs1 : BitVec 4) (vs2 : BitVec 4) (m : BitVec 5)
  /-- VXOR: Vector XOR. (R400) -/
  | vxor (t : Nat) (e : Nat) (vd : BitVec 4) (vs1 : BitVec 4) (vs2 : BitVec 4) (m : BitVec 5)
  /-- VSHL: Vector shift left. (R400) -/
  | vshl (t : Nat) (e : Nat) (vd : BitVec 4) (vs1 : BitVec 4) (vs2 : BitVec 4) (m : BitVec 5)
  /-- VSHR: Vector logical shift right. (R400) -/
  | vshr (t : Nat) (e : Nat) (vd : BitVec 4) (vs1 : BitVec 4) (vs2 : BitVec 4) (m : BitVec 5)
  /-- VSAR: Vector arithmetic shift right. (R400) -/
  | vsar (t : Nat) (e : Nat) (vd : BitVec 4) (vs1 : BitVec 4) (vs2 : BitVec 4) (m : BitVec 5)
  /-- VMIN: Vector signed minimum. (R400) -/
  | vmin (t : Nat) (e : Nat) (vd : BitVec 4) (vs1 : BitVec 4) (vs2 : BitVec 4) (m : BitVec 5)
  /-- VMAX: Vector signed maximum. (R400) -/
  | vmax (t : Nat) (e : Nat) (vd : BitVec 4) (vs1 : BitVec 4) (vs2 : BitVec 4) (m : BitVec 5)
  /-- VMINU: Vector unsigned minimum. (R400) -/
  | vminu (t : Nat) (e : Nat) (vd : BitVec 4) (vs1 : BitVec 4) (vs2 : BitVec 4) (m : BitVec 5)
  /-- VMAXU: Vector unsigned maximum. (R400) -/
  | vmaxu (t : Nat) (e : Nat) (vd : BitVec 4) (vs1 : BitVec 4) (vs2 : BitVec 4) (m : BitVec 5)
  /-- VSEL: Selects lanes by a mask. (R400) -/
  | vsel (t : Nat) (e : Nat) (vd : BitVec 4) (vs1 : BitVec 4) (vs2 : BitVec 4) (m : BitVec 5)
  /-- VFADD: Vector F32 add. (R398) -/
  | vfadd (t : Nat) (e : Nat) (vd : BitVec 4) (vs1 : BitVec 4) (vs2 : BitVec 4) (m : BitVec 5)
  /-- VFSUB: Vector F32 subtract. (R398) -/
  | vfsub (t : Nat) (e : Nat) (vd : BitVec 4) (vs1 : BitVec 4) (vs2 : BitVec 4) (m : BitVec 5)
  /-- VFMUL: Vector F32 multiply. (R398) -/
  | vfmul (t : Nat) (e : Nat) (vd : BitVec 4) (vs1 : BitVec 4) (vs2 : BitVec 4) (m : BitVec 5)
  /-- VFMA: Vector F32 multiply-add. (R398) -/
  | vfma (t : Nat) (e : Nat) (vd : BitVec 4) (vs1 : BitVec 4) (vs2 : BitVec 4) (m : BitVec 5)
  /-- VFDIV: Vector F32 divide. (R398) -/
  | vfdiv (t : Nat) (e : Nat) (vd : BitVec 4) (vs1 : BitVec 4) (vs2 : BitVec 4) (m : BitVec 5)
  /-- VFSQRT: Vector F32 square root. (R398) -/
  | vfsqrt (t : Nat) (e : Nat) (vd : BitVec 4) (vs1 : BitVec 4) (m : BitVec 5)
  /-- VFMIN: Vector F32 minimum. (R398) -/
  | vfmin (t : Nat) (e : Nat) (vd : BitVec 4) (vs1 : BitVec 4) (vs2 : BitVec 4) (m : BitVec 5)
  /-- VFMAX: Vector F32 maximum. (R398) -/
  | vfmax (t : Nat) (e : Nat) (vd : BitVec 4) (vs1 : BitVec 4) (vs2 : BitVec 4) (m : BitVec 5)
  /-- VFFROMI: Vector integer to F32. (R398) -/
  | vffromi (t : Nat) (e : Nat) (vd : BitVec 4) (vs1 : BitVec 4) (m : BitVec 5)
  /-- VFTOI: Vector F32 to integer. (R398) -/
  | vftoi (t : Nat) (e : Nat) (vd : BitVec 4) (vs1 : BitVec 4) (m : BitVec 5)
  /-- VFSCT: Vector sine and cosine. (R398) -/
  | vfsct (t : Nat) (e : Nat) (vd : BitVec 4) (vs1 : BitVec 4) (m : BitVec 5)
  /-- VLD: Vector load of a 64-byte block. (R401) -/
  | vld (t : Nat) (e : Nat) (vd : BitVec 4) (base : BitVec 5) (imm : BitVec 9)
  /-- VST: Vector store of a 64-byte block. (R401) -/
  | vst (t : Nat) (e : Nat) (vd : BitVec 4) (base : BitVec 5) (imm : BitVec 9)
  /-- VLDS: Strided vector load. (R401) -/
  | vlds (t : Nat) (e : Nat) (vd : BitVec 4) (base : BitVec 5) (aux : BitVec 5) (imm : BitVec 9)
  /-- VSTS: Strided vector store. (R401) -/
  | vsts (t : Nat) (e : Nat) (vd : BitVec 4) (base : BitVec 5) (aux : BitVec 5) (imm : BitVec 9)
  /-- VGATH: Gathers lanes by vector offsets. (R401) -/
  | vgath (t : Nat) (e : Nat) (vd : BitVec 4) (base : BitVec 5) (aux : BitVec 4) (imm : BitVec 9)
  /-- VCEQ: Vector compare equal to a lane mask. (R400) -/
  | vceq (t : Nat) (e : Nat) (g : BitVec 5) (vs1 : BitVec 4) (vs2 : BitVec 4)
  /-- VCLT: Vector signed compare to a lane mask. (R400) -/
  | vclt (t : Nat) (e : Nat) (g : BitVec 5) (vs1 : BitVec 4) (vs2 : BitVec 4)
  /-- VCLTU: Vector unsigned compare to a lane mask. (R400) -/
  | vcltu (t : Nat) (e : Nat) (g : BitVec 5) (vs1 : BitVec 4) (vs2 : BitVec 4)
  /-- VFCLT: Vector F32 compare less to a lane mask. (R400) -/
  | vfclt (t : Nat) (e : Nat) (g : BitVec 5) (vs1 : BitVec 4) (vs2 : BitVec 4)
  /-- VFCEQ: Vector F32 compare equal to a lane mask. (R400) -/
  | vfceq (t : Nat) (e : Nat) (g : BitVec 5) (vs1 : BitVec 4) (vs2 : BitVec 4)
  /-- VBCAST: Broadcasts a register to all lanes. (R400) -/
  | vbcast (t : Nat) (e : Nat) (vd : BitVec 4) (g : BitVec 5)
  /-- VINS: Inserts a register into a lane. (R400) -/
  | vins (t : Nat) (e : Nat) (vd : BitVec 4) (g : BitVec 5) (lane : BitVec 5)
  /-- VEXT: Extracts a lane to a register. (R400) -/
  | vext (t : Nat) (e : Nat) (g : BitVec 5) (vs1 : BitVec 4) (lane : BitVec 5)
  /-- VREDADD: Sum reduction. (R400) -/
  | vredadd (t : Nat) (e : Nat) (g : BitVec 5) (vs1 : BitVec 4)
  /-- VREDMIN: Signed minimum reduction. (R400) -/
  | vredmin (t : Nat) (e : Nat) (g : BitVec 5) (vs1 : BitVec 4)
  /-- VREDMAX: Signed maximum reduction. (R400) -/
  | vredmax (t : Nat) (e : Nat) (g : BitVec 5) (vs1 : BitVec 4)
  /-- VREDMINU: Unsigned minimum reduction. (R400) -/
  | vredminu (t : Nat) (e : Nat) (g : BitVec 5) (vs1 : BitVec 4)
  /-- VREDMAXU: Unsigned maximum reduction. (R400) -/
  | vredmaxu (t : Nat) (e : Nat) (g : BitVec 5) (vs1 : BitVec 4)
  /-- QPUT: Queues an action as SHQ_CMD OP 1 in one primitive. (R402) -/
  | qput (t : Nat) (e : Nat) (ga : BitVec 5) (gb : BitVec 5)
  /-- QWD: Withdraws an entry as SHQ_CMD OP 2. (R402) -/
  | qwd (t : Nat) (e : Nat) (ga : BitVec 5)
  /-- QREP: Replaces an entry as SHQ_CMD OP 3. (R402) -/
  | qrep (t : Nat) (e : Nat) (ga : BitVec 5) (gb : BitVec 5)
  /-- LATR: Requests a Latch as LAT_CMD OP 1. (R402) -/
  | latr (t : Nat) (e : Nat) (ga : BitVec 5) (gb : BitVec 5)
  /-- LATC: Cancels a Latch slot as LAT_CMD OP 2. (R402) -/
  | latc (t : Nat) (e : Nat) (ga : BitVec 5)
  /-- FDONE: Writes FRM_DONE and waits. (R402) -/
  | fdone (t : Nat) (e : Nat)
  /-- WAIT: Clock-gates until an enabled source is pending. (R407) -/
  | wait (t : Nat) (e : Nat)
  /-- IEN: Sets IE. (R406) -/
  | ien (t : Nat) (e : Nat)
  /-- IDIS: Clears IE. (R406) -/
  | idis (t : Nat) (e : Nat)
  /-- IRET: Returns from a handler to EPC. (R406) -/
  | iret (t : Nat) (e : Nat)
  /-- SYNC: Waits until every earlier access has completed. (R395) -/
  | sync (t : Nat) (e : Nat)
  /-- BRK: Breakpoint; a fault outside a debug halt. (R408) -/
  | brk (t : Nat) (e : Nat)
  /-- INTERRUPT_ENTRY: A pending enabled interrupt is taken at an instruction boundary. (R406) -/
  | interruptEntry (t : Nat) (e : Nat)
  /-- ENG_TIMER_MATCH: FT reaches ENG_TMR and sets TIMER. (R405) -/
  | engTimerMatch (t : Nat) (e : Nat)
  /-- ENG_DOORBELL: A write of ENG_DOORBELL raises DOORBELL in named engines. (R405) -/
  | engDoorbell (t : Nat) (m : Nat) (mask : Nat)
  /-- DICT_RESP_WRITE: DictEngine writes DICT_RESP and the server returns the response. (R413) -/
  | dictRespWrite (t : Nat) (m : Nat) (w : Word)
  /-- DICT_READY: DICT_CTRL.READY starts delivery of journalled restores. (R414) -/
  | dictReady (t : Nat) (m : Nat)
  /-- FIRMWARE_OBJECT_TIMEOUT: 1,000 ms without a firmware answer refuses the request with 0x0601. (R413) -/
  | firmwareObjectTimeout (t : Nat)
  /-- DEADBOLT_RELEASE: DeadboltRelease resets a cluster and clears its freezes. (R424) -/
  | deadboltRelease (t : Nat) (r : Req) (v : Nat)
  /-- CLUSTER_HALT: ClusterHalt halts a cluster for debugging. (R426) -/
  | clusterHalt (t : Nat) (r : Req) (v : Nat)
  /-- CLUSTER_RESUME: ClusterResume resumes a halted cluster. (R426) -/
  | clusterResume (t : Nat) (r : Req) (v : Nat)
  /-- KEY_PROGRAM: KeyProgram programs an empty OEM key slot. (R427) -/
  | keyProgram (t : Nat) (r : Req) (data : List Byte)
  /-- KEY_REVOKE: KeyRevoke revokes a key under a signature from another slot. (R429) -/
  | keyRevoke (t : Nat) (r : Req) (data : List Byte)
  /-- SESSION_CHALLENGE: A read of SessionChallenge returns fresh random bytes for the client. (R431) -/
  | sessionChallenge (t : Nat) (r : Req) (n : Nat)
  /-- SESSION_RESPONSE: SessionResponse opens a session on a matching HMAC. (R431) -/
  | sessionResponse (t : Nat) (r : Req) (data : List Byte)
  /-- SESSION_END: SessionEnd ends a session. (R432) -/
  | sessionEnd (t : Nat) (r : Req) (v : Nat)
  /-- SESSION_IDLE_TIMEOUT: A session idle for SessionIdleTimeout ends. (R432) -/
  | sessionIdleTimeout (t : Nat) (token : Nat)
  /-- SESSION_LIFETIME_EXPIRE: A session older than SessionLifetime ends. (R432) -/
  | sessionLifetimeExpire (t : Nat) (token : Nat)
  /-- SESSION_SECRET_WRITE: SessionSecret sets a level's secret. (R430) -/
  | sessionSecretWrite (t : Nat) (r : Req) (level : Nat) (data : List Byte)
  /-- WINDOW_EXTRA_WRITE: A write of WindowExtra or WindowExtraCount, effective at the next start. (R419) -/
  | windowExtraWrite (t : Nat) (r : Req) (sub : Nat) (off : Nat) (data : List Byte)
  /-- FEED_CLASS_CHANGE: A feed changes class. (R439) -/
  | feedClassChange (t : Nat) (feed : Nat) (mv : Nat) (ma10 : Nat)
  /-- FEED_OVERLOAD: A feed above 60 A for 10 s sets FEED_OVERLOAD. (R439) -/
  | feedOverload (t : Nat) (feed : Nat) (ma10 : Nat)
  /-- POWER_FAIL: VIN below 7.5 V for 50 µs declares power failure. (R440) -/
  | powerFail (t : Nat) (mv : Nat)
  /-- HOLDUP_DEADLINE: 17.0 ms after power failure no new page program may start. (R440) -/
  | holdupDeadline (t : Nat)
  /-- HOLDUP_END: The hold-up ends and the package enters Off. (R440) -/
  | holdupEnd (t : Nat)
  /-- POWER_FAIL_END: VIN above 8.0 V for 1 ms ends the power failure. (R441) -/
  | powerFailEnd (t : Nat)
  /-- HOLDUP_MEASURE: Every 24 h of operating time the hold-up capacitance is measured. (R442) -/
  | holdupMeasure (t : Nat) (cap : Nat)
  /-- CLUSTER_POWER_REQUEST: ClusterPowerRequest powers clusters up or down. (R444) -/
  | clusterPowerRequest (t : Nat) (r : Req) (off : Nat) (data : List Byte)
  /-- FABRIC_READY: A fabric domain is on and ready. (R444) -/
  | fabricReady (t : Nat) (region : Nat)
  /-- CLUSTER_POWER_UP_DONE: A cluster domain is on with memories cleared. (R444) -/
  | clusterPowerUpDone (t : Nat) (c : Nat)
  /-- CLUSTER_CODE_LOADED: The boot controller loads a new cluster's instruction store and releases it. (R444) -/
  | clusterCodeLoaded (t : Nat) (c : Nat)
  /-- POWER_REQUEST_PARKED: PowerStateRequest 1 asks for Parked. (R445) -/
  | powerRequestParked (t : Nat) (r : Req)
  /-- POWER_REQUEST_STANDBY: PowerStateRequest 2 asks for Standby. (R445) -/
  | powerRequestStandby (t : Nat) (r : Req)
  /-- POWER_REQUEST_READY: PowerStateRequest 3 asks for Ready. (R445) -/
  | powerRequestReady (t : Nat) (r : Req)
  /-- POWER_REQUEST_FIELD: PowerStateRequest 4 asks for Field. (R445) -/
  | powerRequestField (t : Nat) (r : Req)
  /-- STANDBY_ENTERED: A transition into Standby completes. (R445) -/
  | standbyEntered (t : Nat)
  /-- PARKED_ENTERED: A transition into Parked completes after the porch mirror. (R445) -/
  | parkedEntered (k : Nat)
  /-- WAKE_SOURCE: An enabled wake source starts Parked to Standby. (R445) -/
  | wakeSource (k : Nat) (src : Nat)
  /-- HOST_WAKE_LINE: WAKE held for 1 ms sets WAKE_SRC bit 0. (R509) -/
  | hostWakeLine (k : Nat)
  /-- PARKED_WAKE_DONE: Standby is reached after a wake. (R445) -/
  | parkedWakeDone (k : Nat)
  /-- DIE_TEMP_HIGH: An engine die sensor at 140 °C halves its engine clock from the next frame. (R26) -/
  | dieTempHigh (t : Nat) (die : Nat) (temp : Int)
  /-- DIE_TEMP_STOP: At 155 °C the die stops its engine clock. (R447) -/
  | dieTempStop (t : Nat) (die : Nat) (temp : Int)
  /-- DIE_TEMP_RECOVER: Sensors below threshold for 1 s restore the clock. (R447) -/
  | dieTempRecover (t : Nat) (die : Nat) (temp : Int)
  /-- DIE_SENSOR_TIMEOUT: A sensor unread for 10 ms counts as 155 °C. (R458) -/
  | dieSensorTimeout (t : Nat) (die : Nat)
  /-- MEMORY_SCRUB: Every 10 s memory is scrubbed for ECC errors. (R452) -/
  | memoryScrub (t : Nat) (uncorrectable : Bool)
  /-- PAIRING_FRAME_RX: A partner's pairing frame is received and digests compared. (R454) -/
  | pairingFrameRx (t : Nat) (port : Nat) (sender : Nat) (stream : Nat) (data : List Byte)
  /-- PAIR_PARTNER_LOST: Three intervals without a pairing frame declare the partner lost. (R455) -/
  | pairPartnerLost (t : Nat)
  /-- FIRMWARE_EVENT: A write of EVT_CODE records a firmware event. (R472) -/
  | firmwareEvent (t : Nat) (m : Nat) (code : Nat)
  /-- EVENT_PAGE_WRITE: Seven staged records or 1 s start an event-ring page program. (R473) -/
  | eventPageWrite (t : Nat)
  /-- NOR_PAGE_PROGRAM_DONE: A page program with its commit word completes. (R466) -/
  | norPageProgramDone (t : Nat)
  /-- NOR_BLOCK_ERASE_DONE: A 64 KiB block erase completes. (R464) -/
  | norBlockEraseDone (t : Nat)
  /-- HISTOGRAM_FEED: A write of HIST_VAL feeds a firmware histogram. (R476) -/
  | histogramFeed (t : Nat) (m : Nat) (v : Int)
  /-- HISTOGRAM_SNAPSHOT: At HistSnapshotPeriod changed histograms are written. (R477) -/
  | histogramSnapshot (t : Nat)
  /-- HISTOGRAM_SAFETY_WRITE: Within 1 s of a change a histogram of set 0 or 1 is written. (R477) -/
  | histogramSafetyWrite (t : Nat)
  /-- RECORDER_SCAN_DONE: The start-up scan of flash areas completes. (R468) -/
  | recorderScanDone (t : Nat)
  /-- RECORDER_CLEAR: RecorderClear clears a recorder set. (R478) -/
  | recorderClear (t : Nat) (r : Req) (v : Nat)
  /-- PERIOD_CLOSE: The wall clock reaching PeriodEnd closes the billing period. (R482) -/
  | periodClose (t : Nat)
  /-- METER_CHECKPOINT: Every MeterCheckpoint the current period is checkpointed. (R484) -/
  | meterCheckpoint (t : Nat)
  /-- PERIOD_END_WRITE: A write of PeriodEnd sets the end of the current period. (R482) -/
  | periodEndWrite (t : Nat) (r : Req) (v : Nat)
  /-- ACCOUNTS_CLEAR: AccountsClear zeroes an account or all accounts of the current period. (R486) -/
  | accountsClear (t : Nat) (r : Req) (v : Nat)
  /-- COLD_START: A feed reaching 9.0 V with the porch unpowered starts a cold start. (R492) -/
  | coldStart (k : Nat) (feed : Nat) (mv : Nat) (ma10 : Nat)
  /-- PACKAGE_RESET: PackageReset 1 resets the package. (R502) -/
  | packageReset (t : Nat) (r : Req)
  /-- PACKAGE_RESET_CLEAR_LATCH: PackageReset 2 resets and clears the Doorstop latch. (R496) -/
  | packageResetClearLatch (t : Nat) (r : Req)
  /-- RESET_BUTTON: The host die's reset button starts a package reset. (R492) -/
  | resetButton (t : Nat)
  /-- START_PORCH_DONE: The porch step of a cold start completes. (R493) -/
  | startPorchDone (k : Nat) (mirror : Bool)
  /-- START_POWER_DIE_RESET_DONE: The power dies are out of reset. (R493) -/
  | startPowerDieResetDone (k : Nat)
  /-- START_CONFIG_LOADED: The configuration load completes and the start attempt opens. (R494) -/
  | startConfigLoaded (k : Nat) (dieOk : Bool) (halfOk : Bool)
  /-- START_IMAGE_CHECKED: The selected image is accepted or refused and the next slot tried. (R500) -/
  | startImageChecked (k : Nat)
  /-- START_ENGINES_LOADED: Clusters are loaded and released at EntryOffset. (R493) -/
  | startEnginesLoaded (k : Nat)
  /-- START_READY: Binding completes and the package enters Ready. (R493) -/
  | startReady (t : Nat)
  /-- START_IN_SERVICE: START_CMD OP 1 declares the start in service. (R494) -/
  | startInService (t : Nat) (k : Nat) (m : Nat)
  /-- START_FAILED: START_CMD OP 2 fails the start. (R495) -/
  | startFailed (t : Nat) (k : Nat) (m : Nat)
  /-- START_ATTEMPT_TIMEOUT: 30 s without a declaration fail the start. (R495) -/
  | startAttemptTimeout (k : Nat)
  /-- UPDATE_BEGIN: UpdateCommand begin empties and erases the target slot. (R501) -/
  | updateBegin (t : Nat) (r : Req) (slot : Nat)
  /-- UPDATE_ERASE_DONE: The slot erase completes. (R501) -/
  | updateEraseDone (t : Nat)
  /-- UPDATE_DATA: An UpdateData write stores image bytes. (R501) -/
  | updateData (t : Nat) (r : Req) (off : Nat) (data : List Byte)
  /-- UPDATE_VERIFY: UpdateCommand verify checks the slot and makes it PENDING. (R501) -/
  | updateVerify (t : Nat) (r : Req)
  /-- UPDATE_ABANDON: UpdateCommand abandon leaves the slot EMPTY. (R501) -/
  | updateAbandon (t : Nat) (r : Req)
  /-- DIO_READBACK_CHANGE: The 10 µs readback of a class D output first shows the new level, giving the measured instant of the actuation. (R181) -/
  | dioReadbackChange (t : Nat) (n : Nat) (r : List Nat)
  /-- LV_CARRIER_EDGE: The period count reaches a pair's TIME, or pair 1's interval starts at PHASE1, and the carrier changes state. (R226) -/
  | lvCarrierEdge (t : Nat) (n : Nat) (p : Nat)
  /-- LV_OUTPUT_EDGE: A carrier edge, delayed by RISE or FALL, reaches output A or B, or is suppressed. (R227) -/
  | lvOutputEdge (t : Nat) (n : Nat) (k : Nat)
  /-- LV_SYNC_RESTART: LV_SYNC_PHASE after a synchronising pulse, the module ends its current period and starts a new one. (R232) -/
  | lvSyncRestart (t : Nat) (n : Nat)
  /-- LS_PULSE_OFF: A pulsed load switch turns off t_on after the start of its 5 ms period. (R269) -/
  | lsPulseOff (t : Nat) (n : Nat)
  /-- IB_RX_OBJECT_RELEASE: A receive object held for another package is released after 60 s of silence from it. (R334) -/
  | ibRxObjectRelease (t : Nat) (port : Nat) (obj : Nat)
  /-- HOST_LINK_CHANGE: A host Ethernet PHY link goes down or up, updating HostLinkState and recording 0x7015. (R366) -/
  | hostLinkChange (t : Nat) (port : Nat) (up : Bool)
  /-- DEVICE_AGENT_VIOLATION: A pane cache port, device agent or the host message agent violates its windows and is frozen by Deadbolt. (R423) -/
  | deviceAgentViolation (t : Nat) (m : Nat) (addr : Nat) (write : Bool)
  /-- DEVICE_HISTOGRAM_SAMPLE: Every 1 s the device feeds die temperatures, feed voltages and FtUncertainty into histograms 20 to 25 and 27. (R476) -/
  | deviceHistogramSample (t : Nat)
  /-- PORCH_PAIR_REFRESH: While the fabric clock runs, at each porch tick edge the FT unit refreshes the stored FT, tick count and FT_UNC in the porch. (R521) -/
  | porchPairRefresh (k : Nat)
  /-- TEMPERATURE_SENSOR_IGNORED: A die temperature reading outside −50 °C to 175 °C makes the sensor ignored and records 0x9021. (R458) -/
  | temperatureSensorIgnored (t : Nat) (die : Nat) (temp : Int)
  /-- NODE_LEAD_COMMIT: A class N queue entry becomes committed at FireFt − NodeLead when that falls before the frame-start commit. (R175) -/
  | nodeLeadCommit (t : Nat) (e : Nat) (handle : Nat)
  deriving DecidableEq, Repr

end Sys2Proof
end

