-- ==== Sys2Proof/Decode.lean ====
section
/-! DEFINITION. Words of the opcode table. The table gives no row any bits, since the block takes its commands at its registers, buses
and pins, so no word spells a command. (The words that engines run are read by `Sys2Proof.Machine.State.instr`, in the meanings of the
instruction rows.) -/
namespace Sys2Proof

/-- The command that a word of the table spells: none, for every word. -/
def decodeTableWord (_nbits _w : Nat) : Option Instr := none

end Sys2Proof
end

