-- ==== Sys2Proof/Config.lean ====
section
/-! DEFINITION. What the spec leaves open: constants without a body, so that no proof can see a value. A claim that mentions
one holds whatever it is. Each is named in the assumption log. -/
namespace Sys2Proof.Config

/-- A fresh value where the spec gives a result no value; the argument is the counter `State.dev.fresh`. -/
opaque freeWord : Nat → Word

/-- Random bytes of the security block (R431), one byte per counter value. -/
opaque randomByte : Nat → Byte

/-- The payload of a NaN that an F32 operation delivers; the spec says only that the result is not a number. -/
opaque nanPayload : Nat → BitVec 22

/-- Bytes of memory areas whose layout the spec does not give: the pane directory, cache lines and tags, recorder staging and the
ledger's per-source state (R154, R157, R190, R394); the arguments are the counter and the address. -/
opaque deviceByte : Nat → Nat → BitVec 8

/-- A page program that power cuts short (R467), by the model's counter: whether the commit word had begun; what becomes of byte `i` of
the operation under way, 0 completed, 1 never reached, 2 in progress or interrupted; and the bits of such a byte that margin reads 1. -/
opaque tornCommit : Nat → Bool
opaque tornClass : Nat → Nat → Nat
opaque tornMargin : Nat → Nat → BitVec 8

/-- The number of a cause that an event carries where no rule numbers its causes; the arguments are the event's code and the place of
the cause in the rule's own list. -/
opaque cause : Nat → Nat → Nat

/-- The source code that the descriptor of a fixed histogram reads back (R476 names no codes). -/
opaque histSource : Nat → BitVec 16

/-- The accuracy, variance and identity of the clock that the device announces by IEEE 1588 (R57 gives none). -/
opaque clockAccuracy : Nat
opaque clockVariance : Nat
opaque clockIdentity : Nat

/-- The time since the previous accepted sample, in ns, for the first sample of all (R49 gives none). -/
opaque firstDt : Nat → Nat

/-- Measured quantities that no command carries: over the span of a hold interval (R211), by counter and channel, the time the drive was
on in ppm, the mean feed in mV and the mean current in mA. -/
opaque holdDuty : Nat → Nat → Nat
opaque holdFeed : Nat → Nat → Nat
opaque holdMean : Nat → Nat → Nat

/-- A channel's switch and sense resistance ρ_ch in mΩ, stored at manufacture (R211). -/
opaque channelOhms : Nat → Nat

/-- What a read of a write-only register gives (no rule states it). -/
opaque woRead : Nat → Word

/-- Whether the F32 multiply-add rounds once (fused) or twice (R398 does not say). -/
opaque fmaFused : Nat → Bool

/-- The error of FSCT and FANG within the stated bound, as a count of units in the last place added to the rounded result;
the use clamps it to the bound of R398. -/
opaque trigError : Nat → Nat → Int

/-- A shift by 32 or more (no rule states the result): 0 left, 1 right logical, 2 right arithmetic; the operand; the amount. -/
opaque wideShift : Nat → Word → Word → Word

/-- Whether signed quotients round down, and not toward zero (R398 does not say); MOD follows. -/
opaque quoFloors : Bool

/-- The signed quotient of the most negative number by −1, which lies outside the format (no rule states it). -/
opaque quoOver : Word

/-- FTOI of an operand that is not a number (no rule states it). -/
opaque nanToInt : Word → Word

/-- FSCT and FANG of operands that have no angle: both zero, infinite, or not a number (no rule states it). -/
opaque noAngle : Word → Word → Word

/-- Which of several lanes that one VSTS stores to one address prevails (no rule states it), by counter and address. -/
opaque laneWinner : Nat → Nat → Nat

/-- FMIN and FMAX with an operand that is not a number (no rule states the result). -/
opaque minMaxNan : Nat → Word → Word → Word

/-- The gain of a hardware loop, 2^−32 mHz or µchip/s per unit of its discriminator: R84 gives the loops' orders, discriminators and
bandwidths, and no loop constants. Arguments: the loop, its bandwidth code, the length of the integration in ms. -/
opaque loopGain : Nat → Nat → Nat → Int

/-- The discriminator of the FLL from two prompt sums, the earlier first (R84 names none). -/
opaque freqDisc : Int × Int → Int × Int → Int

/-- FREQ_LOCK and SEC_SYNC of a channel after an integration (no rule states their conditions), by counter. -/
opaque freqLock : Nat → Bool
opaque secSync : Nat → Bool

/-- Whether a leap second is pending in a round: R53 gives the flag, and no rule says what sets it. -/
opaque leapPending : Nat → Bool

/-- Host FT while the time lane does not align it (R56), by counter. -/
opaque hostClock : Nat → Nat

/-- The set of the pane cache that a line goes to: no rule gives it (R156). Arguments: pane x and y, layer, row, column over 64. -/
opaque cacheSet : Int → Int → Nat → Nat → Nat → Nat

/-- Serial number, hardware issue, day of manufacture, set at manufacture (R382). -/
opaque serialNumber : Nat
opaque hardwareIssue : Nat
opaque manufactureDay : Nat

/-- The level-3 secret and the vendor's public keys, set at manufacture (R427, R430). -/
opaque vendorSecret : List Byte
opaque vendorKey : Nat → List Byte

end Sys2Proof.Config
end

