-- ==== Sys2Proof/Machine/Map.lean ====
section
/-! DEFINITION. Sparse maps in one canonical form: a list of (key, value) pairs with strictly rising keys and no pair
equal to what an unlisted key reads as. Registers, dictionary values, memories and numbered units are kept this way,
so that equal contents are equal data. -/
namespace Sys2Proof.Machine

/-- A sparse map from natural numbers. -/
abbrev SMap (α : Type) := List (Nat × α)

/-- The value at a key; an unlisted key reads as `f` says. -/
def SMap.get {α : Type} (f : Nat → α) : SMap α → Nat → α
  | [], k => f k
  | (a, v) :: m, k => if k = a then v else SMap.get f m k

/-- Insertion that keeps the keys rising. -/
def SMap.ins {α : Type} : SMap α → Nat → α → SMap α
  | [], k, v => [(k, v)]
  | (a, w) :: m, k, v =>
    if k < a then (k, v) :: (a, w) :: m
    else if k = a then (k, v) :: m
    else (a, w) :: SMap.ins m k v

/-- Removal of a key. -/
def SMap.del {α : Type} : SMap α → Nat → SMap α
  | [], _ => []
  | (a, w) :: m, k => if k = a then SMap.del m k else (a, w) :: SMap.del m k

/-- A write: writing what an unlisted key reads as removes the entry. -/
def SMap.set {α : Type} [DecidableEq α] (f : Nat → α) (m : SMap α) (k : Nat) (v : α) : SMap α :=
  if v = f k then m.del k else m.ins k v

/-- The canonical form. -/
abbrev SMap.wf {α : Type} [DecidableEq α] (f : Nat → α) (m : SMap α) : Prop :=
  m.Pairwise (fun a b => a.1 < b.1) ∧ ∀ p ∈ m, p.2 ≠ f p.1

/-- Keeps the entries whose key satisfies `q`. -/
def SMap.keep {α : Type} (q : Nat → Bool) (m : SMap α) : SMap α := m.filter (fun p => q p.1)

/-- Writes the values of a list at successive keys, lowest first. -/
def SMap.setList {α : Type} [DecidableEq α] (f : Nat → α) (m : SMap α) (k : Nat) : List α → SMap α
  | [] => m
  | v :: vs => SMap.setList f (SMap.set f m k v) (k + 1) vs

/-- Reads `n` values at successive keys, lowest first. -/
def SMap.getList {α : Type} (f : Nat → α) (m : SMap α) (k : Nat) : Nat → List α
  | 0 => []
  | n + 1 => SMap.get f m k :: SMap.getList f m (k + 1) n

end Sys2Proof.Machine
end

