-- ==== Sys2Proof/Machine/Bits.lean ====
section
/-! DEFINITION. Bit fields, sign extension, byte order, checks (CRC-8, CRC-16, CRC-32) and clamps, in one place. -/
namespace Sys2Proof.Machine

/-- Bits hi:lo of a natural number. -/
def bitsOf (n hi lo : Nat) : Nat := (n / 2 ^ lo) % 2 ^ (hi + 1 - lo)

/-- Bit `i` of a natural number. -/
def bitOf (n i : Nat) : Bool := (n / 2 ^ i) % 2 == 1

/-- Bits hi:lo of a word, as a number. -/
def fld (w : Word) (hi lo : Nat) : Nat := bitsOf w.toNat hi lo

/-- One bit of a word. -/
def fbit (w : Word) (i : Nat) : Bool := bitOf w.toNat i

/-- `n` with bits hi:lo replaced by `v`. -/
def putBits (n hi lo v : Nat) : Nat :=
  n - bitsOf n hi lo * 2 ^ lo + (v % 2 ^ (hi + 1 - lo)) * 2 ^ lo

/-- A word with bits hi:lo replaced by `v`. -/
def putFld (w : Word) (hi lo v : Nat) : Word := wd (putBits w.toNat hi lo v)

/-- A word with one bit set or cleared. -/
def putBit (w : Word) (i : Nat) (b : Bool) : Word := putFld w i i (if b then 1 else 0)

/-- The signed value of the low `n` bits. -/
def sx (n v : Nat) : Int :=
  let u := v % 2 ^ n
  if u < 2 ^ (n - 1) then (u : Int) else (u : Int) - (2 ^ n : Nat)

/-- The signed value of a word. -/
def swd (w : Word) : Int := sx 32 w.toNat

/-- The `n`-bit two's-complement pattern of an integer. -/
def unsx (n : Nat) (i : Int) : Nat := (i % ((2 ^ n : Nat) : Int)).toNat

/-- `i` held within lo to hi. -/
def clampI (lo hi i : Int) : Int := if i < lo then lo else if hi < i then hi else i

/-- Truth as a bit. -/
def b2n (b : Bool) : Nat := if b then 1 else 0

/-- Number of one bits among the low `n`. -/
def onesBelow (v : Nat) : Nat → Nat
  | 0 => 0
  | n + 1 => onesBelow v n + b2n (bitOf v n)

/-- Lowest set bit below `n`, searched from bit `i`. -/
def lowestBit (v : Nat) : Nat → Nat → Option Nat
  | 0, _ => none
  | n + 1, i => if bitOf v i then some i else lowestBit v n (i + 1)

/-- The little-endian bytes of a number. -/
def leBytes (v : Nat) : Nat → List Byte
  | 0 => []
  | n + 1 => BitVec.ofNat 8 v :: leBytes (v / 256) n

/-- The number that little-endian bytes spell. -/
def leNat : List Byte → Nat
  | [] => 0
  | b :: bs => b.toNat + 256 * leNat bs

/-- Bytes `i` to `i + n − 1` of a list as a little-endian number; bytes past the end count as 0. -/
def leAt (bs : List Byte) (i n : Nat) : Nat := leNat ((bs.drop i).take n)

/-- Byte `i` of a list as a number; past the end 0. -/
def byteAt (bs : List Byte) (i : Nat) : Nat := (bs.getD i 0).toNat

/-- Bytes as numbers. -/
def natsOf (bs : List Byte) : List Nat := bs.map (fun b => b.toNat)

/-- One bit step of a CRC that shifts left, of width `n` with polynomial `poly`. -/
def crcStepL (n poly : Nat) (c : Nat) : Nat :=
  if bitOf c (n - 1) then ((c * 2) % 2 ^ n) ^^^ poly else (c * 2) % 2 ^ n

/-- One byte of a left-shifting CRC. -/
def crcByteL (n poly : Nat) (c : Nat) (b : Byte) : Nat :=
  let c0 := c ^^^ (b.toNat * 2 ^ (n - 8))
  (List.range 8).foldl (fun a _ => crcStepL n poly a) c0

/-- CRC-16/CCITT of R53 over bytes: polynomial 0x1021, initial value 0xFFFF. -/
def crc16 (bs : List Byte) : Nat := bs.foldl (crcByteL 16 0x1021) 0xFFFF

/-- A CRC-8 with polynomial `poly` and initial value `init`. -/
def crc8 (poly init : Nat) (bs : List Byte) : Nat := bs.foldl (crcByteL 8 poly) init

/-- One bit step of the reflected CRC-32. -/
def crc32Step (c : Nat) : Nat := if c % 2 = 1 then (c / 2) ^^^ 0xEDB88320 else c / 2

/-- CRC-32 with the IEEE 802.3 polynomial (R465). -/
def crc32 (bs : List Byte) : Nat :=
  (bs.foldl (fun c b => (List.range 8).foldl (fun a _ => crc32Step a) (c ^^^ b.toNat)) 0xFFFFFFFF)
    ^^^ 0xFFFFFFFF

/-- Division rounded to the nearest integer, halves away from zero. -/
def roundDiv (a : Int) (b : Nat) : Int :=
  if b = 0 then 0
  else if 0 ≤ a then (2 * a + b) / (2 * b) else -((2 * (-a) + b) / (2 * b))

/-- Saturating addition to a ceiling. -/
def satAdd (ceil a b : Nat) : Nat := min ceil (a + b)

/-- Integer square root by bisection on the bits, `n` bits. -/
def isqrtBits (v : Nat) : Nat → Nat → Nat
  | 0, r => r
  | n + 1, r => if (r + 2 ^ n) * (r + 2 ^ n) ≤ v then isqrtBits v n (r + 2 ^ n) else isqrtBits v n r

/-- Floor of the square root of a number below 2^256. -/
def isqrt (v : Nat) : Nat := isqrtBits v 128 0

/-- Whether a list of bytes is valid UTF-8 (R371). -/
def utf8Ok : List Byte → Nat → Nat → Bool
  | [], need, _ => need == 0
  | b :: bs, 0, _ =>
    let v := b.toNat
    if v < 0x80 then utf8Ok bs 0 0
    else if 0xC2 ≤ v && v < 0xE0 then utf8Ok bs 1 0
    else if 0xE0 ≤ v && v < 0xF0 then utf8Ok bs 2 v
    else if 0xF0 ≤ v && v < 0xF5 then utf8Ok bs 3 v
    else false
  | b :: bs, need + 1, lead =>
    let v := b.toNat
    let lo := if lead = 0xE0 then 0xA0 else if lead = 0xF0 then 0x90 else 0x80
    let hi := if lead = 0xED then 0x9F else if lead = 0xF4 then 0x8F else 0xBF
    if lo ≤ v && v ≤ hi then utf8Ok bs need 0 else false

end Sys2Proof.Machine
end

