-- ==== Sys2Proof/Machine/RegTable.lean ====
section
/-! DEFINITION. The register map: for every device register of the spec its address, its copies, its writable fields with
their permitted encodings (R7, R8), its write-one-to-clear bits and its reset value. Each block's rows follow the register
tables of the chapter that owns it (R69, R96, R114, R143, R168, R194, R220, R239, R262, R292, R312, R341, R364, R408, R414,
R435, R460, R489, R504). -/
namespace Sys2Proof.Machine

/-- A writable field of a register: its bits and the ranges of encodings it accepts; no range means every encoding. -/
structure RegField where
  hi : Nat
  lo : Nat
  legal : List (Nat × Nat)
  deriving DecidableEq, Repr

/-- Whose copy of a register an access reaches. -/
inductive Bank where
  | package | master | region
  deriving DecidableEq, Repr

/-- One row of the register map. `dims` lists (count, stride) pairs of the row's indices, widest stride
first; `half` is 1 for the low and 2 for the high word of a 64-bit register (R391). -/
structure RegRow where
  base : Nat
  dims : List (Nat × Nat)
  bank : Bank
  wo : Bool
  fields : List RegField
  w1c : Nat
  reset : Nat
  half : Nat
  deriving DecidableEq, Repr

/-- Whether an offset is one of a row's copies. -/
def inDims : Nat → List (Nat × Nat) → Bool
  | o, [] => o == 0
  | o, (c, s) :: ds => decide (o / s < c) && inDims (o % s) ds

def RegRow.hits (r : RegRow) (a : Nat) : Bool := decide (r.base ≤ a) && inDims (a - r.base) r.dims

/-- Where the model keeps a register of block IB. The manual gives ports 2 and 3 the bus addresses 0x400C_0000 to 0x400C_FFFF, which are
also block TR's; the model keeps them apart, above 0x5000_0000 (DESIGN CHOICE, assumption log). -/
def ibUp (a : Nat) : Nat := if 0x400C0000 ≤ a then a + 0x10000000 else a

namespace Reg

abbrev FT_LO : Nat := 0x40020000
abbrev FT_HI : Nat := 0x40020004
abbrev FT_CTRL : Nat := 0x40020008
abbrev FT_STATUS : Nat := 0x4002000C
abbrev FT_RATE : Nat := 0x40020010
abbrev FT_UNC : Nat := 0x40020014
abbrev FT_AGE : Nat := 0x40020018
abbrev GNSS_OFFS : Nat := 0x4002001C
abbrev GNSS_CTRL : Nat := 0x40020020
abbrev REF_OFFS : Nat := 0x40020024
abbrev PTP_OFFS : Nat := 0x40020028
abbrev STEP_THR : Nat := 0x4002002C
abbrev PORCH_LO : Nat := 0x40020030
abbrev PORCH_HI : Nat := 0x40020034
abbrev PORCH_CAL : Nat := 0x40020038
abbrev ALARM_LO (i : Nat) : Nat := 0x40020040 + 0x8 * i
abbrev ALARM_HI (i : Nat) : Nat := 0x40020044 + 0x8 * i
abbrev WAKE_SRC : Nat := 0x40020060
abbrev WAKE_EN : Nat := 0x40020064
abbrev LAT_TGT_LO : Nat := 0x40020080
abbrev LAT_TGT_HI : Nat := 0x40020084
abbrev LAT_PERIOD : Nat := 0x40020088
abbrev LAT_CMD : Nat := 0x4002008C
abbrev LAT_RESULT : Nat := 0x40020090
abbrev LAT_LAST : Nat := 0x40020094
abbrev GB_CTRL : Nat := 0x40030000
abbrev GB_STATUS : Nat := 0x40030004
abbrev GB_DUMP_BASE : Nat := 0x40030008
abbrev GB_DUMP_LEN : Nat := 0x4003000C
abbrev GB_DUMP_WR : Nat := 0x40030010
abbrev GB_DUMP_RD : Nat := 0x40030014
abbrev GB_DUMP_THR : Nat := 0x40030018
abbrev GB_CODE_ADDR : Nat := 0x4003001C
abbrev GB_CODE_DATA : Nat := 0x40030020
abbrev BURST_STATUS : Nat := 0x40030024
abbrev AH_CTRL (i : Nat) : Nat := 0x40030040 + 0x10 * i
abbrev AH_STATUS (i : Nat) : Nat := 0x40030044 + 0x10 * i
abbrev AH_CURR (i : Nat) : Nat := 0x40030048 + 0x10 * i
abbrev AH_ERR (i : Nat) : Nat := 0x4003004C + 0x10 * i
abbrev ACQ_REQ (i : Nat) : Nat := 0x40030100 + 0x4 * i
abbrev ACQ_CMD : Nat := 0x40030120
abbrev ACQ_STATUS : Nat := 0x40030124
abbrev ACQ_RES (i : Nat) : Nat := 0x40030128 + 0x4 * i
abbrev CH_CFG (i : Nat) : Nat := 0x40031000 + 0x20 * i
abbrev CH_CODE_BASE (i : Nat) : Nat := 0x40031004 + 0x20 * i
abbrev CH_SEC (i : Nat) : Nat := 0x40031008 + 0x20 * i
abbrev CH_CODE_RATE (i : Nat) : Nat := 0x4003100C + 0x20 * i
abbrev CH_CARR_RATE (i : Nat) : Nat := 0x40031010 + 0x20 * i
abbrev CH_LOOP (i : Nat) : Nat := 0x40031014 + 0x20 * i
abbrev CH_CN0 (i : Nat) : Nat := 0x40031018 + 0x20 * i
abbrev CH_STATE (i : Nat) : Nat := 0x4003101C + 0x20 * i
abbrev SPD_STATUS : Nat := 0x40040000
abbrev FI_CTRL (i : Nat) : Nat := 0x40040040 + 0x20 * i
abbrev FI_COUNT (i : Nat) : Nat := 0x40040044 + 0x20 * i
abbrev FI_LAST_LO (i : Nat) : Nat := 0x40040048 + 0x20 * i
abbrev FI_LAST_HI (i : Nat) : Nat := 0x4004004C + 0x20 * i
abbrev FI_PERIOD (i : Nat) : Nat := 0x40040050 + 0x20 * i
abbrev FI_FIFO_LO (i : Nat) : Nat := 0x40040054 + 0x20 * i
abbrev FI_FIFO_HI (i : Nat) : Nat := 0x40040058 + 0x20 * i
abbrev FI_FIFO_STAT (i : Nat) : Nat := 0x4004005C + 0x20 * i
abbrev IMU_CTRL (i : Nat) : Nat := 0x40040200 + 0x40 * i
abbrev IMU_PERIOD (i : Nat) : Nat := 0x40040204 + 0x40 * i
abbrev IMU_TIMEOUT_REG (i : Nat) : Nat := 0x40040208 + 0x40 * i
abbrev IMU_CHECK (i : Nat) : Nat := 0x4004020C + 0x40 * i
abbrev IMU_STATUS (i : Nat) : Nat := 0x40040210 + 0x40 * i
abbrev IMU_WR (i : Nat) : Nat := 0x40040214 + 0x40 * i
abbrev IMU_TX (i j : Nat) : Nat := 0x40040220 + 0x40 * i + 0x4 * j
abbrev POSE_STAGE (i : Nat) : Nat := 0x40040800 + 0x4 * i
abbrev POSE_CTRL : Nat := 0x40040900
abbrev POSE_COMMIT_REG : Nat := 0x40040904
abbrev POSE_STATUS : Nat := 0x40040908
abbrev POSE_GEN : Nat := 0x4004090C
abbrev IMU_RING (i j : Nat) : Nat := 0x40041000 + 0x1000 * i + 0x4 * j
abbrev ENG_ID : Nat := 0x40000000
abbrev ENG_CTRL : Nat := 0x40000004
abbrev ENG_STATUS : Nat := 0x40000008
abbrev ENG_CYCLE : Nat := 0x4000000C
abbrev ENG_TMR_LO : Nat := 0x40000010
abbrev ENG_TMR_HI : Nat := 0x40000014
abbrev IRQ_EN : Nat := 0x40000018
abbrev IRQ_PEND : Nat := 0x4000001C
abbrev IRQ_BASE : Nat := 0x40000020
abbrev EPC : Nat := 0x40000024
abbrev FAULT_CAUSE : Nat := 0x40000028
abbrev FAULT_ADDR : Nat := 0x4000002C
abbrev ENG_DOORBELL_REG : Nat := 0x40000030
abbrev ENG_DOORBELL_SRC : Nat := 0x40000034
abbrev ENG_RXSEL : Nat := 0x40000038
abbrev START_CMD : Nat := 0x40000040
abbrev START_STATUS : Nat := 0x40000044
abbrev OWN_ID : Nat := 0x40000800
abbrev OWN_ARG : Nat := 0x40000804
abbrev OWN_AT_LO : Nat := 0x40000808
abbrev OWN_AT_HI : Nat := 0x4000080C
abbrev OWN_CMD : Nat := 0x40000810
abbrev OWN_RESULT : Nat := 0x40000814
abbrev OWN_LOOKUP0 : Nat := 0x40000818
abbrev OWN_LOOKUP1 : Nat := 0x4000081C
abbrev OWN_STATUS : Nat := 0x40000820
abbrev FRM_CTRL : Nat := 0x40000900
abbrev FRM_STATUS : Nat := 0x40000904
abbrev FRM_START_LO : Nat := 0x40000908
abbrev FRM_START_HI : Nat := 0x4000090C
abbrev FRM_NUMBER : Nat := 0x40000910
abbrev FRM_EARLIEST_LO : Nat := 0x40000914
abbrev FRM_EARLIEST_HI : Nat := 0x40000918
abbrev FRM_DONE_REG : Nat := 0x4000091C
abbrev PF_X : Nat := 0x40000A00
abbrev PF_Y : Nat := 0x40000A04
abbrev PF_SIZE : Nat := 0x40000A08
abbrev PF_DEST : Nat := 0x40000A0C
abbrev PF_CMD : Nat := 0x40000A10
abbrev PF_RESULT : Nat := 0x40000A14
abbrev PF_DONE : Nat := 0x40000A18
abbrev PC_CTRL : Nat := 0x40000A20
abbrev PC_HITS : Nat := 0x40000A24
abbrev PC_MISSES : Nat := 0x40000A28
abbrev TGT_WR : Nat := 0x40000B00
abbrev TGT_RD : Nat := 0x40000B04
abbrev TGT_LEN : Nat := 0x40000B08
abbrev TGT_BASE : Nat := 0x40000B0C
abbrev TGT_STATUS : Nat := 0x40000B10
abbrev DICT_CTRL : Nat := 0x40000C00
abbrev DICT_REQ : Nat := 0x40000C04
abbrev DICT_LEN : Nat := 0x40000C08
abbrev DICT_OFFSET : Nat := 0x40000C0C
abbrev DICT_RESP : Nat := 0x40000C10
abbrev DICT_DATA (i : Nat) : Nat := 0x40001000 + 0x4 * i
abbrev SHQ_FT_LO : Nat := 0x40010000
abbrev SHQ_FT_HI : Nat := 0x40010004
abbrev SHQ_ARG : Nat := 0x40010008
abbrev SHQ_EPOCH : Nat := 0x4001000C
abbrev SHQ_HANDLE : Nat := 0x40010010
abbrev SHQ_CMD : Nat := 0x40010014
abbrev SHQ_RESULT : Nat := 0x40010018
abbrev SHQ_FIRE_LO : Nat := 0x40010020
abbrev SHQ_FIRE_HI : Nat := 0x40010024
abbrev SHQ_STATUS : Nat := 0x40010028
abbrev AA_WR : Nat := 0x40010100
abbrev AA_RD : Nat := 0x40010104
abbrev AA_BASE : Nat := 0x40010108
abbrev AA_STATUS : Nat := 0x4001010C
abbrev LED_CX : Nat := 0x40010200
abbrev LED_CY : Nat := 0x40010204
abbrev LED_RUN : Nat := 0x40010208
abbrev LED_EVENT : Nat := 0x4001020C
abbrev LED_CMD : Nat := 0x40010210
abbrev LED_RESULT : Nat := 0x40010214
abbrev SHQ_VIEW (i : Nat) : Nat := 0x40014000 + 0x4 * i
abbrev SOL_DIE_CTRL (i : Nat) : Nat := 0x40050000 + 0x100 * i
abbrev SOL_DIE_STATUS (i : Nat) : Nat := 0x40050004 + 0x100 * i
abbrev SOL_BOOST_V (i : Nat) : Nat := 0x40050008 + 0x100 * i
abbrev SOL_FEED_V (i : Nat) : Nat := 0x4005000C + 0x100 * i
abbrev SOL_CAP_EST (i : Nat) : Nat := 0x40050010 + 0x100 * i
abbrev SOL_FAULT_MAP (i : Nat) : Nat := 0x40050014 + 0x100 * i
abbrev SOL_THERM (i : Nat) : Nat := 0x40050018 + 0x100 * i
abbrev SOL_ALPHA (i : Nat) : Nat := 0x4005001C + 0x100 * i
abbrev SOL_OFFS_REP (i : Nat) : Nat := 0x40050020 + 0x100 * i
abbrev SOL_PROF_PK (i : Nat) : Nat := 0x40050400 + 0x20 * i
abbrev SOL_PROF_HD (i : Nat) : Nat := 0x40050404 + 0x20 * i
abbrev SOL_PROF_PWM (i : Nat) : Nat := 0x40050408 + 0x20 * i
abbrev SOL_PROF_DET (i : Nat) : Nat := 0x4005040C + 0x20 * i
abbrev SOL_PROF_RC (i : Nat) : Nat := 0x40050410 + 0x20 * i
abbrev SOL_CTRL (i : Nat) : Nat := 0x40051000 + 0x40 * i
abbrev SOL_STATUS (i : Nat) : Nat := 0x40051004 + 0x40 * i
abbrev SOL_CURR (i : Nat) : Nat := 0x40051008 + 0x40 * i
abbrev SOL_RES (i : Nat) : Nat := 0x4005100C + 0x40 * i
abbrev SOL_TEMP (i : Nat) : Nat := 0x40051010 + 0x40 * i
abbrev SOL_AGE (i : Nat) : Nat := 0x40051014 + 0x40 * i
abbrev SOL_MOPEN (i : Nat) : Nat := 0x40051018 + 0x40 * i
abbrev SOL_MCLOSE (i : Nat) : Nat := 0x4005101C + 0x40 * i
abbrev SOL_PULSES (i : Nat) : Nat := 0x40051020 + 0x40 * i
abbrev SOL_FCNT (i : Nat) : Nat := 0x40051024 + 0x40 * i
abbrev SOL_PKLIM (i : Nat) : Nat := 0x40051028 + 0x40 * i
abbrev SOL_CMD (i : Nat) : Nat := 0x4005102C + 0x40 * i
abbrev LV_CTRL (i : Nat) : Nat := 0x40060000 + 0x100 * i
abbrev LV_STATUS (i : Nat) : Nat := 0x40060004 + 0x100 * i
abbrev LV_PERIOD (i : Nat) : Nat := 0x40060008 + 0x100 * i
abbrev LV_TIME0 (i : Nat) : Nat := 0x4006000C + 0x100 * i
abbrev LV_TIME1 (i : Nat) : Nat := 0x40060010 + 0x100 * i
abbrev LV_PHASE1 (i : Nat) : Nat := 0x40060014 + 0x100 * i
abbrev LV_DLY0 (i : Nat) : Nat := 0x40060018 + 0x100 * i
abbrev LV_DLY1 (i : Nat) : Nat := 0x4006001C + 0x100 * i
abbrev LV_CMP (i j : Nat) : Nat := 0x40060020 + 0x100 * i + 0x4 * j
abbrev LV_TRIG (i : Nat) : Nat := 0x40060030 + 0x100 * i
abbrev LV_ROUTE (i : Nat) : Nat := 0x40060034 + 0x100 * i
abbrev LV_PMIN (i : Nat) : Nat := 0x40060038 + 0x100 * i
abbrev LV_PMAX (i : Nat) : Nat := 0x4006003C + 0x100 * i
abbrev LV_COMMIT_REG (i : Nat) : Nat := 0x40060040 + 0x100 * i
abbrev LV_SYNC_PHASE (i : Nat) : Nat := 0x40060044 + 0x100 * i
abbrev LV_COUNT (i : Nat) : Nat := 0x40060048 + 0x100 * i
abbrev LV_PERIODS (i : Nat) : Nat := 0x4006004C + 0x100 * i
abbrev LV_CHAIN (i : Nat) : Nat := 0x40061000 + 0x10 * i
abbrev HG_CTRL (i : Nat) : Nat := 0x40070000 + 0x8000 * i
abbrev HG_STATUS (i : Nat) : Nat := 0x40070004 + 0x8000 * i
abbrev HG_LOAD (i : Nat) : Nat := 0x40070008 + 0x8000 * i
abbrev HG_COMMIT_REG (i : Nat) : Nat := 0x4007000C + 0x8000 * i
abbrev HG_SCTRL (i j : Nat) : Nat := 0x40070100 + 0x8000 * i + 0x80 * j
abbrev HG_SROUTE (i j : Nat) : Nat := 0x40070104 + 0x8000 * i + 0x80 * j
abbrev HG_SEXP (i j : Nat) : Nat := 0x40070108 + 0x8000 * i + 0x80 * j
abbrev HG_SSTATUS (i j : Nat) : Nat := 0x4007010C + 0x8000 * i + 0x80 * j
abbrev HG_IN_SCALE (i j : Nat) : Nat := 0x40070110 + 0x8000 * i + 0x80 * j
abbrev HG_IN_OFFSET (i j : Nat) : Nat := 0x40070114 + 0x8000 * i + 0x80 * j
abbrev HG_IN_MIN (i j : Nat) : Nat := 0x40070118 + 0x8000 * i + 0x80 * j
abbrev HG_IN_MAX (i j : Nat) : Nat := 0x4007011C + 0x8000 * i + 0x80 * j
abbrev HG_U_MIN (i j : Nat) : Nat := 0x40070120 + 0x8000 * i + 0x80 * j
abbrev HG_U_MAX (i j : Nat) : Nat := 0x40070124 + 0x8000 * i + 0x80 * j
abbrev HG_U_INIT (i j : Nat) : Nat := 0x40070128 + 0x8000 * i + 0x80 * j
abbrev HG_U_SAFE (i j : Nat) : Nat := 0x4007012C + 0x8000 * i + 0x80 * j
abbrev HG_OUT_SCALE (i j : Nat) : Nat := 0x40070130 + 0x8000 * i + 0x80 * j
abbrev HG_OUT_BIAS (i j : Nat) : Nat := 0x40070134 + 0x8000 * i + 0x80 * j
abbrev HG_TARGET (i j : Nat) : Nat := 0x40070138 + 0x8000 * i + 0x80 * j
abbrev HG_V_MAX (i j : Nat) : Nat := 0x4007013C + 0x8000 * i + 0x80 * j
abbrev HG_A_MAX (i j : Nat) : Nat := 0x40070140 + 0x8000 * i + 0x80 * j
abbrev HG_J_MAX (i j : Nat) : Nat := 0x40070144 + 0x8000 * i + 0x80 * j
abbrev HG_BP (i j k : Nat) : Nat := 0x40070148 + 0x8000 * i + 0x80 * j + 0x4 * k
abbrev HG_HYS_BAND (i j : Nat) : Nat := 0x40070158 + 0x8000 * i + 0x80 * j
abbrev HG_FWIN (i j : Nat) : Nat := 0x4007015C + 0x8000 * i + 0x80 * j
abbrev HG_FWIN_TIMEOUT (i j : Nat) : Nat := 0x40070160 + 0x8000 * i + 0x80 * j
abbrev HG_SY (i j : Nat) : Nat := 0x40070164 + 0x8000 * i + 0x80 * j
abbrev HG_SR (i j : Nat) : Nat := 0x40070168 + 0x8000 * i + 0x80 * j
abbrev HG_SU (i j : Nat) : Nat := 0x4007016C + 0x8000 * i + 0x80 * j
abbrev HG_SCOUNT (i j : Nat) : Nat := 0x40070170 + 0x8000 * i + 0x80 * j
abbrev HG_SCNT2 (i j : Nat) : Nat := 0x40070174 + 0x8000 * i + 0x80 * j
abbrev HG_COEF (i j k l : Nat) : Nat := 0x40071000 + 0x8000 * i + 0x100 * j + 0x20 * k + 0x4 * l
abbrev HG_CEXP (i j k : Nat) : Nat := 0x4007101C + 0x8000 * i + 0x100 * j + 0x20 * k
abbrev HG_HYS (i j : Nat) : Nat := 0x40073000 + 0x8000 * i + 0x4 * j
abbrev WDG_CTRL (i : Nat) : Nat := 0x40080000 + 0x100 * i
abbrev WDG_KICK_REG (i : Nat) : Nat := 0x40080004 + 0x100 * i
abbrev WDG_STATUS (i : Nat) : Nat := 0x40080008 + 0x100 * i
abbrev FS_SOL (i : Nat) : Nat := 0x4008000C + 0x100 * i
abbrev FS_LS (i : Nat) : Nat := 0x40080010 + 0x100 * i
abbrev FS_DIO (i : Nat) : Nat := 0x40080014 + 0x100 * i
abbrev LS_SENSE (i : Nat) : Nat := 0x40080020 + 0x100 * i
abbrev LS_FEED_V (i : Nat) : Nat := 0x40080024 + 0x100 * i
abbrev LS_CTRL (i : Nat) : Nat := 0x40081000 + 0x20 * i
abbrev LS_STATUS (i : Nat) : Nat := 0x40081004 + 0x20 * i
abbrev LS_CURR (i : Nat) : Nat := 0x40081008 + 0x20 * i
abbrev LS_DIRECT (i : Nat) : Nat := 0x4008100C + 0x20 * i
abbrev LS_DUTY (i : Nat) : Nat := 0x40081010 + 0x20 * i
abbrev LS_CMD (i : Nat) : Nat := 0x40081014 + 0x20 * i
abbrev DIO_GRP_V (i : Nat) : Nat := 0x40090000 + 0x4 * i
abbrev SIN_CTRL (i : Nat) : Nat := 0x40090100 + 0x10 * i
abbrev SIN_STATUS (i : Nat) : Nat := 0x40090104 + 0x10 * i
abbrev SIN_COUNT (i : Nat) : Nat := 0x40090108 + 0x10 * i
abbrev ACL_STATUS (i : Nat) : Nat := 0x40090200 + 0x10 * i
abbrev CLOSE_STATUS : Nat := 0x40090280
abbrev DIO_CTRL (i : Nat) : Nat := 0x40091000 + 0x20 * i
abbrev DIO_STATUS (i : Nat) : Nat := 0x40091004 + 0x20 * i
abbrev DIO_DIRECT (i : Nat) : Nat := 0x40091008 + 0x20 * i
abbrev DIO_EDGE_LO (i : Nat) : Nat := 0x4009100C + 0x20 * i
abbrev DIO_EDGE_HI (i : Nat) : Nat := 0x40091010 + 0x20 * i
abbrev AI_DIE_STATUS (i : Nat) : Nat := 0x400A0000 + 0x100 * i
abbrev AI_SUP (i : Nat) : Nat := 0x400A0004 + 0x100 * i
abbrev AI_CTRL (i : Nat) : Nat := 0x400A1000 + 0x20 * i
abbrev AI_STATUS (i : Nat) : Nat := 0x400A1004 + 0x20 * i
abbrev AI_VAL (i : Nat) : Nat := 0x400A1008 + 0x20 * i
abbrev AI_TRIG (i : Nat) : Nat := 0x400A100C + 0x20 * i
abbrev AI_PERIOD (i : Nat) : Nat := 0x400A1010 + 0x20 * i
abbrev IB_CTRL (i : Nat) : Nat := ibUp (0x400B0000 + 0x8000 * i)
abbrev IB_STATUS (i : Nat) : Nat := ibUp (0x400B0004 + 0x8000 * i)
abbrev IB_ERR (i : Nat) : Nat := ibUp (0x400B0008 + 0x8000 * i)
abbrev IB_COUNT (i : Nat) : Nat := ibUp (0x400B000C + 0x8000 * i)
abbrev IB_WIN_LO (i : Nat) : Nat := ibUp (0x400B0010 + 0x8000 * i)
abbrev IB_WIN_HI (i : Nat) : Nat := ibUp (0x400B0014 + 0x8000 * i)
abbrev IB_ROUND (i : Nat) : Nat := ibUp (0x400B0018 + 0x8000 * i)
abbrev IB_TX_ID (i : Nat) : Nat := ibUp (0x400B0020 + 0x8000 * i)
abbrev IB_TX_LEN (i : Nat) : Nat := ibUp (0x400B0024 + 0x8000 * i)
abbrev IB_TX_CMD (i : Nat) : Nat := ibUp (0x400B0028 + 0x8000 * i)
abbrev IB_TX_RESULT (i : Nat) : Nat := ibUp (0x400B002C + 0x8000 * i)
abbrev IB_TX_DATA (i j : Nat) : Nat := ibUp (0x400B0040 + 0x8000 * i + 0x4 * j)
abbrev IB_RFILT (i j : Nat) : Nat := ibUp (0x400B1000 + 0x8000 * i + 0x10 * j)
abbrev IB_RMASK (i j : Nat) : Nat := ibUp (0x400B1004 + 0x8000 * i + 0x10 * j)
abbrev IB_RSTAT (i j : Nat) : Nat := ibUp (0x400B1008 + 0x8000 * i + 0x10 * j)
abbrev IB_RSTAMP (i j : Nat) : Nat := ibUp (0x400B100C + 0x8000 * i + 0x10 * j)
abbrev IB_RDATA (i j k : Nat) : Nat := ibUp (0x400B2000 + 0x8000 * i + 0x40 * j + 0x4 * k)
abbrev TR_STATUS : Nat := 0x400C0000
abbrev TR_LANES : Nat := 0x400C0004
abbrev TR_DROP (i : Nat) : Nat := 0x400C0010 + 0x4 * i
abbrev TR_TX_LEN : Nat := 0x400C0040
abbrev TR_TX_CMD : Nat := 0x400C0044
abbrev TR_TX_RESULT : Nat := 0x400C0048
abbrev PIN_WR : Nat := 0x400C0050
abbrev PIN_RD : Nat := 0x400C0054
abbrev PIN_BASE : Nat := 0x400C0058
abbrev TR_TX_DATA (i : Nat) : Nat := 0x400C0800 + 0x4 * i
abbrev SL_CTRL (i : Nat) : Nat := 0x400D0000 + 0x100 * i
abbrev SL_STATUS (i : Nat) : Nat := 0x400D0004 + 0x100 * i
abbrev SL_ERR (i : Nat) : Nat := 0x400D0008 + 0x100 * i
abbrev SL_OVF (i : Nat) : Nat := 0x400D000C + 0x100 * i
abbrev SL_LOAD (i : Nat) : Nat := 0x400D0010 + 0x100 * i
abbrev SL_TSTAT (i j : Nat) : Nat := 0x400D1000 + 0x100 * i + 0x8 * j
abbrev SL_TOFF (i j : Nat) : Nat := 0x400D1004 + 0x100 * i + 0x8 * j
abbrev DB_FROZEN (i : Nat) : Nat := 0x400E0000 + 0x4 * i
abbrev DB_FROZEN_DEV : Nat := 0x400E0080
abbrev DB_COUNT : Nat := 0x400E0084
abbrev DB_KICKBLOCK : Nat := 0x400E0088
abbrev WIN_BASE (i : Nat) : Nat := 0x400E0100 + 0x8 * i
abbrev WIN_LIM (i : Nat) : Nat := 0x400E0104 + 0x8 * i
abbrev WIN_STATUS : Nat := 0x400E0200
abbrev PWR_STATUS : Nat := 0x400F0000
abbrev PWR_FEED_A : Nat := 0x400F0004
abbrev PWR_FEED_B : Nat := 0x400F0008
abbrev PWR_DOM (i : Nat) : Nat := 0x400F000C + 0x4 * i
abbrev PWR_TEMP : Nat := 0x400F0018
abbrev PWR_HEALTH : Nat := 0x400F0020
abbrev PWR_HEALTH_FW : Nat := 0x400F0024
abbrev PWR_PAIR : Nat := 0x400F0028
abbrev REC_STATUS : Nat := 0x40100000
abbrev REC_NEXTSEQ : Nat := 0x40100004
abbrev REC_STAGED : Nat := 0x40100008
abbrev HIST_NUM : Nat := 0x40100010
abbrev HIST_VAL : Nat := 0x40100014
abbrev EVT_P (i : Nat) : Nat := 0x40100020 + 0x4 * i
abbrev EVT_CODE : Nat := 0x4010002C
abbrev NV_STATUS : Nat := 0x40100030
abbrev NV_TORN : Nat := 0x40100034
abbrev MTR_STATUS : Nat := 0x40110000
abbrev MTR_PERIOD : Nat := 0x40110004
abbrev MTR_END_LO : Nat := 0x40110008
abbrev MTR_END_HI : Nat := 0x4011000C
abbrev MTR_UNALLOC_LO (i : Nat) : Nat := 0x40110010 + 0x8 * i
abbrev MTR_UNALLOC_HI (i : Nat) : Nat := 0x40110014 + 0x8 * i

end Reg

/-- Rows of block FT. -/
def rowsFT : List RegRow := [
  ⟨0x40020000, [], .package, false, [], 0x0, 0x0, 1⟩,
  ⟨0x40020004, [], .package, false, [], 0x0, 0x0, 2⟩,
  ⟨0x40020008, [], .package, false, [⟨18, 16, []⟩, ⟨11, 8, [(0, 6)]⟩, ⟨2, 2, []⟩, ⟨1, 1, []⟩, ⟨0, 0, []⟩], 0x0, 0x70307, 0⟩,
  ⟨0x4002000C, [], .package, false, [], 0xE000, 0x300, 0⟩,
  ⟨0x40020010, [], .package, false, [], 0x0, 0x0, 0⟩,
  ⟨0x40020014, [], .package, false, [], 0x0, 0xFFFFFFFF, 0⟩,
  ⟨0x40020018, [], .package, false, [], 0x0, 0xFFFFFFFF, 0⟩,
  ⟨0x4002001C, [], .package, false, [⟨31, 0, []⟩], 0x0, 0x0, 0⟩,
  ⟨0x40020020, [], .package, false, [⟨31, 31, []⟩, ⟨15, 0, []⟩], 0x0, 0x0, 0⟩,
  ⟨0x40020024, [], .package, false, [], 0x0, 0x0, 0⟩,
  ⟨0x40020028, [], .package, false, [], 0x0, 0x0, 0⟩,
  ⟨0x4002002C, [], .package, false, [⟨31, 0, [(1000, 1000000000)]⟩], 0x0, 0xF4240, 0⟩,
  ⟨0x40020030, [], .package, false, [], 0x0, 0x0, 1⟩,
  ⟨0x40020034, [], .package, false, [], 0x0, 0x0, 2⟩,
  ⟨0x40020038, [], .package, false, [], 0x0, 0x0, 0⟩,
  ⟨0x40020040, [(4, 0x8)], .package, false, [⟨31, 0, []⟩], 0x0, 0x0, 1⟩,
  ⟨0x40020044, [(4, 0x8)], .package, false, [⟨15, 0, []⟩], 0x0, 0x0, 2⟩,
  ⟨0x40020060, [], .package, false, [], 0xFF, 0x0, 0⟩,
  ⟨0x40020064, [], .package, false, [⟨7, 0, []⟩], 0x0, 0xC1, 0⟩,
  ⟨0x40020080, [], .master, false, [⟨31, 0, []⟩], 0x0, 0x0, 1⟩,
  ⟨0x40020084, [], .master, false, [⟨31, 0, []⟩], 0x0, 0x0, 2⟩,
  ⟨0x40020088, [], .master, false, [⟨31, 0, []⟩], 0x0, 0x0, 0⟩,
  ⟨0x4002008C, [], .package, true, [⟨31, 30, []⟩, ⟨2, 0, []⟩], 0x0, 0x0, 0⟩,
  ⟨0x40020090, [], .master, false, [], 0x0, 0x0, 0⟩,
  ⟨0x40020094, [], .package, false, [], 0x0, 0x0, 0⟩]

/-- Rows of block GB. -/
def rowsGB : List RegRow := [
  ⟨0x40030000, [], .package, false, [⟨8, 8, []⟩, ⟨7, 4, []⟩, ⟨1, 1, []⟩, ⟨0, 0, []⟩], 0x0, 0xF2, 0⟩,
  ⟨0x40030004, [], .package, false, [], 0x8000, 0x0, 0⟩,
  ⟨0x40030008, [], .package, false, [⟨31, 26, []⟩, ⟨18, 5, []⟩], 0x0, 0x0, 0⟩,
  ⟨0x4003000C, [], .package, false, [⟨31, 0, [(64, 4096)]⟩], 0x0, 0x0, 0⟩,
  ⟨0x40030010, [], .package, false, [], 0x0, 0x0, 0⟩,
  ⟨0x40030014, [], .package, false, [⟨31, 0, []⟩], 0x0, 0x0, 0⟩,
  ⟨0x40030018, [], .package, false, [⟨31, 0, []⟩], 0x0, 0x0, 0⟩,
  ⟨0x4003001C, [], .package, false, [⟨17, 0, []⟩], 0x0, 0x0, 0⟩,
  ⟨0x40030020, [], .package, false, [⟨31, 0, []⟩], 0x0, 0x0, 0⟩,
  ⟨0x40030024, [], .package, false, [], 0x0, 0x0, 0⟩,
  ⟨0x40030040, [(4, 0x10)], .package, false, [⟨15, 8, []⟩, ⟨7, 7, []⟩, ⟨6, 6, []⟩, ⟨5, 4, []⟩, ⟨1, 0, [(0, 2)]⟩], 0x0, 0x70, 0⟩,
  ⟨0x40030044, [(4, 0x10)], .package, false, [], 0x0, 0x0, 0⟩,
  ⟨0x40030048, [(4, 0x10)], .package, false, [], 0x0, 0x0, 0⟩,
  ⟨0x4003004C, [(4, 0x10)], .package, false, [], 0x0, 0x0, 0⟩,
  ⟨0x40030100, [(8, 0x4)], .package, false, [⟨31, 0, []⟩], 0x0, 0x0, 0⟩,
  ⟨0x40030120, [], .package, true, [⟨31, 0, []⟩], 0x0, 0x0, 0⟩,
  ⟨0x40030124, [], .package, false, [], 0x0, 0x0, 0⟩,
  ⟨0x40030128, [(6, 0x4)], .package, false, [], 0x0, 0x0, 0⟩,
  ⟨0x40031000, [(192, 0x20)], .package, false, [⟨31, 31, []⟩, ⟨30, 30, []⟩, ⟨29, 29, []⟩, ⟨28, 28, []⟩, ⟨27, 24, []⟩, ⟨23, 20, []⟩, ⟨19, 15, [(1, 20)]⟩, ⟨14, 14, []⟩, ⟨13, 11, []⟩, ⟨10, 9, []⟩, ⟨7, 0, []⟩], 0x0, 0x20708001, 0⟩,
  ⟨0x40031004, [(192, 0x20)], .package, false, [⟨17, 0, []⟩], 0x0, 0x0, 0⟩,
  ⟨0x40031008, [(192, 0x20)], .package, false, [⟨28, 18, []⟩, ⟨17, 0, []⟩], 0x0, 0x0, 0⟩,
  ⟨0x4003100C, [(192, 0x20)], .package, false, [⟨31, 0, []⟩], 0x0, 0x0, 0⟩,
  ⟨0x40031010, [(192, 0x20)], .package, false, [⟨31, 0, []⟩], 0x0, 0x0, 0⟩,
  ⟨0x40031014, [(192, 0x20)], .package, false, [⟨10, 8, [(0, 4)]⟩, ⟨5, 4, [(0, 2)]⟩, ⟨2, 0, [(0, 4)]⟩], 0x0, 0x0, 0⟩,
  ⟨0x40031018, [(192, 0x20)], .package, false, [], 0x0, 0x0, 0⟩,
  ⟨0x4003101C, [(192, 0x20)], .package, false, [⟨31, 31, []⟩, ⟨9, 0, []⟩], 0x0, 0x0, 0⟩]

/-- Rows of block SPD. -/
def rowsSPD : List RegRow := [
  ⟨0x40040000, [], .package, false, [], 0x80FF0000, 0x0, 0⟩,
  ⟨0x40040040, [(8, 0x20)], .package, false, [⟨31, 31, []⟩, ⟨30, 29, [(0, 2)]⟩, ⟨28, 28, []⟩, ⟨27, 27, []⟩, ⟨23, 16, []⟩, ⟨15, 0, [(10, 2000)]⟩], 0x0, 0x100A07D0, 0⟩,
  ⟨0x40040044, [(8, 0x20)], .package, false, [], 0x0, 0x0, 0⟩,
  ⟨0x40040048, [(8, 0x20)], .package, false, [], 0x0, 0x0, 1⟩,
  ⟨0x4004004C, [(8, 0x20)], .package, false, [], 0x0, 0x0, 2⟩,
  ⟨0x40040050, [(8, 0x20)], .package, false, [], 0x0, 0x0, 0⟩,
  ⟨0x40040054, [(8, 0x20)], .package, false, [], 0x0, 0x0, 1⟩,
  ⟨0x40040058, [(8, 0x20)], .package, false, [], 0x0, 0x0, 2⟩,
  ⟨0x4004005C, [(8, 0x20)], .package, false, [], 0x0, 0x0, 0⟩,
  ⟨0x40040200, [(2, 0x40)], .package, false, [⟨31, 31, []⟩, ⟨30, 30, []⟩, ⟨29, 28, [(0, 2)]⟩, ⟨27, 26, []⟩, ⟨23, 16, [(4, 99)]⟩, ⟨5, 0, [(1, 60)]⟩], 0x0, 0xC130010, 0⟩,
  ⟨0x40040204, [(2, 0x40)], .package, false, [⟨31, 0, [(250, 100000)]⟩], 0x0, 0x3E8, 0⟩,
  ⟨0x40040208, [(2, 0x40)], .package, false, [⟨31, 0, [(500, 1000000)]⟩], 0x0, 0x1388, 0⟩,
  ⟨0x4004020C, [(2, 0x40)], .package, false, [⟨23, 16, []⟩, ⟨13, 8, []⟩, ⟨1, 0, [(0, 2)]⟩], 0x0, 0x0, 0⟩,
  ⟨0x40040210, [(2, 0x40)], .package, false, [], 0xC, 0x0, 0⟩,
  ⟨0x40040214, [(2, 0x40)], .package, false, [], 0x0, 0x0, 0⟩,
  ⟨0x40040220, [(2, 0x40), (8, 0x4)], .package, false, [⟨31, 0, []⟩], 0x0, 0x0, 0⟩,
  ⟨0x40040800, [(64, 0x4)], .package, false, [⟨31, 0, []⟩], 0x0, 0x0, 0⟩,
  ⟨0x40040900, [], .package, false, [⟨9, 0, []⟩], 0x0, 0x0, 0⟩,
  ⟨0x40040904, [], .package, true, [⟨0, 0, []⟩], 0x0, 0x0, 0⟩,
  ⟨0x40040908, [], .package, false, [], 0x4, 0x0, 0⟩,
  ⟨0x4004090C, [], .package, false, [], 0x0, 0x0, 0⟩,
  ⟨0x40041000, [(2, 0x1000), (640, 0x4)], .package, false, [], 0x0, 0x0, 0⟩]

/-- Rows of block ENG. -/
def rowsENG : List RegRow := [
  ⟨0x40000000, [], .master, false, [], 0x0, 0x0, 0⟩,
  ⟨0x40000004, [], .master, false, [⟨16, 16, []⟩, ⟨3, 0, []⟩], 0x0, 0x0, 0⟩,
  ⟨0x40000008, [], .master, false, [], 0xC0000001, 0x0, 0⟩,
  ⟨0x4000000C, [], .master, false, [], 0x0, 0x0, 0⟩,
  ⟨0x40000010, [], .master, false, [⟨31, 0, []⟩], 0x0, 0xFFFFFFFF, 1⟩,
  ⟨0x40000014, [], .master, false, [⟨31, 0, []⟩], 0x0, 0xFFFFFFFF, 2⟩,
  ⟨0x40000018, [], .master, false, [⟨13, 0, []⟩], 0x0, 0x0, 0⟩,
  ⟨0x4000001C, [], .master, false, [], 0x207F, 0x0, 0⟩,
  ⟨0x40000020, [], .master, false, [⟨31, 8, [(5632, 6143)]⟩], 0x0, 0x160000, 0⟩,
  ⟨0x40000024, [], .master, false, [⟨31, 0, []⟩], 0x0, 0x0, 0⟩,
  ⟨0x40000028, [], .master, false, [], 0x0, 0x0, 0⟩,
  ⟨0x4000002C, [], .master, false, [], 0x0, 0x0, 0⟩,
  ⟨0x40000030, [], .master, true, [⟨15, 0, []⟩], 0x0, 0x0, 0⟩,
  ⟨0x40000034, [], .master, false, [], 0xFFFF, 0x0, 0⟩,
  ⟨0x40000038, [], .master, false, [⟨3, 0, []⟩], 0x0, 0x0, 0⟩,
  ⟨0x40000040, [], .master, true, [⟨1, 0, []⟩], 0x0, 0x0, 0⟩,
  ⟨0x40000044, [], .master, false, [], 0x0, 0x0, 0⟩,
  ⟨0x40000800, [], .master, false, [⟨17, 0, []⟩], 0x0, 0x0, 0⟩,
  ⟨0x40000804, [], .master, false, [⟨31, 31, []⟩, ⟨23, 16, []⟩, ⟨15, 0, []⟩], 0x0, 0x0, 0⟩,
  ⟨0x40000808, [], .master, false, [⟨31, 0, []⟩], 0x0, 0x0, 1⟩,
  ⟨0x4000080C, [], .master, false, [⟨31, 0, []⟩], 0x0, 0x0, 2⟩,
  ⟨0x40000810, [], .master, true, [⟨3, 0, []⟩], 0x0, 0x0, 0⟩,
  ⟨0x40000814, [], .master, false, [], 0x0, 0x0, 0⟩,
  ⟨0x40000818, [], .master, false, [], 0x0, 0x0, 0⟩,
  ⟨0x4000081C, [], .master, false, [], 0x0, 0x0, 0⟩,
  ⟨0x40000820, [], .master, false, [], 0x8000, 0x0, 0⟩,
  ⟨0x40000900, [], .master, false, [], 0x0, 0x3, 0⟩,
  ⟨0x40000904, [], .master, false, [], 0x8001, 0x0, 0⟩,
  ⟨0x40000908, [], .master, false, [], 0x0, 0x0, 1⟩,
  ⟨0x4000090C, [], .master, false, [], 0x0, 0x0, 2⟩,
  ⟨0x40000910, [], .master, false, [], 0x0, 0x0, 0⟩,
  ⟨0x40000914, [], .master, false, [], 0x0, 0x0, 1⟩,
  ⟨0x40000918, [], .master, false, [], 0x0, 0x0, 2⟩,
  ⟨0x4000091C, [], .master, true, [⟨0, 0, []⟩], 0x0, 0x0, 0⟩,
  ⟨0x40000A00, [], .master, false, [⟨31, 0, [(0, 16777215), (4278190080, 4294967295)]⟩], 0x0, 0x0, 0⟩,
  ⟨0x40000A04, [], .master, false, [⟨31, 0, [(0, 16777215), (4278190080, 4294967295)]⟩], 0x0, 0x0, 0⟩,
  ⟨0x40000A08, [], .master, false, [⟨25, 24, []⟩, ⟨22, 16, []⟩, ⟨6, 0, []⟩], 0x0, 0x10001, 0⟩,
  ⟨0x40000A0C, [], .master, false, [⟨31, 0, []⟩], 0x0, 0x0, 0⟩,
  ⟨0x40000A10, [], .master, true, [⟨1, 0, []⟩], 0x0, 0x0, 0⟩,
  ⟨0x40000A14, [], .master, false, [], 0x0, 0x0, 0⟩,
  ⟨0x40000A18, [], .master, false, [], 0xF, 0x0, 0⟩,
  ⟨0x40000A20, [], .region, false, [⟨7, 0, []⟩], 0x0, 0xFF, 0⟩,
  ⟨0x40000A24, [], .region, false, [], 0x0, 0x0, 0⟩,
  ⟨0x40000A28, [], .region, false, [], 0x0, 0x0, 0⟩,
  ⟨0x40000B00, [], .package, false, [], 0x0, 0x0, 0⟩,
  ⟨0x40000B04, [], .package, false, [⟨31, 0, []⟩], 0x0, 0x0, 0⟩,
  ⟨0x40000B08, [], .package, false, [], 0x0, 0x0, 0⟩,
  ⟨0x40000B0C, [], .package, false, [], 0x0, 0x7E000000, 0⟩,
  ⟨0x40000B10, [], .package, false, [], 0x8000, 0x0, 0⟩,
  ⟨0x40000C00, [], .package, false, [⟨0, 0, []⟩], 0x0, 0x0, 0⟩,
  ⟨0x40000C04, [], .package, false, [], 0x0, 0x0, 0⟩,
  ⟨0x40000C08, [], .package, false, [], 0x0, 0x0, 0⟩,
  ⟨0x40000C0C, [], .package, false, [], 0x0, 0x0, 0⟩,
  ⟨0x40000C10, [], .package, true, [⟨31, 16, []⟩, ⟨10, 0, []⟩], 0x0, 0x0, 0⟩,
  ⟨0x40001000, [(256, 0x4)], .package, false, [⟨31, 0, []⟩], 0x0, 0x0, 0⟩]

/-- Rows of block SHQ. -/
def rowsSHQ : List RegRow := [
  ⟨0x40010000, [], .master, false, [⟨31, 0, []⟩], 0x0, 0x0, 1⟩,
  ⟨0x40010004, [], .master, false, [⟨31, 0, []⟩], 0x0, 0x0, 2⟩,
  ⟨0x40010008, [], .master, false, [⟨31, 16, []⟩, ⟨15, 8, []⟩, ⟨1, 0, []⟩], 0x0, 0x0, 0⟩,
  ⟨0x4001000C, [], .master, false, [⟨15, 0, []⟩], 0x0, 0x0, 0⟩,
  ⟨0x40010010, [], .master, false, [⟨15, 0, []⟩], 0x0, 0x0, 0⟩,
  ⟨0x40010014, [], .master, true, [⟨1, 0, []⟩], 0x0, 0x0, 0⟩,
  ⟨0x40010018, [], .master, false, [], 0x0, 0x0, 0⟩,
  ⟨0x40010020, [], .master, false, [], 0x0, 0x0, 1⟩,
  ⟨0x40010024, [], .master, false, [], 0x0, 0x0, 2⟩,
  ⟨0x40010028, [], .master, false, [], 0x80020000, 0x0, 0⟩,
  ⟨0x40010100, [], .master, false, [], 0x0, 0x0, 0⟩,
  ⟨0x40010104, [], .master, false, [⟨31, 0, []⟩], 0x0, 0x0, 0⟩,
  ⟨0x40010108, [], .master, false, [], 0x0, 0x0, 0⟩,
  ⟨0x4001010C, [], .master, false, [], 0x1, 0x0, 0⟩,
  ⟨0x40010200, [], .master, false, [⟨31, 0, []⟩], 0x0, 0x0, 0⟩,
  ⟨0x40010204, [], .master, false, [⟨31, 0, []⟩], 0x0, 0x0, 0⟩,
  ⟨0x40010208, [], .master, false, [⟨9, 0, []⟩], 0x0, 0x0, 0⟩,
  ⟨0x4001020C, [], .master, false, [⟨31, 0, []⟩], 0x0, 0x0, 0⟩,
  ⟨0x40010210, [], .master, true, [⟨0, 0, []⟩], 0x0, 0x0, 0⟩,
  ⟨0x40010214, [], .master, false, [], 0x0, 0x0, 0⟩,
  ⟨0x40014000, [(4096, 0x4)], .master, false, [], 0x0, 0x0, 0⟩]

/-- Rows of block SOL. -/
def rowsSOL : List RegRow := [
  ⟨0x40050000, [(2, 0x100)], .package, false, [⟨15, 8, [(48, 120)]⟩, ⟨0, 0, []⟩], 0x0, 0x6001, 0⟩,
  ⟨0x40050004, [(2, 0x100)], .package, false, [], 0x80000024, 0x0, 0⟩,
  ⟨0x40050008, [(2, 0x100)], .package, false, [], 0x0, 0x0, 0⟩,
  ⟨0x4005000C, [(2, 0x100)], .package, false, [], 0x0, 0x0, 0⟩,
  ⟨0x40050010, [(2, 0x100)], .package, false, [], 0x0, 0x0, 0⟩,
  ⟨0x40050014, [(2, 0x100)], .package, false, [], 0x0, 0x0, 0⟩,
  ⟨0x40050018, [(2, 0x100)], .package, false, [⟨31, 24, [(0, 150)]⟩, ⟨23, 16, [(0, 125)]⟩, ⟨15, 8, [(5, 100)]⟩, ⟨7, 0, [(100, 180)]⟩], 0x0, 0x3C551E9B, 0⟩,
  ⟨0x4005001C, [(2, 0x100)], .package, false, [⟨12, 0, [(3000, 4500)]⟩], 0x0, 0xF5A, 0⟩,
  ⟨0x40050020, [(2, 0x100)], .package, false, [], 0x0, 0x0, 0⟩,
  ⟨0x40050400, [(16, 0x20)], .package, false, [⟨31, 24, [(0, 200)]⟩, ⟨23, 13, [(0, 2000)]⟩, ⟨12, 0, [(500, 6000)]⟩], 0x0, 0x643E87D0, 0⟩,
  ⟨0x40050404, [(16, 0x20)], .package, false, [⟨20, 12, [(20, 500)]⟩, ⟨11, 0, [(100, 2500)]⟩], 0x0, 0x641F4, 0⟩,
  ⟨0x40050408, [(16, 0x20)], .package, false, [⟨31, 16, [(0, 0), (2000, 10000)]⟩, ⟨15, 8, [(10, 255)]⟩, ⟨7, 0, [(10, 255)]⟩], 0x0, 0x321E, 0⟩,
  ⟨0x4005040C, [(16, 0x20)], .package, false, [⟨31, 26, [(1, 63)]⟩, ⟨25, 20, [(1, 63)]⟩, ⟨15, 8, [(5, 45)]⟩, ⟨7, 0, [(5, 45)]⟩], 0x0, 0xF2800F0F, 0⟩,
  ⟨0x40050410, [(16, 0x20)], .package, false, [⟨28, 16, [(10, 5000)]⟩, ⟨11, 0, [(50, 1000)]⟩], 0x0, 0x3E800C8, 0⟩,
  ⟨0x40051000, [(64, 0x40)], .package, false, [⟨31, 31, []⟩, ⟨30, 30, []⟩, ⟨26, 24, []⟩, ⟨15, 0, []⟩], 0x0, 0x40000000, 0⟩,
  ⟨0x40051004, [(64, 0x40)], .package, false, [], 0x80000000, 0x800000, 0⟩,
  ⟨0x40051008, [(64, 0x40)], .package, false, [], 0x0, 0x0, 0⟩,
  ⟨0x4005100C, [(64, 0x40)], .package, false, [], 0x0, 0x0, 0⟩,
  ⟨0x40051010, [(64, 0x40)], .package, false, [], 0x0, 0x5AA, 0⟩,
  ⟨0x40051014, [(64, 0x40)], .package, false, [], 0x0, 0x0, 0⟩,
  ⟨0x40051018, [(64, 0x40)], .package, false, [], 0x0, 0xFFFFFFFF, 0⟩,
  ⟨0x4005101C, [(64, 0x40)], .package, false, [], 0x0, 0xFFFFFFFF, 0⟩,
  ⟨0x40051020, [(64, 0x40)], .package, false, [], 0x0, 0x0, 0⟩,
  ⟨0x40051024, [(64, 0x40)], .package, false, [], 0x0, 0x0, 0⟩,
  ⟨0x40051028, [(64, 0x40)], .package, false, [], 0x0, 0x0, 0⟩,
  ⟨0x4005102C, [(64, 0x40)], .package, true, [⟨1, 1, []⟩, ⟨0, 0, []⟩], 0x0, 0x0, 0⟩]

/-- Rows of block LV. -/
def rowsLV : List RegRow := [
  ⟨0x40060000, [(16, 0x100)], .package, false, [⟨31, 31, []⟩, ⟨30, 30, []⟩, ⟨29, 29, []⟩, ⟨28, 28, []⟩, ⟨27, 27, []⟩, ⟨26, 26, []⟩, ⟨25, 16, [(0, 1000)]⟩, ⟨6, 0, [(0, 63), (127, 127)]⟩], 0x0, 0x7F, 0⟩,
  ⟨0x40060004, [(16, 0x100)], .package, false, [], 0xC0000060, 0x0, 0⟩,
  ⟨0x40060008, [(16, 0x100)], .package, false, [⟨31, 0, []⟩], 0x0, 0x4E200, 0⟩,
  ⟨0x4006000C, [(16, 0x100)], .package, false, [⟨31, 0, []⟩], 0x0, 0x0, 0⟩,
  ⟨0x40060010, [(16, 0x100)], .package, false, [⟨31, 0, []⟩], 0x0, 0x0, 0⟩,
  ⟨0x40060014, [(16, 0x100)], .package, false, [⟨31, 0, []⟩], 0x0, 0x0, 0⟩,
  ⟨0x40060018, [(16, 0x100)], .package, false, [⟨31, 16, []⟩, ⟨15, 0, []⟩], 0x0, 0x0, 0⟩,
  ⟨0x4006001C, [(16, 0x100)], .package, false, [⟨31, 16, []⟩, ⟨15, 0, []⟩], 0x0, 0x0, 0⟩,
  ⟨0x40060020, [(16, 0x100), (4, 0x4)], .package, false, [⟨31, 0, []⟩], 0x0, 0x0, 0⟩,
  ⟨0x40060030, [(16, 0x100)], .package, false, [⟨7, 4, []⟩, ⟨3, 0, []⟩], 0x0, 0x0, 0⟩,
  ⟨0x40060034, [(16, 0x100)], .package, false, [⟨28, 24, [(0, 12), (16, 31)]⟩, ⟨20, 16, [(0, 12), (16, 31)]⟩, ⟨12, 8, [(0, 12), (16, 31)]⟩, ⟨4, 0, [(0, 12), (16, 31)]⟩], 0x0, 0x0, 0⟩,
  ⟨0x40060038, [(16, 0x100)], .package, false, [], 0x0, 0x4E200, 0⟩,
  ⟨0x4006003C, [(16, 0x100)], .package, false, [], 0x0, 0x2625A000, 0⟩,
  ⟨0x40060040, [(16, 0x100)], .package, true, [⟨0, 0, []⟩], 0x0, 0x0, 0⟩,
  ⟨0x40060044, [(16, 0x100)], .package, false, [⟨31, 0, []⟩], 0x0, 0x0, 0⟩,
  ⟨0x40060048, [(16, 0x100)], .package, false, [], 0x0, 0x0, 0⟩,
  ⟨0x4006004C, [(16, 0x100)], .package, false, [], 0x0, 0x0, 0⟩,
  ⟨0x40061000, [(2, 0x10)], .package, false, [⟨1, 1, []⟩], 0x0, 0x0, 0⟩]

/-- Rows of block HG. -/
def rowsHG : List RegRow := [
  ⟨0x40070000, [(2, 0x8000)], .package, false, [⟨0, 0, []⟩], 0x0, 0x1, 0⟩,
  ⟨0x40070004, [(2, 0x8000)], .package, false, [], 0xE0000000, 0x0, 0⟩,
  ⟨0x40070008, [(2, 0x8000)], .package, false, [], 0x0, 0x0, 0⟩,
  ⟨0x4007000C, [(2, 0x8000)], .package, true, [⟨15, 0, []⟩], 0x0, 0x0, 0⟩,
  ⟨0x40070100, [(2, 0x8000), (16, 0x80)], .package, false, [⟨31, 31, []⟩, ⟨30, 30, []⟩, ⟨29, 29, []⟩, ⟨28, 28, []⟩, ⟨27, 26, [(0, 2)]⟩, ⟨25, 21, []⟩, ⟨20, 18, []⟩, ⟨16, 0, [(20, 100000)]⟩], 0x0, 0x100003E8, 0⟩,
  ⟨0x40070104, [(2, 0x8000), (16, 0x80)], .package, false, [⟨31, 29, [(0, 5)]⟩, ⟨28, 24, []⟩, ⟨23, 20, [(0, 14)]⟩, ⟨19, 16, []⟩], 0x0, 0x0, 0⟩,
  ⟨0x40070108, [(2, 0x8000), (16, 0x80)], .package, false, [⟨13, 8, []⟩, ⟨5, 0, []⟩], 0x0, 0x0, 0⟩,
  ⟨0x4007010C, [(2, 0x8000), (16, 0x80)], .package, false, [], 0xE0000000, 0x0, 0⟩,
  ⟨0x40070110, [(2, 0x8000), (16, 0x80)], .package, false, [⟨31, 0, []⟩], 0x0, 0x3F800000, 0⟩,
  ⟨0x40070114, [(2, 0x8000), (16, 0x80)], .package, false, [⟨31, 0, []⟩], 0x0, 0x0, 0⟩,
  ⟨0x40070118, [(2, 0x8000), (16, 0x80)], .package, false, [⟨31, 0, []⟩], 0x0, 0xFF61B1E6, 0⟩,
  ⟨0x4007011C, [(2, 0x8000), (16, 0x80)], .package, false, [⟨31, 0, []⟩], 0x0, 0x7F61B1E6, 0⟩,
  ⟨0x40070120, [(2, 0x8000), (16, 0x80)], .package, false, [⟨31, 0, []⟩], 0x0, 0x0, 0⟩,
  ⟨0x40070124, [(2, 0x8000), (16, 0x80)], .package, false, [⟨31, 0, []⟩], 0x0, 0x3F800000, 0⟩,
  ⟨0x40070128, [(2, 0x8000), (16, 0x80)], .package, false, [⟨31, 0, []⟩], 0x0, 0x0, 0⟩,
  ⟨0x4007012C, [(2, 0x8000), (16, 0x80)], .package, false, [⟨31, 0, []⟩], 0x0, 0x0, 0⟩,
  ⟨0x40070130, [(2, 0x8000), (16, 0x80)], .package, false, [⟨31, 0, []⟩], 0x0, 0x3F800000, 0⟩,
  ⟨0x40070134, [(2, 0x8000), (16, 0x80)], .package, false, [⟨31, 0, []⟩], 0x0, 0x0, 0⟩,
  ⟨0x40070138, [(2, 0x8000), (16, 0x80)], .package, false, [⟨31, 0, []⟩], 0x0, 0x0, 0⟩,
  ⟨0x4007013C, [(2, 0x8000), (16, 0x80)], .package, false, [⟨31, 0, []⟩], 0x0, 0x3F800000, 0⟩,
  ⟨0x40070140, [(2, 0x8000), (16, 0x80)], .package, false, [⟨31, 0, []⟩], 0x0, 0x41200000, 0⟩,
  ⟨0x40070144, [(2, 0x8000), (16, 0x80)], .package, false, [⟨31, 0, []⟩], 0x0, 0x42C80000, 0⟩,
  ⟨0x40070148, [(2, 0x8000), (16, 0x80), (4, 0x4)], .package, false, [⟨31, 0, []⟩], 0x0, 0x7E967699, 0⟩,
  ⟨0x40070158, [(2, 0x8000), (16, 0x80)], .package, false, [⟨31, 0, []⟩], 0x0, 0x0, 0⟩,
  ⟨0x4007015C, [(2, 0x8000), (16, 0x80)], .package, false, [⟨31, 0, []⟩], 0x0, 0x0, 0⟩,
  ⟨0x40070160, [(2, 0x8000), (16, 0x80)], .package, false, [⟨31, 0, [(1000, 10000000)]⟩], 0x0, 0x2710, 0⟩,
  ⟨0x40070164, [(2, 0x8000), (16, 0x80)], .package, false, [], 0x0, 0x0, 0⟩,
  ⟨0x40070168, [(2, 0x8000), (16, 0x80)], .package, false, [], 0x0, 0x0, 0⟩,
  ⟨0x4007016C, [(2, 0x8000), (16, 0x80)], .package, false, [], 0x0, 0x0, 0⟩,
  ⟨0x40070170, [(2, 0x8000), (16, 0x80)], .package, false, [], 0x0, 0x0, 0⟩,
  ⟨0x40070174, [(2, 0x8000), (16, 0x80)], .package, false, [], 0x0, 0x0, 0⟩,
  ⟨0x40071000, [(2, 0x8000), (16, 0x100), (5, 0x20), (7, 0x4)], .package, false, [⟨23, 0, []⟩], 0x0, 0x0, 0⟩,
  ⟨0x4007101C, [(2, 0x8000), (16, 0x100), (5, 0x20)], .package, false, [⟨13, 8, []⟩, ⟨5, 0, []⟩], 0x0, 0x0, 0⟩,
  ⟨0x40073000, [(2, 0x8000), (32, 0x4)], .package, false, [], 0x0, 0x0, 0⟩]

/-- Rows of block LS. -/
def rowsLS : List RegRow := [
  ⟨0x40080000, [(2, 0x100)], .package, false, [], 0x0, 0x328000, 0⟩,
  ⟨0x40080004, [(2, 0x100)], .package, true, [⟨7, 0, []⟩], 0x0, 0x0, 0⟩,
  ⟨0x40080008, [(2, 0x100)], .package, false, [], 0x0, 0x0, 0⟩,
  ⟨0x4008000C, [(2, 0x100)], .package, false, [], 0x0, 0x0, 0⟩,
  ⟨0x40080010, [(2, 0x100)], .package, false, [], 0x0, 0x0, 0⟩,
  ⟨0x40080014, [(2, 0x100)], .package, false, [], 0x0, 0x0, 0⟩,
  ⟨0x40080020, [(2, 0x100)], .package, false, [⟨31, 31, []⟩, ⟨3, 0, [(0, 11)]⟩], 0x0, 0x0, 0⟩,
  ⟨0x40080024, [(2, 0x100)], .package, false, [], 0x0, 0x0, 0⟩,
  ⟨0x40081000, [(24, 0x20)], .package, false, [⟨31, 31, []⟩, ⟨30, 29, [(0, 2)]⟩, ⟨28, 28, []⟩], 0x0, 0x10000000, 0⟩,
  ⟨0x40081004, [(24, 0x20)], .package, false, [], 0x80000000, 0x0, 0⟩,
  ⟨0x40081008, [(24, 0x20)], .package, false, [], 0x0, 0x0, 0⟩,
  ⟨0x4008100C, [(24, 0x20)], .package, false, [⟨15, 0, []⟩], 0x0, 0x0, 0⟩,
  ⟨0x40081010, [(24, 0x20)], .package, false, [], 0x0, 0x0, 0⟩,
  ⟨0x40081014, [(24, 0x20)], .package, true, [⟨0, 0, []⟩], 0x0, 0x0, 0⟩]

/-- Rows of block DIO. -/
def rowsDIO : List RegRow := [
  ⟨0x40090000, [(8, 0x4)], .package, false, [], 0x0, 0x0, 0⟩,
  ⟨0x40090100, [(8, 0x10)], .package, false, [], 0x0, 0x2000064, 0⟩,
  ⟨0x40090104, [(8, 0x10)], .package, false, [], 0x0, 0x0, 0⟩,
  ⟨0x40090108, [(8, 0x10)], .package, false, [], 0x0, 0x0, 0⟩,
  ⟨0x40090200, [(2, 0x10)], .package, false, [], 0x0, 0x0, 0⟩,
  ⟨0x40090280, [], .package, false, [], 0x0, 0x0, 0⟩,
  ⟨0x40091000, [(32, 0x20)], .package, false, [⟨31, 30, [(0, 2)]⟩, ⟨29, 29, []⟩, ⟨27, 24, [(1, 15)]⟩, ⟨6, 0, [(1, 100)]⟩], 0x0, 0x300000A, 0⟩,
  ⟨0x40091004, [(32, 0x20)], .package, false, [], 0x80000000, 0x0, 0⟩,
  ⟨0x40091008, [(32, 0x20)], .package, false, [⟨0, 0, []⟩], 0x0, 0x0, 0⟩,
  ⟨0x4009100C, [(32, 0x20)], .package, false, [], 0x0, 0x0, 1⟩,
  ⟨0x40091010, [(32, 0x20)], .package, false, [], 0x0, 0x0, 2⟩]

/-- Rows of block AIN. -/
def rowsAIN : List RegRow := [
  ⟨0x400A0000, [(2, 0x100)], .package, false, [], 0x80000000, 0x1, 0⟩,
  ⟨0x400A0004, [(2, 0x100)], .package, false, [⟨0, 0, []⟩], 0x0, 0x1, 0⟩,
  ⟨0x400A1000, [(16, 0x20)], .package, false, [⟨31, 30, []⟩, ⟨29, 29, []⟩, ⟨28, 24, []⟩, ⟨23, 23, []⟩, ⟨2, 0, [(0, 4)]⟩], 0x0, 0x800000, 0⟩,
  ⟨0x400A1004, [(16, 0x20)], .package, false, [], 0x80000002, 0x0, 0⟩,
  ⟨0x400A1008, [(16, 0x20)], .package, false, [], 0x0, 0x0, 0⟩,
  ⟨0x400A100C, [(16, 0x20)], .package, false, [], 0x0, 0x0, 0⟩,
  ⟨0x400A1010, [(16, 0x20)], .package, false, [⟨31, 0, [(100, 1000000)]⟩], 0x0, 0x3E8, 0⟩]

/-- Rows of block IB. -/
def rowsIB : List RegRow := [
  ⟨0x400B0000, [(4, 0x8000)], .package, false, [⟨31, 31, []⟩, ⟨30, 30, []⟩, ⟨29, 29, []⟩], 0x0, 0x20000000, 0⟩,
  ⟨0x400B0004, [(4, 0x8000)], .package, false, [], 0xE0000000, 0x0, 0⟩,
  ⟨0x400B0008, [(4, 0x8000)], .package, false, [], 0x0, 0x0, 0⟩,
  ⟨0x400B000C, [(4, 0x8000)], .package, false, [], 0x0, 0x0, 0⟩,
  ⟨0x400B0010, [(4, 0x8000)], .package, false, [], 0x0, 0x0, 1⟩,
  ⟨0x400B0014, [(4, 0x8000)], .package, false, [], 0x0, 0x0, 2⟩,
  ⟨0x400B0018, [(4, 0x8000)], .package, false, [], 0x0, 0x0, 0⟩,
  ⟨0x400B0020, [(4, 0x8000)], .master, false, [⟨28, 0, []⟩], 0x0, 0x0, 0⟩,
  ⟨0x400B0024, [(4, 0x8000)], .master, false, [⟨6, 0, []⟩], 0x0, 0x0, 0⟩,
  ⟨0x400B0028, [(4, 0x8000)], .package, true, [⟨0, 0, []⟩], 0x0, 0x0, 0⟩,
  ⟨0x400B002C, [(4, 0x8000)], .master, false, [], 0x0, 0x0, 0⟩,
  ⟨0x400B0040, [(4, 0x8000), (16, 0x4)], .master, false, [⟨31, 0, []⟩], 0x0, 0x0, 0⟩,
  ⟨0x400B1000, [(4, 0x8000), (256, 0x10)], .package, false, [⟨31, 31, []⟩, ⟨29, 29, []⟩, ⟨28, 0, []⟩], 0x0, 0x0, 0⟩,
  ⟨0x400B1004, [(4, 0x8000), (256, 0x10)], .package, false, [⟨28, 0, []⟩], 0x0, 0x0, 0⟩,
  ⟨0x400B1008, [(4, 0x8000), (256, 0x10)], .package, false, [], 0xC0000000, 0x0, 0⟩,
  ⟨0x400B100C, [(4, 0x8000), (256, 0x10)], .package, false, [], 0x0, 0x0, 0⟩,
  ⟨0x400B2000, [(4, 0x8000), (256, 0x40), (16, 0x4)], .package, false, [], 0x0, 0x0, 0⟩]

/-- Rows of block TR. -/
def rowsTR : List RegRow := [
  ⟨0x400C0000, [], .package, false, [], 0xE0000000, 0x0, 0⟩,
  ⟨0x400C0004, [], .package, false, [], 0x0, 0x0, 0⟩,
  ⟨0x400C0010, [(8, 0x4)], .package, false, [], 0x0, 0x0, 0⟩,
  ⟨0x400C0040, [], .master, false, [⟨11, 0, [(1, 2000)]⟩], 0x0, 0x0, 0⟩,
  ⟨0x400C0044, [], .package, true, [⟨0, 0, []⟩], 0x0, 0x0, 0⟩,
  ⟨0x400C0048, [], .master, false, [], 0x0, 0x0, 0⟩,
  ⟨0x400C0050, [], .package, false, [], 0x0, 0x0, 0⟩,
  ⟨0x400C0054, [], .package, false, [⟨31, 0, []⟩], 0x0, 0x0, 0⟩,
  ⟨0x400C0058, [], .package, false, [], 0x0, 0x7A000000, 0⟩,
  ⟨0x400C0800, [(500, 0x4)], .master, false, [⟨31, 0, []⟩], 0x0, 0x0, 0⟩]

/-- Rows of block SL. -/
def rowsSL : List RegRow := [
  ⟨0x400D0000, [(16, 0x100)], .package, false, [⟨31, 31, []⟩, ⟨13, 8, [(2, 50)]⟩, ⟨7, 0, [(2, 20)]⟩], 0x0, 0x505, 0⟩,
  ⟨0x400D0004, [(16, 0x100)], .package, false, [], 0x80000008, 0x0, 0⟩,
  ⟨0x400D0008, [(16, 0x100)], .package, false, [], 0x0, 0x0, 0⟩,
  ⟨0x400D000C, [(16, 0x100)], .package, false, [], 0x0, 0x0, 0⟩,
  ⟨0x400D0010, [(16, 0x100)], .package, false, [], 0x0, 0x0, 0⟩,
  ⟨0x400D1000, [(16, 0x100), (16, 0x8)], .package, false, [], 0x0, 0x0, 0⟩,
  ⟨0x400D1004, [(16, 0x100), (16, 0x8)], .package, false, [], 0x0, 0x0, 0⟩]

/-- Rows of block WIN. -/
def rowsWIN : List RegRow := [
  ⟨0x400E0000, [(32, 0x4)], .package, false, [], 0x0, 0x0, 0⟩,
  ⟨0x400E0080, [], .package, false, [], 0x0, 0x0, 0⟩,
  ⟨0x400E0084, [], .package, false, [], 0x0, 0x0, 0⟩,
  ⟨0x400E0088, [], .package, false, [], 0x0, 0x0, 0⟩,
  ⟨0x400E0100, [(8, 0x8)], .master, false, [], 0x0, 0x0, 0⟩,
  ⟨0x400E0104, [(8, 0x8)], .master, false, [], 0x0, 0x0, 0⟩,
  ⟨0x400E0200, [], .package, false, [], 0x80000000, 0x0, 0⟩]

/-- Rows of block PWR. -/
def rowsPWR : List RegRow := [
  ⟨0x400F0000, [], .package, false, [], 0x80000020, 0x0, 0⟩,
  ⟨0x400F0004, [], .package, false, [], 0x0, 0x0, 0⟩,
  ⟨0x400F0008, [], .package, false, [], 0x0, 0x0, 0⟩,
  ⟨0x400F000C, [(3, 0x4)], .package, false, [], 0x0, 0x0, 0⟩,
  ⟨0x400F0018, [], .package, false, [], 0x0, 0x0, 0⟩,
  ⟨0x400F0020, [], .package, false, [], 0x0, 0x0, 0⟩,
  ⟨0x400F0024, [], .package, false, [⟨0, 0, []⟩], 0x0, 0x0, 0⟩,
  ⟨0x400F0028, [], .package, false, [], 0x0, 0x0, 0⟩]

/-- Rows of block REC. -/
def rowsREC : List RegRow := [
  ⟨0x40100000, [], .package, false, [], 0xE0000000, 0x4, 0⟩,
  ⟨0x40100004, [], .package, false, [], 0x0, 0x0, 0⟩,
  ⟨0x40100008, [], .package, false, [], 0x0, 0x0, 0⟩,
  ⟨0x40100010, [], .master, false, [⟨9, 0, []⟩], 0x0, 0x0, 0⟩,
  ⟨0x40100014, [], .package, true, [⟨31, 0, []⟩], 0x0, 0x0, 0⟩,
  ⟨0x40100020, [(3, 0x4)], .master, false, [⟨31, 0, []⟩], 0x0, 0x0, 0⟩,
  ⟨0x4010002C, [], .package, true, [⟨15, 0, []⟩], 0x0, 0x0, 0⟩,
  ⟨0x40100030, [], .package, false, [], 0x0, 0x0, 0⟩,
  ⟨0x40100034, [], .package, false, [], 0x0, 0x0, 0⟩]

/-- Rows of block MTR. -/
def rowsMTR : List RegRow := [
  ⟨0x40110000, [], .package, false, [], 0x0, 0x0, 0⟩,
  ⟨0x40110004, [], .package, false, [], 0x0, 0x0, 0⟩,
  ⟨0x40110008, [], .package, false, [], 0x0, 0x0, 1⟩,
  ⟨0x4011000C, [], .package, false, [], 0x0, 0x0, 2⟩,
  ⟨0x40110010, [(4, 0x8)], .package, false, [], 0x0, 0x0, 1⟩,
  ⟨0x40110014, [(4, 0x8)], .package, false, [], 0x0, 0x0, 2⟩]

/-- The rows of the block that holds an address. -/
def blockRows (a : Nat) : List RegRow :=
  match a / 0x10000 with
  | 0x4002 => rowsFT
  | 0x4003 => rowsGB
  | 0x4004 => rowsSPD
  | 0x4000 => rowsENG
  | 0x4001 => rowsSHQ
  | 0x4005 => rowsSOL
  | 0x4006 => rowsLV
  | 0x4007 => rowsHG
  | 0x4008 => rowsLS
  | 0x4009 => rowsDIO
  | 0x400A => rowsAIN
  | 0x400B => rowsIB
  | 0x400C => rowsTR
  | 0x400D => rowsSL
  | 0x400E => rowsWIN
  | 0x400F => rowsPWR
  | 0x4010 => rowsREC
  | 0x4011 => rowsMTR
  | _ => []

/-- The bus address of a register's place (see `ibUp`). -/
def busAddr (a : Nat) : Nat := if 0x500C0000 ≤ a ∧ a < 0x500D0000 then a - 0x10000000 else a

/-- The row of an address, none where the block has no register there. -/
def regRow (a : Nat) : Option RegRow :=
  if 0x500C0000 ≤ a ∧ a < 0x500D0000 then rowsIB.find? (fun r => r.hits (a - 0x10000000))
  else (blockRows a).find? (fun r => r.hits a && decide (a / 0x10000 = r.base / 0x10000))

/-- The place that a bus address reaches: where blocks IB and TR share addresses, a register of TR answers at its own, and IB's at
the others. -/
def regPlace (a : Nat) : Nat :=
  if 0x400C0000 ≤ a ∧ a < 0x400D0000 ∧ (regRow a).isNone then ibUp a else a

/-- Keys of the register store: the address, and above it the bank (0 for the package's copy, master number + 1 for a
master's own copy, 0x1000 + region for a region's copy). -/
def regKey (bank a : Nat) : Nat := bank * 0x100000000 + a

/-- The reset value of the register behind a key. -/
def regReset (k : Nat) : Word :=
  match regRow (k % 0x100000000) with
  | some r => wd r.reset
  | none => 0

end Sys2Proof.Machine
end

