-- ==== Sys2Proof/Machine/ObjTable.lean ====
section
/-! DEFINITION. The dictionary map: for every object of the spec its place, type, access, level, default, permitted values
and, where it mirrors a register field, that field (R367 to R378, and the object tables R70, R97, R115, R144, R169, R195,
R221, R240, R263, R293, R313, R342, R365, R382, R436, R461, R490, R505, R519). -/
namespace Sys2Proof.Machine

/-- Object types (R369). -/
inductive OTy where
  | u8 | u16 | u32 | u64 | i16 | i32 | i64 | f32 | bf24 | time64 | str | dom
  deriving DecidableEq, Repr

/-- Access modes (R373). -/
inductive Acc where
  | ro | rw | wo | const
  deriving DecidableEq, Repr

/-- The register field an object mirrors: address `base + sIdx·(index step) + sSub·(step / dv) + sRem·(step mod dv)`, bits hi:lo,
value = field × mul. -/
structure Mirror where
  base : Nat
  sIdx : Nat
  sSub : Nat
  dv : Nat
  sRem : Nat
  hi : Nat
  lo : Nat
  mul : Nat
  deriving DecidableEq, Repr

/-- One row of the dictionary: indices i0 to i1, subindices s0 to s1. `legal` lists (low, high, step); none means any value.
`noField` marks objects refused with 0x0401 in Field. -/
structure ObjRow where
  i0 : Nat
  i1 : Nat
  s0 : Nat
  s1 : Nat
  ty : OTy
  acc : Acc
  level : Nat
  dflt : Nat
  size : Nat
  legal : List (Int × Int × Nat)
  staged : Bool
  persistent : Bool
  noField : Bool
  mirror : Option Mirror
  deriving DecidableEq, Repr


/-- Objects of the table of R70, part 1. -/
def objs02a : List ObjRow := [
  /- FieldTime -/ ⟨0x3000, 0x3000, 0x0, 0x0, .time64, .ro, 0, 0x0, 0, [], false, false, false, none⟩,
  /- SystemEpochGps -/ ⟨0x3001, 0x3001, 0x1, 0x1, .u64, .rw, 2, 0xFFFFFFFFFFFFFFFF, 0, [], false, true, false, none⟩,
  /- FieldTimeSet -/ ⟨0x3001, 0x3001, 0x2, 0x2, .time64, .wo, 2, 0x0, 0, [], false, false, false, none⟩,
  /- FtSource -/ ⟨0x3002, 0x3002, 0x1, 0x1, .u8, .ro, 0, 0x0, 0, [], false, false, false, some ⟨0x4002000C, 0x0, 0x0, 1, 0, 2, 0, 1⟩⟩,
  /- FtSourceEnable -/ ⟨0x3002, 0x3002, 0x2, 0x2, .u8, .rw, 2, 0x7, 0, [(0, 7, 1)], false, true, false, some ⟨0x40020008, 0x0, 0x0, 1, 0, 18, 16, 1⟩⟩,
  /- FtClass -/ ⟨0x3002, 0x3002, 0x3, 0x3, .u8, .ro, 0, 0x0, 0, [], false, false, false, some ⟨0x4002000C, 0x0, 0x0, 1, 0, 9, 8, 1⟩⟩,
  /- FtUncertainty -/ ⟨0x3002, 0x3002, 0x4, 0x4, .u32, .ro, 0, 0x0, 0, [], false, false, false, some ⟨0x40020014, 0x0, 0x0, 1, 0, 31, 0, 1⟩⟩,
  /- FtSyncAge -/ ⟨0x3002, 0x3002, 0x5, 0x5, .u32, .ro, 0, 0x0, 0, [], false, false, false, some ⟨0x40020018, 0x0, 0x0, 1, 0, 31, 0, 1⟩⟩,
  /- FtDriftBound -/ ⟨0x3002, 0x3002, 0x6, 0x6, .u32, .rw, 2, 0x9C4, 0, [(100, 20000, 1)], false, true, false, none⟩,
  /- PorchDriftBound -/ ⟨0x3002, 0x3002, 0x7, 0x7, .u32, .rw, 2, 0x4E20, 0, [(1000, 50000, 1)], false, true, false, none⟩,
  /- OutlierCount -/ ⟨0x3002, 0x3002, 0x8, 0x8, .u32, .ro, 0, 0x0, 0, [], false, false, false, none⟩,
  /- FtRate -/ ⟨0x3003, 0x3003, 0x1, 0x1, .i32, .ro, 0, 0x0, 0, [], false, false, false, some ⟨0x40020010, 0x0, 0x0, 1, 0, 31, 0, 1⟩⟩,
  /- ServoBandwidth -/ ⟨0x3003, 0x3003, 0x2, 0x2, .u8, .rw, 2, 0x3, 0, [(0, 6, 1)], false, true, false, some ⟨0x40020008, 0x0, 0x0, 1, 0, 11, 8, 1⟩⟩,
  /- StepThreshold -/ ⟨0x3003, 0x3003, 0x3, 0x3, .u32, .rw, 2, 0xF4240, 0, [(1000, 1000000000, 1)], false, true, false, some ⟨0x4002002C, 0x0, 0x0, 1, 0, 31, 0, 1⟩⟩,
  /- SlewFaultLimit -/ ⟨0x3003, 0x3003, 0x4, 0x4, .u32, .rw, 2, 0x989680, 0, [(100000, 1000000000, 1)], false, true, false, none⟩,
  /- StepCount -/ ⟨0x3003, 0x3003, 0x5, 0x5, .u32, .ro, 0, 0x0, 0, [], false, false, false, none⟩,
  /- WallClock -/ ⟨0x3004, 0x3004, 0x1, 0x1, .u64, .rw, 1, 0x0, 0, [], false, false, false, none⟩,
  /- UtcOffset -/ ⟨0x3004, 0x3004, 0x2, 0x2, .i64, .ro, 0, 0x0, 0, [], false, false, false, none⟩,
  /- GpsUtcLeap -/ ⟨0x3004, 0x3004, 0x3, 0x3, .i16, .rw, 2, 0x12, 0, [(0, 255, 1)], false, true, false, none⟩,
  /- OperatingHours -/ ⟨0x3005, 0x3005, 0x1, 0x1, .u32, .ro, 0, 0x0, 0, [], false, false, false, none⟩,
  /- PowerCycleCount -/ ⟨0x3005, 0x3005, 0x2, 0x2, .u32, .ro, 0, 0x0, 0, [], false, false, false, none⟩,
  /- PorchTicks -/ ⟨0x3005, 0x3005, 0x3, 0x3, .u64, .ro, 0, 0x0, 0, [], false, false, false, none⟩,
  /- PorchCalibration -/ ⟨0x3005, 0x3005, 0x4, 0x4, .i32, .ro, 0, 0x0, 0, [], false, false, false, some ⟨0x40020038, 0x0, 0x0, 1, 0, 31, 0, 1⟩⟩,
  /- TimeMasterNode -/ ⟨0x3006, 0x3006, 0x1, 0x1, .u16, .ro, 0, 0x0, 0, [], false, false, false, none⟩,
  /- MasterCandidate -/ ⟨0x3006, 0x3006, 0x2, 0x2, .u8, .rw, 2, 0x1, 0, [(0, 1, 1)], false, true, false, some ⟨0x40020008, 0x0, 0x0, 1, 0, 2, 2, 1⟩⟩,
  /- MasterLossRounds -/ ⟨0x3006, 0x3006, 0x3, 0x3, .u8, .rw, 2, 0x3, 0, [(2, 20, 1)], false, true, false, none⟩,
  /- TimeBus -/ ⟨0x3006, 0x3006, 0x4, 0x4, .u8, .rw, 2, 0x0, 0, [(0, 3, 1)], false, true, false, none⟩,
  /- RefDelay -/ ⟨0x3006, 0x3006, 0x5, 0x5, .u16, .rw, 2, 0xC8, 0, [(0, 10000, 1)], false, true, false, none⟩,
  /- PtpMode -/ ⟨0x3007, 0x3007, 0x1, 0x1, .u8, .rw, 2, 0x2, 0, [(0, 3, 1)], false, true, false, none⟩,
  /- PtpPorts -/ ⟨0x3007, 0x3007, 0x2, 0x2, .u8, .rw, 2, 0x4, 0, [(0, 7, 1)], false, true, false, none⟩,
  /- PtpDomain -/ ⟨0x3007, 0x3007, 0x3, 0x3, .u8, .rw, 2, 0x0, 0, [(0, 127, 1)], false, true, false, none⟩,
  /- PtpLogSyncInterval -/ ⟨0x3007, 0x3007, 0x4, 0x4, .i16, .rw, 2, 0xFFFD, 0, [(-7, 1, 1)], false, true, false, none⟩,
  /- PtpOffset -/ ⟨0x3007, 0x3007, 0x5, 0x5, .i32, .ro, 0, 0x0, 0, [], false, false, false, some ⟨0x40020028, 0x0, 0x0, 1, 0, 31, 0, 1⟩⟩,
  /- PtpPathDelay -/ ⟨0x3007, 0x3007, 0x6, 0x6, .u32, .ro, 0, 0x0, 0, [], false, false, false, none⟩,
  /- LatchRequest -/ ⟨0x3008, 0x3008, 0x1, 0x1, .time64, .wo, 1, 0x0, 0, [], false, false, false, none⟩,
  /- LatchPeriodic -/ ⟨0x3008, 0x3008, 0x2, 0x2, .time64, .wo, 1, 0x0, 0, [], false, false, false, none⟩,
  /- LatchPeriod -/ ⟨0x3008, 0x3008, 0x3, 0x3, .u32, .rw, 1, 0xF4240, 0, [(1000, 10000000, 1)], false, false, false, none⟩,
  /- LatchCancel -/ ⟨0x3008, 0x3008, 0x4, 0x4, .u8, .wo, 1, 0x0, 0, [(0, 7, 1)], false, false, false, none⟩,
  /- LatchLastNumber -/ ⟨0x3008, 0x3008, 0x5, 0x5, .u16, .ro, 0, 0x0, 0, [], false, false, false, some ⟨0x40020094, 0x0, 0x0, 1, 0, 15, 0, 1⟩⟩,
  /- LatchLastInstant -/ ⟨0x3008, 0x3008, 0x6, 0x6, .time64, .ro, 0, 0x0, 0, [], false, false, false, none⟩,
  /- LatchSlot -/ ⟨0x3008, 0x3008, 0x10, 0x17, .time64, .ro, 0, 0x0, 0, [], false, false, false, none⟩]

/-- Objects of the table of R97, part 1. -/
def objs03a : List ObjRow := [
  /- GnssEnable -/ ⟨0x3100, 0x3100, 0x1, 0x1, .u8, .rw, 1, 0x1, 0, [(0, 1, 1)], false, true, false, none⟩,
  /- HeadEnable -/ ⟨0x3100, 0x3100, 0x2, 0x2, .u8, .rw, 2, 0xF, 0, [(0, 15, 1)], false, true, false, some ⟨0x40030000, 0x0, 0x0, 1, 0, 7, 4, 1⟩⟩,
  /- HeadSupplyVoltage -/ ⟨0x3100, 0x3100, 0x3, 0x3, .u16, .rw, 2, 0x1388, 0, [(3300, 3300, 1), (5000, 5000, 1)], false, true, false, none⟩,
  /- LockCn0 -/ ⟨0x3100, 0x3100, 0x4, 0x4, .u16, .rw, 2, 0xAF0, 0, [(2000, 4000, 1)], false, true, false, none⟩,
  /- HeadLinkState -/ ⟨0x3101, 0x3101, 0x1, 0x4, .u8, .ro, 0, 0x0, 0, [], false, false, false, none⟩,
  /- HeadAgcL1 -/ ⟨0x3102, 0x3102, 0x1, 0x4, .u8, .ro, 0, 0x0, 0, [], false, false, false, none⟩,
  /- HeadAgcL5 -/ ⟨0x3103, 0x3103, 0x1, 0x4, .u8, .ro, 0, 0x0, 0, [], false, false, false, none⟩,
  /- HeadTemperature -/ ⟨0x3104, 0x3104, 0x1, 0x4, .i16, .ro, 0, 0x0, 0, [], false, false, false, none⟩,
  /- HeadSupplyCurrent -/ ⟨0x3105, 0x3105, 0x1, 0x4, .u16, .ro, 0, 0x0, 0, [], false, false, false, some ⟨0x40030048, 0x0, 0x10, 1, 0, 15, 0, 1⟩⟩,
  /- HeadLinkLossCount -/ ⟨0x3106, 0x3106, 0x1, 0x4, .u32, .ro, 0, 0x0, 0, [], false, false, false, none⟩,
  /- BurstEnable -/ ⟨0x3110, 0x3110, 0x1, 0x1, .u8, .rw, 2, 0x0, 0, [(0, 1, 1)], false, true, false, some ⟨0x40030000, 0x0, 0x0, 1, 0, 8, 8, 1⟩⟩,
  /- BurstHeads -/ ⟨0x3110, 0x3110, 0x2, 0x2, .u8, .rw, 2, 0x1, 0, [(1, 15, 1)], false, true, false, none⟩,
  /- BurstMinLocked -/ ⟨0x3110, 0x3110, 0x3, 0x3, .u8, .rw, 2, 0x4, 0, [(0, 32, 1)], false, true, false, none⟩,
  /- BurstCount -/ ⟨0x3110, 0x3110, 0x4, 0x4, .u32, .ro, 0, 0x0, 0, [], false, false, false, none⟩,
  /- ChannelCn0 -/ ⟨0x3120, 0x3120, 0x1, 0xC0, .u16, .ro, 0, 0x0, 0, [], false, false, false, some ⟨0x40031018, 0x0, 0x20, 1, 0, 15, 0, 1⟩⟩,
  /- DumpOverrunCount -/ ⟨0x3121, 0x3121, 0x1, 0x1, .u32, .ro, 0, 0x0, 0, [], false, false, false, none⟩,
  /- AcquisitionCount -/ ⟨0x3121, 0x3121, 0x2, 0x2, .u32, .ro, 0, 0x0, 0, [], false, false, false, none⟩]

/-- Objects of the table of R115, part 1. -/
def objs04a : List ObjRow := [
  /- PoseMaxAge -/ ⟨0x3200, 0x3200, 0x1, 0x1, .u32, .rw, 2, 0x1388, 0, [(250, 100000, 1)], false, true, false, none⟩,
  /- PosePublisher -/ ⟨0x3200, 0x3200, 0x2, 0x2, .u16, .rw, 2, 0x0, 0, [(0, 1023, 1)], false, true, false, some ⟨0x40040900, 0x0, 0x0, 1, 0, 9, 0, 1⟩⟩,
  /- PoseState -/ ⟨0x3200, 0x3200, 0x3, 0x3, .u8, .ro, 0, 0x0, 0, [], false, false, false, none⟩,
  /- PoseRefusedCommits -/ ⟨0x3200, 0x3200, 0x4, 0x4, .u32, .ro, 0, 0x0, 0, [], false, false, false, none⟩,
  /- PoseUnusableFrames -/ ⟨0x3200, 0x3200, 0x5, 0x5, .u32, .ro, 0, 0x0, 0, [], false, false, false, none⟩,
  /- FieldOriginEcef -/ ⟨0x3201, 0x3201, 0x1, 0x3, .i64, .rw, 2, 0x0, 0, [], false, true, false, none⟩,
  /- FieldOriginCheck -/ ⟨0x3201, 0x3201, 0x4, 0x4, .u16, .ro, 0, 0x0, 0, [], false, false, false, none⟩,
  /- WingHingeX -/ ⟨0x3210, 0x3213, 0x1, 0x1, .i32, .rw, 2, 0x0, 0, [], false, true, true, none⟩,
  /- WingHingeY -/ ⟨0x3210, 0x3213, 0x2, 0x2, .i32, .rw, 2, 0x0, 0, [], false, true, true, none⟩,
  /- WingHingeZ -/ ⟨0x3210, 0x3213, 0x3, 0x3, .i32, .rw, 2, 0x0, 0, [], false, true, true, none⟩,
  /- WingDirection -/ ⟨0x3210, 0x3213, 0x4, 0x4, .i16, .rw, 2, 0x0, 0, [(-18000, 18000, 1)], false, true, true, none⟩,
  /- WingLength -/ ⟨0x3210, 0x3213, 0x5, 0x5, .u16, .rw, 2, 0x0, 0, [], false, true, true, none⟩,
  /- FiFrequency -/ ⟨0x3220, 0x3220, 0x1, 0x8, .u32, .ro, 0, 0x0, 0, [], false, false, false, none⟩,
  /- FiEdgeCount -/ ⟨0x3221, 0x3221, 0x1, 0x8, .u32, .ro, 0, 0x0, 0, [], false, false, false, some ⟨0x40040044, 0x0, 0x20, 1, 0, 31, 0, 1⟩⟩,
  /- FiState -/ ⟨0x3222, 0x3222, 0x1, 0x8, .u8, .ro, 0, 0x0, 0, [], false, false, false, none⟩,
  /- ImuState -/ ⟨0x3230, 0x3230, 0x1, 0x2, .u8, .ro, 0, 0x0, 0, [], false, false, false, none⟩,
  /- ImuTransferCount -/ ⟨0x3231, 0x3231, 0x1, 0x2, .u32, .ro, 0, 0x0, 0, [], false, false, false, none⟩]

/-- Objects of the table of R144, part 1. -/
def objs05a : List ObjRow := [
  /- EndpointTable -/ ⟨0x4000, 0x4000, 0x1, 0x1, .dom, .ro, 0, 0x0, 33554432, [], false, false, false, none⟩,
  /- EndpointConfig -/ ⟨0x4000, 0x4000, 0x2, 0x2, .dom, .rw, 2, 0x0, 33554432, [], false, false, false, none⟩,
  /- EpId -/ ⟨0x4001, 0x4001, 0x1, 0x1, .u32, .rw, 1, 0x0, 0, [(0, 262143, 1)], true, false, false, none⟩,
  /- EpClass -/ ⟨0x4001, 0x4001, 0x2, 0x2, .u8, .rw, 2, 0x0, 0, [(0, 4, 1)], false, false, false, none⟩,
  /- EpOutput -/ ⟨0x4001, 0x4001, 0x3, 0x3, .u32, .rw, 2, 0x0, 0, [], false, false, false, none⟩,
  /- EpAccount -/ ⟨0x4001, 0x4001, 0x4, 0x4, .u16, .rw, 1, 0x0, 0, [(0, 16383, 1)], false, false, false, none⟩,
  /- EpLateWindow -/ ⟨0x4001, 0x4001, 0x5, 0x5, .u16, .rw, 1, 0x14, 0, [(0, 1000, 1)], false, false, false, none⟩,
  /- EpGuardEpoch -/ ⟨0x4001, 0x4001, 0x6, 0x6, .u32, .rw, 1, 0x0, 0, [], false, false, false, none⟩,
  /- EpCommand -/ ⟨0x4001, 0x4001, 0x7, 0x7, .u8, .wo, 1, 0x0, 0, [(1, 7, 1)], false, false, false, none⟩,
  /- RemapId -/ ⟨0x4002, 0x4002, 0x1, 0x1, .u32, .rw, 2, 0x0, 0, [(0, 262143, 1)], true, false, false, none⟩,
  /- RemapEngine -/ ⟨0x4002, 0x4002, 0x2, 0x2, .u16, .rw, 2, 0x0, 0, [(0, 1023, 1)], true, false, false, none⟩,
  /- RemapSlot -/ ⟨0x4002, 0x4002, 0x3, 0x3, .u16, .rw, 2, 0xFFFF, 0, [(0, 255, 1), (65535, 65535, 1)], true, false, false, none⟩,
  /- RemapAt -/ ⟨0x4002, 0x4002, 0x4, 0x4, .time64, .rw, 2, 0x0, 0, [], true, false, false, none⟩,
  /- RemapCommand -/ ⟨0x4002, 0x4002, 0x5, 0x5, .u8, .wo, 2, 0x0, 0, [(1, 2, 1)], false, false, false, none⟩,
  /- RemapState -/ ⟨0x4002, 0x4002, 0x6, 0x6, .u8, .ro, 0, 0x0, 0, [], true, false, false, none⟩,
  /- RemapSwitchFt -/ ⟨0x4002, 0x4002, 0x7, 0x7, .time64, .ro, 0, 0x0, 0, [], true, false, false, none⟩,
  /- RemapNewSlot -/ ⟨0x4002, 0x4002, 0x8, 0x8, .u16, .ro, 0, 0x0, 0, [], true, false, false, none⟩,
  /- LookupId -/ ⟨0x4003, 0x4003, 0x1, 0x1, .u32, .rw, 0, 0x0, 0, [(0, 262143, 1)], true, false, false, none⟩,
  /- LookupOwner -/ ⟨0x4003, 0x4003, 0x2, 0x2, .u16, .ro, 0, 0x0, 0, [], false, false, false, none⟩,
  /- LookupSlot -/ ⟨0x4003, 0x4003, 0x3, 0x3, .u8, .ro, 0, 0x0, 0, [], false, false, false, none⟩,
  /- LookupEpoch -/ ⟨0x4003, 0x4003, 0x4, 0x4, .u16, .ro, 0, 0x0, 0, [], false, false, false, none⟩,
  /- LookupState -/ ⟨0x4003, 0x4003, 0x5, 0x5, .u8, .ro, 0, 0x0, 0, [], false, false, false, none⟩,
  /- LookupOutput -/ ⟨0x4003, 0x4003, 0x6, 0x6, .u32, .rw, 0, 0x0, 0, [], false, false, false, none⟩,
  /- LookupOutputId -/ ⟨0x4003, 0x4003, 0x7, 0x7, .u32, .ro, 0, 0x0, 0, [], false, false, false, none⟩,
  /- EndpointsBound -/ ⟨0x4004, 0x4004, 0x1, 0x1, .u32, .ro, 0, 0x0, 0, [], false, false, false, none⟩,
  /- BoundS -/ ⟨0x4004, 0x4004, 0x2, 0x2, .u32, .ro, 0, 0x0, 0, [], false, false, false, none⟩,
  /- BoundL -/ ⟨0x4004, 0x4004, 0x3, 0x3, .u32, .ro, 0, 0x0, 0, [], false, false, false, none⟩,
  /- BoundD -/ ⟨0x4004, 0x4004, 0x4, 0x4, .u32, .ro, 0, 0x0, 0, [], false, false, false, none⟩,
  /- BoundN -/ ⟨0x4004, 0x4004, 0x5, 0x5, .u32, .ro, 0, 0x0, 0, [], false, false, false, none⟩,
  /- BoundT -/ ⟨0x4004, 0x4004, 0x6, 0x6, .u32, .ro, 0, 0x0, 0, [], false, false, false, none⟩,
  /- RemapCount -/ ⟨0x4004, 0x4004, 0x7, 0x7, .u32, .ro, 0, 0x0, 0, [], false, false, false, none⟩,
  /- StaleEpochCount -/ ⟨0x4004, 0x4004, 0x8, 0x8, .u32, .ro, 0, 0x0, 0, [], false, false, false, none⟩,
  /- RemapDropCount -/ ⟨0x4004, 0x4004, 0x9, 0x9, .u32, .ro, 0, 0x0, 0, [], false, false, false, none⟩,
  /- HeaderCheckFaults -/ ⟨0x4004, 0x4004, 0xA, 0xA, .u32, .ro, 0, 0x0, 0, [], false, false, false, none⟩,
  /- StartEpoch -/ ⟨0x4005, 0x4005, 0x1, 0x1, .u16, .ro, 0, 0x0, 0, [], false, false, false, none⟩,
  /- EndpointCoordinator -/ ⟨0x4005, 0x4005, 0x2, 0x2, .u16, .rw, 2, 0xFFFF, 0, [(0, 1023, 1), (65535, 65535, 1)], false, true, false, none⟩,
  /- EndpointRanges -/ ⟨0x4010, 0x4010, 0x1, 0x1, .dom, .rw, 2, 0x0, 65536, [], false, false, false, none⟩,
  /- RangeCount -/ ⟨0x4010, 0x4010, 0x2, 0x2, .u16, .rw, 2, 0x0, 0, [(0, 1024, 1)], false, false, false, none⟩,
  /- RangeCommand -/ ⟨0x4010, 0x4010, 0x3, 0x3, .u8, .wo, 2, 0x0, 0, [(1, 2, 1)], false, false, false, none⟩,
  /- RangeState -/ ⟨0x4010, 0x4010, 0x4, 0x4, .u8, .ro, 0, 0x0, 0, [], false, false, false, none⟩,
  /- RangeFailIndex -/ ⟨0x4010, 0x4010, 0x5, 0x5, .u16, .ro, 0, 0x0, 0, [], false, false, false, none⟩]

/-- Objects of the table of R169, part 1. -/
def objs06a : List ObjRow := [
  /- FrameLength -/ ⟨0x6000, 0x6000, 0x1, 0x1, .u16, .rw, 2, 0x3E8, 0, [(250, 10000, 250)], false, true, false, none⟩,
  /- FrameNumber -/ ⟨0x6000, 0x6000, 0x2, 0x2, .u32, .ro, 0, 0x0, 0, [], false, false, false, none⟩,
  /- FrameOverrunCount -/ ⟨0x6000, 0x6000, 0x3, 0x3, .u32, .ro, 0, 0x0, 0, [], false, false, false, none⟩,
  /- LookHorizon -/ ⟨0x6001, 0x6001, 0x1, 0x1, .u16, .rw, 2, 0xFA0, 0, [(100, 4000, 1)], false, true, false, none⟩,
  /- QueueHorizon -/ ⟨0x6001, 0x6001, 0x2, 0x2, .u16, .rw, 2, 0x1F4, 0, [(10, 4000, 1)], false, true, false, none⟩,
  /- LookStep -/ ⟨0x6001, 0x6001, 0x3, 0x3, .u16, .rw, 2, 0x3E8, 0, [(250, 10000, 1)], false, true, false, none⟩,
  /- RequeueThreshold -/ ⟨0x6001, 0x6001, 0x4, 0x4, .u16, .rw, 2, 0x64, 0, [(10, 10000, 1)], false, true, false, none⟩,
  /- CoverageThreshold -/ ⟨0x6001, 0x6001, 0x5, 0x5, .u8, .rw, 1, 0x32, 0, [(0, 100, 1)], false, true, false, none⟩,
  /- ExclusionMargin -/ ⟨0x6001, 0x6001, 0x6, 0x6, .u16, .rw, 2, 0xFA, 0, [(0, 5000, 1)], false, true, false, none⟩,
  /- ExclusionSigmaFactor -/ ⟨0x6001, 0x6001, 0x7, 0x7, .u8, .rw, 2, 0x14, 0, [(0, 50, 1)], false, true, false, none⟩,
  /- SpreadFactor -/ ⟨0x6001, 0x6001, 0x8, 0x8, .u8, .rw, 2, 0x14, 0, [(0, 50, 1)], false, true, false, none⟩,
  /- MinApplySpeed -/ ⟨0x6001, 0x6001, 0x9, 0x9, .u16, .rw, 2, 0x12C, 0, [(0, 5000, 1)], false, true, false, none⟩,
  /- RescanDistance -/ ⟨0x6001, 0x6001, 0xA, 0xA, .u16, .rw, 2, 0x32, 0, [(5, 1000, 1)], false, true, false, none⟩,
  /- RescanHeading -/ ⟨0x6001, 0x6001, 0xB, 0xB, .u16, .rw, 2, 0x32, 0, [(1, 1000, 1)], false, true, false, none⟩,
  /- LayerMode -/ ⟨0x6002, 0x6002, 0x1, 0x1, .u8, .rw, 2, 0x1, 0, [(0, 2, 1)], false, true, false, none⟩,
  /- LayerMode -/ ⟨0x6002, 0x6002, 0x2, 0x2, .u8, .rw, 2, 0x0, 0, [(0, 2, 1)], false, true, false, none⟩,
  /- LayerMode -/ ⟨0x6002, 0x6002, 0x3, 0x3, .u8, .rw, 2, 0x0, 0, [(0, 2, 1)], false, true, false, none⟩,
  /- LayerMode -/ ⟨0x6002, 0x6002, 0x4, 0x4, .u8, .rw, 2, 0x0, 0, [(0, 2, 1)], false, true, false, none⟩,
  /- LayerPressureSlot -/ ⟨0x6002, 0x6002, 0x5, 0x8, .u8, .rw, 2, 0xFF, 0, [(0, 31, 1), (255, 255, 1)], false, true, false, none⟩,
  /- CellSize -/ ⟨0x6003, 0x6003, 0x1, 0x1, .u8, .rw, 2, 0x2, 0, [(0, 4, 1)], false, true, false, none⟩,
  /- PaneMissingFill -/ ⟨0x6003, 0x6003, 0x2, 0x2, .u8, .rw, 2, 0x3F, 0, [(0, 255, 1)], false, true, false, none⟩,
  /- PaneCount -/ ⟨0x6003, 0x6003, 0x3, 0x3, .u16, .ro, 0, 0x0, 0, [], false, false, false, none⟩,
  /- PaneCapacity -/ ⟨0x6003, 0x6003, 0x4, 0x4, .u16, .const, 0, 0x7F8, 0, [], false, false, false, none⟩,
  /- PaneX -/ ⟨0x6003, 0x6003, 0x5, 0x5, .i16, .rw, 1, 0x0, 0, [], true, false, false, none⟩,
  /- PaneY -/ ⟨0x6003, 0x6003, 0x6, 0x6, .i16, .rw, 1, 0x0, 0, [], true, false, false, none⟩,
  /- PaneCommand -/ ⟨0x6003, 0x6003, 0x7, 0x7, .u8, .wo, 1, 0x0, 0, [(1, 3, 1)], false, false, false, none⟩,
  /- PaneWriteMode -/ ⟨0x6003, 0x6003, 0x8, 0x8, .u8, .rw, 1, 0x0, 0, [(0, 1, 1)], true, false, false, none⟩,
  /- PaneData -/ ⟨0x6003, 0x6003, 0x9, 0x9, .dom, .rw, 1, 0x0, 1048576, [], false, false, false, none⟩,
  /- PaneVersion -/ ⟨0x6003, 0x6003, 0xA, 0xA, .u32, .ro, 0, 0x0, 0, [], false, false, false, none⟩,
  /- CoverageGeneration -/ ⟨0x6003, 0x6003, 0xB, 0xB, .u32, .ro, 0, 0x0, 0, [], false, false, false, none⟩,
  /- ZoneLevel -/ ⟨0x6010, 0x6013, 0x1, 0x3F, .u16, .rw, 1, 0xFFFF, 0, [], false, true, false, none⟩,
  /- TargetPort -/ ⟨0x6020, 0x6020, 0x1, 0x1, .u16, .rw, 2, 0xB8CE, 0, [(1024, 65535, 1)], false, true, false, none⟩,
  /- TargetSourceTimeout -/ ⟨0x6020, 0x6020, 0x2, 0x2, .u16, .rw, 2, 0x1F4, 0, [(50, 10000, 1)], false, true, false, none⟩,
  /- TargetMargin -/ ⟨0x6020, 0x6020, 0x3, 0x3, .u16, .rw, 1, 0x14, 0, [(0, 500, 1)], false, true, false, none⟩,
  /- TargetRespectCoverage -/ ⟨0x6020, 0x6020, 0x4, 0x4, .u8, .rw, 1, 0x1, 0, [(0, 1, 1)], false, true, false, none⟩,
  /- SpotFallback -/ ⟨0x6020, 0x6020, 0x5, 0x5, .u8, .rw, 2, 0x0, 0, [(0, 1, 1)], false, true, false, none⟩,
  /- TargetRingLength -/ ⟨0x6020, 0x6020, 0x6, 0x6, .u32, .rw, 2, 0x40000, 0, [(1024, 1024, 1), (2048, 2048, 1), (4096, 4096, 1), (8192, 8192, 1), (16384, 16384, 1), (32768, 32768, 1), (65536, 65536, 1), (131072, 131072, 1), (262144, 262144, 1), (524288, 524288, 1), (1048576, 1048576, 1)], false, true, true, none⟩,
  /- TargetsAccepted -/ ⟨0x6020, 0x6020, 0x7, 0x7, .u32, .ro, 0, 0x0, 0, [], false, false, false, none⟩,
  /- TargetsDiscarded -/ ⟨0x6020, 0x6020, 0x8, 0x8, .u32, .ro, 0, 0x0, 0, [], false, false, false, none⟩,
  /- TargetsDropped -/ ⟨0x6020, 0x6020, 0x9, 0x9, .u32, .ro, 0, 0x0, 0, [], false, false, false, none⟩,
  /- TargetSourceState -/ ⟨0x6020, 0x6020, 0xA, 0xA, .u8, .ro, 0, 0x0, 0, [], false, false, false, none⟩,
  /- TargetSourceId -/ ⟨0x6020, 0x6020, 0x10, 0x17, .u16, .rw, 2, 0x0, 0, [], false, true, false, none⟩]

/-- Objects of the table of R195, part 1. -/
def objs07a : List ObjRow := [
  /- NodeLead -/ ⟨0x6100, 0x6100, 0x1, 0x1, .u16, .rw, 2, 0x19, 0, [(12, 100, 1)], false, true, true, none⟩,
  /- QueueOffReserve -/ ⟨0x6100, 0x6100, 0x2, 0x2, .u16, .rw, 2, 0x40, 0, [(0, 512, 1)], false, true, true, none⟩,
  /- QueueFillMax -/ ⟨0x6100, 0x6100, 0x3, 0x3, .u16, .ro, 0, 0x0, 0, [], false, false, false, none⟩,
  /- QueueFullCount -/ ⟨0x6100, 0x6100, 0x4, 0x4, .u32, .ro, 0, 0x0, 0, [], false, false, false, none⟩,
  /- QueueDisplacedCount -/ ⟨0x6100, 0x6100, 0x5, 0x5, .u32, .ro, 0, 0x0, 0, [], false, false, false, none⟩,
  /- MissedOnCount -/ ⟨0x6100, 0x6100, 0x6, 0x6, .u32, .ro, 0, 0x0, 0, [], false, false, false, none⟩,
  /- LateOffCount -/ ⟨0x6100, 0x6100, 0x7, 0x7, .u32, .ro, 0, 0x0, 0, [], false, false, false, none⟩,
  /- LateOffMax -/ ⟨0x6100, 0x6100, 0x8, 0x8, .u32, .ro, 0, 0x0, 0, [], false, false, false, none⟩,
  /- FiringDropCount -/ ⟨0x6100, 0x6100, 0x9, 0x9, .u32, .ro, 0, 0x0, 0, [], false, false, false, none⟩,
  /- SameTickMergeCount -/ ⟨0x6100, 0x6100, 0xA, 0xA, .u32, .ro, 0, 0x0, 0, [], false, false, false, none⟩,
  /- MeasuredActuations -/ ⟨0x6101, 0x6101, 0x1, 0x1, .u32, .ro, 0, 0x0, 0, [], false, false, false, none⟩,
  /- UnmeasuredActuations -/ ⟨0x6101, 0x6101, 0x2, 0x2, .u32, .ro, 0, 0x0, 0, [], false, false, false, none⟩,
  /- LateReportCount -/ ⟨0x6101, 0x6101, 0x3, 0x3, .u32, .ro, 0, 0x0, 0, [], false, false, false, none⟩,
  /- AaDroppedCount -/ ⟨0x6101, 0x6101, 0x4, 0x4, .u32, .ro, 0, 0x0, 0, [], false, false, false, none⟩,
  /- LedgerExchange -/ ⟨0x6102, 0x6102, 0x1, 0x1, .u8, .rw, 2, 0x1, 0, [(0, 1, 1)], false, true, false, none⟩,
  /- LedgerPorts -/ ⟨0x6102, 0x6102, 0x2, 0x2, .u8, .rw, 2, 0xF, 0, [(0, 127, 1)], false, true, false, none⟩,
  /- LedgerNextSeq -/ ⟨0x6102, 0x6102, 0x3, 0x3, .u32, .ro, 0, 0x1, 0, [], false, false, false, none⟩,
  /- LedgerHeld -/ ⟨0x6102, 0x6102, 0x4, 0x4, .u32, .ro, 0, 0x0, 0, [], false, false, false, none⟩,
  /- LedgerCapacity -/ ⟨0x6102, 0x6102, 0x5, 0x5, .u32, .const, 0, 0x70000, 0, [], false, false, false, none⟩,
  /- LedgerRunsRefused -/ ⟨0x6102, 0x6102, 0x6, 0x6, .u32, .ro, 0, 0x0, 0, [], false, false, false, none⟩,
  /- LedgerReceived -/ ⟨0x6102, 0x6102, 0x7, 0x7, .u32, .ro, 0, 0x0, 0, [], false, false, false, none⟩,
  /- LedgerDuplicates -/ ⟨0x6102, 0x6102, 0x8, 0x8, .u32, .ro, 0, 0x0, 0, [], false, false, false, none⟩,
  /- LedgerRejected -/ ⟨0x6102, 0x6102, 0x9, 0x9, .u32, .ro, 0, 0x0, 0, [], false, false, false, none⟩,
  /- LedgerGapRecords -/ ⟨0x6102, 0x6102, 0xA, 0xA, .u32, .ro, 0, 0x0, 0, [], false, false, false, none⟩,
  /- LedgerResendDelay -/ ⟨0x6102, 0x6102, 0xB, 0xB, .u16, .rw, 2, 0xC8, 0, [(50, 5000, 1)], false, true, false, none⟩,
  /- LedgerSources -/ ⟨0x6102, 0x6102, 0xC, 0xC, .u16, .ro, 0, 0x0, 0, [], false, false, false, none⟩,
  /- LedgerReplay -/ ⟨0x6102, 0x6102, 0xD, 0xD, .u8, .wo, 2, 0x0, 0, [(1, 1, 1)], false, false, false, none⟩,
  /- LedgerCellsLost -/ ⟨0x6102, 0x6102, 0xE, 0xE, .u32, .ro, 0, 0x0, 0, [], false, false, false, none⟩,
  /- LedgerState -/ ⟨0x6102, 0x6102, 0xF, 0xF, .u8, .ro, 0, 0x0, 0, [], false, false, false, none⟩]

/-- Objects of the table of R221, part 1. -/
def objs08a : List ObjRow := [
  /- BoostVoltage -/ ⟨0x4100, 0x4100, 0x1, 0x2, .u16, .rw, 2, 0xBB80, 0, [(24000, 60000, 500)], false, true, false, some ⟨0x40050000, 0x0, 0x100, 1, 0, 15, 8, 500⟩⟩,
  /- BoostEnable -/ ⟨0x4100, 0x4100, 0x3, 0x4, .u8, .rw, 2, 0x1, 0, [(0, 1, 1)], false, true, false, some ⟨0x40050000, 0x0, 0x100, 1, 0, 0, 0, 1⟩⟩,
  /- BoostState -/ ⟨0x4100, 0x4100, 0x5, 0x6, .u8, .ro, 0, 0x0, 0, [], false, false, false, none⟩,
  /- BoostCapacitance -/ ⟨0x4100, 0x4100, 0x7, 0x8, .u16, .ro, 0, 0x0, 0, [], false, false, false, some ⟨0x40050010, 0x0, 0x100, 1, 0, 15, 0, 1⟩⟩,
  /- BoostCapClear -/ ⟨0x4100, 0x4100, 0x9, 0xA, .u8, .wo, 2, 0x0, 0, [(1, 1, 1)], false, false, false, none⟩,
  /- CoilTempMax -/ ⟨0x4101, 0x4101, 0x1, 0x1, .u8, .rw, 2, 0x9B, 0, [(100, 180, 1)], false, true, false, some ⟨0x40050018, 0x0, 0x0, 1, 0, 7, 0, 1⟩⟩,
  /- CoilTempMargin -/ ⟨0x4101, 0x4101, 0x2, 0x2, .u8, .rw, 2, 0x1E, 0, [(5, 100, 1)], false, true, false, some ⟨0x40050018, 0x0, 0x0, 1, 0, 15, 8, 1⟩⟩,
  /- AmbientMax -/ ⟨0x4101, 0x4101, 0x3, 0x3, .u8, .rw, 2, 0x55, 0, [(0, 125, 1)], false, true, false, some ⟨0x40050018, 0x0, 0x0, 1, 0, 23, 16, 1⟩⟩,
  /- CoilRiseMax -/ ⟨0x4101, 0x4101, 0x4, 0x4, .u8, .rw, 2, 0x3C, 0, [(0, 150, 1)], false, true, false, some ⟨0x40050018, 0x0, 0x0, 1, 0, 31, 24, 1⟩⟩,
  /- CoilTempCoeff -/ ⟨0x4101, 0x4101, 0x5, 0x5, .u16, .rw, 2, 0xF5A, 0, [(3000, 4500, 1)], false, true, false, some ⟨0x4005001C, 0x0, 0x0, 1, 0, 12, 0, 1⟩⟩,
  /- ArmatureWarnCount -/ ⟨0x4101, 0x4101, 0x6, 0x6, .u8, .rw, 2, 0x8, 0, [(1, 255, 1)], false, true, false, none⟩,
  /- BoostTimeMax -/ ⟨0x4110, 0x411F, 0x1, 0x1, .u16, .rw, 2, 0x3E8, 0, [(0, 2000, 10)], false, true, false, some ⟨0x40050400, 0x20, 0x0, 1, 0, 31, 24, 10⟩⟩,
  /- PeakCurrent -/ ⟨0x4110, 0x411F, 0x2, 0x2, .u16, .rw, 2, 0x7D0, 0, [(500, 6000, 1)], false, true, false, some ⟨0x40050400, 0x20, 0x0, 1, 0, 12, 0, 1⟩⟩,
  /- PeakTime -/ ⟨0x4110, 0x411F, 0x3, 0x3, .u16, .rw, 2, 0x1388, 0, [(0, 20000, 10)], false, true, false, some ⟨0x40050400, 0x20, 0x0, 1, 0, 23, 13, 10⟩⟩,
  /- HoldCurrent -/ ⟨0x4110, 0x411F, 0x4, 0x4, .u16, .rw, 2, 0x1F4, 0, [(100, 2500, 1)], false, true, false, some ⟨0x40050404, 0x20, 0x0, 1, 0, 11, 0, 1⟩⟩,
  /- HoldBand -/ ⟨0x4110, 0x411F, 0x5, 0x5, .u16, .rw, 2, 0x64, 0, [(20, 500, 1)], false, true, false, some ⟨0x40050404, 0x20, 0x0, 1, 0, 20, 12, 1⟩⟩,
  /- PwmPeriod -/ ⟨0x4110, 0x411F, 0x6, 0x6, .u32, .rw, 2, 0x0, 0, [(0, 0, 1), (20000, 100000, 10)], false, true, false, some ⟨0x40050408, 0x20, 0x0, 1, 0, 31, 16, 10⟩⟩,
  /- PwmMinOn -/ ⟨0x4110, 0x411F, 0x7, 0x7, .u16, .rw, 2, 0x1388, 0, [(1000, 25500, 100)], false, true, false, some ⟨0x40050408, 0x20, 0x0, 1, 0, 15, 8, 100⟩⟩,
  /- PwmMinOff -/ ⟨0x4110, 0x411F, 0x8, 0x8, .u16, .rw, 2, 0xBB8, 0, [(1000, 25500, 100)], false, true, false, some ⟨0x40050408, 0x20, 0x0, 1, 0, 7, 0, 100⟩⟩,
  /- DipRatio -/ ⟨0x4110, 0x411F, 0x9, 0x9, .u8, .rw, 2, 0xF, 0, [(5, 45, 1)], false, true, false, some ⟨0x4005040C, 0x20, 0x0, 1, 0, 7, 0, 1⟩⟩,
  /- KinkRatio -/ ⟨0x4110, 0x411F, 0xA, 0xA, .u8, .rw, 2, 0xF, 0, [(5, 45, 1)], false, true, false, some ⟨0x4005040C, 0x20, 0x0, 1, 0, 15, 8, 1⟩⟩,
  /- OpenWindow -/ ⟨0x4110, 0x411F, 0xB, 0xB, .u8, .rw, 2, 0x28, 0, [(1, 63, 1)], false, true, false, some ⟨0x4005040C, 0x20, 0x0, 1, 0, 25, 20, 1⟩⟩,
  /- CloseWindow -/ ⟨0x4110, 0x411F, 0xC, 0xC, .u8, .rw, 2, 0x3C, 0, [(1, 63, 1)], false, true, false, some ⟨0x4005040C, 0x20, 0x0, 1, 0, 31, 26, 1⟩⟩,
  /- RecoveryKnee -/ ⟨0x4110, 0x411F, 0xD, 0xD, .u16, .rw, 2, 0xC8, 0, [(50, 1000, 1)], false, true, false, some ⟨0x40050410, 0x20, 0x0, 1, 0, 11, 0, 1⟩⟩,
  /- PeakEnergyMax -/ ⟨0x4110, 0x411F, 0xE, 0xE, .u16, .rw, 2, 0x3E8, 0, [(10, 5000, 1)], false, true, false, some ⟨0x40050410, 0x20, 0x0, 1, 0, 28, 16, 1⟩⟩,
  /- SolEnable -/ ⟨0x4120, 0x4120, 0x1, 0x40, .u8, .rw, 2, 0x0, 0, [(0, 1, 1)], false, true, false, some ⟨0x40051000, 0x0, 0x40, 1, 0, 31, 31, 1⟩⟩,
  /- SolProfile -/ ⟨0x4121, 0x4121, 0x1, 0x40, .u8, .rw, 2, 0x0, 0, [(0, 7, 1)], false, true, false, some ⟨0x40051000, 0x0, 0x40, 1, 0, 26, 24, 1⟩⟩,
  /- CoilResistanceRef -/ ⟨0x4122, 0x4122, 0x1, 0x40, .u16, .rw, 2, 0x0, 0, [(0, 0, 1), (1000, 60000, 1)], false, true, false, some ⟨0x40051000, 0x0, 0x40, 1, 0, 15, 0, 1⟩⟩,
  /- SolPhase -/ ⟨0x4123, 0x4123, 0x1, 0x40, .u8, .ro, 0, 0x0, 0, [], false, false, false, some ⟨0x40051004, 0x0, 0x40, 1, 0, 3, 0, 1⟩⟩,
  /- CoilResistance -/ ⟨0x4124, 0x4124, 0x1, 0x40, .u16, .ro, 0, 0x0, 0, [], false, false, false, some ⟨0x4005100C, 0x0, 0x40, 1, 0, 15, 0, 1⟩⟩,
  /- CoilTemperature -/ ⟨0x4125, 0x4125, 0x1, 0x40, .i16, .ro, 0, 0x0, 0, [], false, false, false, some ⟨0x40051010, 0x0, 0x40, 1, 0, 15, 0, 1⟩⟩,
  /- SolFault -/ ⟨0x4126, 0x4126, 0x1, 0x40, .u8, .ro, 0, 0x0, 0, [], false, false, false, none⟩,
  /- SolFaultClear -/ ⟨0x4127, 0x4127, 0x1, 0x40, .u8, .wo, 1, 0x0, 0, [(1, 1, 1)], false, false, false, none⟩,
  /- SolPulseCount -/ ⟨0x4128, 0x4128, 0x1, 0x40, .u32, .ro, 0, 0x0, 0, [], false, false, false, some ⟨0x40051020, 0x0, 0x40, 1, 0, 31, 0, 1⟩⟩,
  /- SolTestPulse -/ ⟨0x4129, 0x4129, 0x1, 0x40, .u16, .wo, 2, 0x0, 0, [(1, 1000, 1)], false, false, false, none⟩,
  /- SolUndetectedOpen -/ ⟨0x412A, 0x412A, 0x1, 0x40, .u32, .ro, 0, 0x0, 0, [], false, false, false, none⟩]

/-- Objects of the table of R240, part 1. -/
def objs09a : List ObjRow := [
  /- LvEnable -/ ⟨0x5100, 0x5100, 0x1, 0x10, .u8, .rw, 2, 0x0, 0, [(0, 1, 1)], false, false, false, some ⟨0x40060000, 0x0, 0x100, 1, 0, 31, 31, 1⟩⟩,
  /- LvCluster -/ ⟨0x5101, 0x5101, 0x1, 0x10, .u8, .rw, 2, 0x7F, 0, [(0, 63, 1), (127, 127, 1)], false, true, false, some ⟨0x40060000, 0x0, 0x100, 1, 0, 6, 0, 1⟩⟩,
  /- LvMode -/ ⟨0x5102, 0x5102, 0x1, 0x10, .u8, .rw, 2, 0x0, 0, [(0, 1, 1)], false, true, false, some ⟨0x40060000, 0x0, 0x100, 1, 0, 30, 30, 1⟩⟩,
  /- LvRoute -/ ⟨0x5103, 0x5103, 0x1, 0x10, .u32, .rw, 2, 0x0, 0, [], false, true, false, some ⟨0x40060034, 0x0, 0x100, 1, 0, 31, 0, 1⟩⟩,
  /- LvTriggers -/ ⟨0x5104, 0x5104, 0x1, 0x10, .u8, .rw, 2, 0x0, 0, [], false, true, false, some ⟨0x40060030, 0x0, 0x100, 1, 0, 7, 0, 1⟩⟩,
  /- LvPeriodMin -/ ⟨0x5105, 0x5105, 0x1, 0x10, .u32, .rw, 2, 0x4E200, 0, [(6400, 3200000000, 1)], false, true, false, some ⟨0x40060038, 0x0, 0x100, 1, 0, 31, 0, 1⟩⟩,
  /- LvPeriodMax -/ ⟨0x5106, 0x5106, 0x1, 0x10, .u32, .rw, 2, 0x2625A000, 0, [(6400, 3200000000, 1)], false, true, false, some ⟨0x4006003C, 0x0, 0x100, 1, 0, 31, 0, 1⟩⟩,
  /- LvRiseDelay -/ ⟨0x5107, 0x5107, 0x1, 0x20, .u16, .rw, 2, 0x0, 0, [(0, 65535, 1)], false, true, false, some ⟨0x40060018, 0x0, 0x100, 2, 4, 15, 0, 1⟩⟩,
  /- LvFallDelay -/ ⟨0x5108, 0x5108, 0x1, 0x20, .u16, .rw, 2, 0x0, 0, [(0, 65535, 1)], false, true, false, some ⟨0x40060018, 0x0, 0x100, 2, 4, 31, 16, 1⟩⟩,
  /- LvCmdTimeout -/ ⟨0x5109, 0x5109, 0x1, 0x10, .u16, .rw, 2, 0x0, 0, [(0, 1000, 1)], false, true, false, some ⟨0x40060000, 0x0, 0x100, 1, 0, 25, 16, 1⟩⟩,
  /- LvSyncPhase -/ ⟨0x510A, 0x510A, 0x1, 0x10, .u32, .rw, 2, 0x0, 0, [], false, true, false, some ⟨0x40060044, 0x0, 0x100, 1, 0, 31, 0, 1⟩⟩,
  /- LvPeriod -/ ⟨0x510B, 0x510B, 0x1, 0x10, .u32, .rw, 2, 0x4E200, 0, [], false, true, false, some ⟨0x40060008, 0x0, 0x100, 1, 0, 31, 0, 1⟩⟩,
  /- LvTime -/ ⟨0x510C, 0x510C, 0x1, 0x20, .u32, .rw, 2, 0x0, 0, [], false, true, false, some ⟨0x4006000C, 0x0, 0x100, 2, 4, 31, 0, 1⟩⟩,
  /- LvState -/ ⟨0x510D, 0x510D, 0x1, 0x10, .u8, .ro, 0, 0x0, 0, [], false, false, false, none⟩,
  /- LvPeriodCount -/ ⟨0x510E, 0x510E, 0x1, 0x10, .u32, .ro, 0, 0x0, 0, [], false, false, false, some ⟨0x4006004C, 0x0, 0x100, 1, 0, 31, 0, 1⟩⟩,
  /- LvSuppressed -/ ⟨0x510F, 0x510F, 0x1, 0x10, .u32, .ro, 0, 0x0, 0, [], false, false, false, none⟩,
  /- LvTest -/ ⟨0x5110, 0x5110, 0x1, 0x2, .u8, .rw, 2, 0x0, 0, [(0, 1, 1)], false, false, false, some ⟨0x40061000, 0x0, 0x10, 1, 0, 1, 1, 1⟩⟩,
  /- LvResync -/ ⟨0x5111, 0x5111, 0x1, 0x2, .u8, .wo, 2, 0x0, 0, [(1, 1, 1)], false, false, false, none⟩]

/-- Objects of the table of R263, part 1. -/
def objs10a : List ObjRow := [
  /- HingeEnable -/ ⟨0x5000, 0x5000, 0x1, 0x2, .u8, .rw, 2, 0x1, 0, [(0, 1, 1)], false, true, false, some ⟨0x40070000, 0x0, 0x8000, 1, 0, 0, 0, 1⟩⟩,
  /- HingeLoad -/ ⟨0x5000, 0x5000, 0x3, 0x4, .u8, .ro, 0, 0x0, 0, [], false, false, false, some ⟨0x40070008, 0x0, 0x8000, 1, 0, 7, 0, 1⟩⟩,
  /- SlotEnable -/ ⟨0x5010, 0x501F, 0x1, 0x1, .u8, .rw, 2, 0x0, 0, [(0, 1, 1)], false, false, false, some ⟨0x40070100, 0x80, 0x0, 1, 0, 31, 31, 1⟩⟩,
  /- SlotEnable -/ ⟨0x5020, 0x502F, 0x1, 0x1, .u8, .rw, 2, 0x0, 0, [(0, 1, 1)], false, false, false, some ⟨0x40078100, 0x80, 0x0, 1, 0, 31, 31, 1⟩⟩,
  /- SlotForm -/ ⟨0x5010, 0x501F, 0x2, 0x2, .u8, .rw, 2, 0x0, 0, [(0, 1, 1)], false, true, false, some ⟨0x40070100, 0x80, 0x0, 1, 0, 30, 30, 1⟩⟩,
  /- SlotForm -/ ⟨0x5020, 0x502F, 0x2, 0x2, .u8, .rw, 2, 0x0, 0, [(0, 1, 1)], false, true, false, some ⟨0x40078100, 0x80, 0x0, 1, 0, 30, 30, 1⟩⟩,
  /- SlotTrigger -/ ⟨0x5010, 0x501F, 0x3, 0x3, .u8, .rw, 2, 0x0, 0, [(0, 2, 1)], false, true, false, some ⟨0x40070100, 0x80, 0x0, 1, 0, 27, 26, 1⟩⟩,
  /- SlotTrigger -/ ⟨0x5020, 0x502F, 0x3, 0x3, .u8, .rw, 2, 0x0, 0, [(0, 2, 1)], false, true, false, some ⟨0x40078100, 0x80, 0x0, 1, 0, 27, 26, 1⟩⟩,
  /- SlotLine -/ ⟨0x5010, 0x501F, 0x4, 0x4, .u8, .rw, 2, 0x0, 0, [(0, 31, 1)], false, true, false, some ⟨0x40070100, 0x80, 0x0, 1, 0, 25, 21, 1⟩⟩,
  /- SlotLine -/ ⟨0x5020, 0x502F, 0x4, 0x4, .u8, .rw, 2, 0x0, 0, [(0, 31, 1)], false, true, false, some ⟨0x40078100, 0x80, 0x0, 1, 0, 25, 21, 1⟩⟩,
  /- SlotPeriod -/ ⟨0x5010, 0x501F, 0x5, 0x5, .u32, .rw, 2, 0x3E8, 0, [(20, 100000, 1)], false, true, false, some ⟨0x40070100, 0x80, 0x0, 1, 0, 16, 0, 1⟩⟩,
  /- SlotPeriod -/ ⟨0x5020, 0x502F, 0x5, 0x5, .u32, .rw, 2, 0x3E8, 0, [(20, 100000, 1)], false, true, false, some ⟨0x40078100, 0x80, 0x0, 1, 0, 16, 0, 1⟩⟩,
  /- SlotGroup -/ ⟨0x5010, 0x501F, 0x6, 0x6, .u8, .rw, 2, 0x0, 0, [(0, 7, 1)], false, true, false, some ⟨0x40070100, 0x80, 0x0, 1, 0, 20, 18, 1⟩⟩,
  /- SlotGroup -/ ⟨0x5020, 0x502F, 0x6, 0x6, .u8, .rw, 2, 0x0, 0, [(0, 7, 1)], false, true, false, some ⟨0x40078100, 0x80, 0x0, 1, 0, 20, 18, 1⟩⟩,
  /- SlotDest -/ ⟨0x5010, 0x501F, 0x7, 0x7, .u8, .rw, 2, 0x0, 0, [(0, 5, 1)], false, true, false, some ⟨0x40070104, 0x80, 0x0, 1, 0, 31, 29, 1⟩⟩,
  /- SlotDest -/ ⟨0x5020, 0x502F, 0x7, 0x7, .u8, .rw, 2, 0x0, 0, [(0, 5, 1)], false, true, false, some ⟨0x40078104, 0x80, 0x0, 1, 0, 31, 29, 1⟩⟩,
  /- SlotDestIndex -/ ⟨0x5010, 0x501F, 0x8, 0x8, .u8, .rw, 2, 0x0, 0, [(0, 31, 1)], false, true, false, some ⟨0x40070104, 0x80, 0x0, 1, 0, 28, 24, 1⟩⟩,
  /- SlotDestIndex -/ ⟨0x5020, 0x502F, 0x8, 0x8, .u8, .rw, 2, 0x0, 0, [(0, 31, 1)], false, true, false, some ⟨0x40078104, 0x80, 0x0, 1, 0, 28, 24, 1⟩⟩,
  /- SlotInput -/ ⟨0x5010, 0x501F, 0x9, 0x9, .u8, .rw, 2, 0x0, 0, [(0, 14, 1)], false, true, false, some ⟨0x40070104, 0x80, 0x0, 1, 0, 23, 20, 1⟩⟩,
  /- SlotInput -/ ⟨0x5020, 0x502F, 0x9, 0x9, .u8, .rw, 2, 0x0, 0, [(0, 14, 1)], false, true, false, some ⟨0x40078104, 0x80, 0x0, 1, 0, 23, 20, 1⟩⟩,
  /- SlotSchedSource -/ ⟨0x5010, 0x501F, 0xA, 0xA, .u8, .rw, 2, 0x0, 0, [(0, 15, 1)], false, true, false, some ⟨0x40070104, 0x80, 0x0, 1, 0, 19, 16, 1⟩⟩,
  /- SlotSchedSource -/ ⟨0x5020, 0x502F, 0xA, 0xA, .u8, .rw, 2, 0x0, 0, [(0, 15, 1)], false, true, false, some ⟨0x40078104, 0x80, 0x0, 1, 0, 19, 16, 1⟩⟩,
  /- SlotInvalidAction -/ ⟨0x5010, 0x501F, 0xB, 0xB, .u8, .rw, 2, 0x1, 0, [(0, 1, 1)], false, true, false, some ⟨0x40070100, 0x80, 0x0, 1, 0, 28, 28, 1⟩⟩,
  /- SlotInvalidAction -/ ⟨0x5020, 0x502F, 0xB, 0xB, .u8, .rw, 2, 0x1, 0, [(0, 1, 1)], false, true, false, some ⟨0x40078100, 0x80, 0x0, 1, 0, 28, 28, 1⟩⟩,
  /- SlotErrorExp -/ ⟨0x5010, 0x501F, 0xC, 0xC, .i16, .rw, 2, 0x0, 0, [(-32, 31, 1)], false, true, false, some ⟨0x40070108, 0x80, 0x0, 1, 0, 5, 0, 1⟩⟩,
  /- SlotErrorExp -/ ⟨0x5020, 0x502F, 0xC, 0xC, .i16, .rw, 2, 0x0, 0, [(-32, 31, 1)], false, true, false, some ⟨0x40078108, 0x80, 0x0, 1, 0, 5, 0, 1⟩⟩,
  /- SlotOutputExp -/ ⟨0x5010, 0x501F, 0xD, 0xD, .i16, .rw, 2, 0x0, 0, [(-32, 31, 1)], false, true, false, some ⟨0x40070108, 0x80, 0x0, 1, 0, 13, 8, 1⟩⟩,
  /- SlotOutputExp -/ ⟨0x5020, 0x502F, 0xD, 0xD, .i16, .rw, 2, 0x0, 0, [(-32, 31, 1)], false, true, false, some ⟨0x40078108, 0x80, 0x0, 1, 0, 13, 8, 1⟩⟩,
  /- InScale -/ ⟨0x5010, 0x501F, 0xE, 0xE, .f32, .rw, 2, 0x3F800000, 0, [], false, true, false, some ⟨0x40070110, 0x80, 0x0, 1, 0, 31, 0, 1⟩⟩,
  /- InScale -/ ⟨0x5020, 0x502F, 0xE, 0xE, .f32, .rw, 2, 0x3F800000, 0, [], false, true, false, some ⟨0x40078110, 0x80, 0x0, 1, 0, 31, 0, 1⟩⟩,
  /- InOffset -/ ⟨0x5010, 0x501F, 0xF, 0xF, .f32, .rw, 2, 0x0, 0, [], false, true, false, some ⟨0x40070114, 0x80, 0x0, 1, 0, 31, 0, 1⟩⟩,
  /- InOffset -/ ⟨0x5020, 0x502F, 0xF, 0xF, .f32, .rw, 2, 0x0, 0, [], false, true, false, some ⟨0x40078114, 0x80, 0x0, 1, 0, 31, 0, 1⟩⟩,
  /- InMin -/ ⟨0x5010, 0x501F, 0x10, 0x10, .f32, .rw, 2, 0xFF61B1E6, 0, [], false, true, false, some ⟨0x40070118, 0x80, 0x0, 1, 0, 31, 0, 1⟩⟩,
  /- InMin -/ ⟨0x5020, 0x502F, 0x10, 0x10, .f32, .rw, 2, 0xFF61B1E6, 0, [], false, true, false, some ⟨0x40078118, 0x80, 0x0, 1, 0, 31, 0, 1⟩⟩,
  /- InMax -/ ⟨0x5010, 0x501F, 0x11, 0x11, .f32, .rw, 2, 0x7F61B1E6, 0, [], false, true, false, some ⟨0x4007011C, 0x80, 0x0, 1, 0, 31, 0, 1⟩⟩,
  /- InMax -/ ⟨0x5020, 0x502F, 0x11, 0x11, .f32, .rw, 2, 0x7F61B1E6, 0, [], false, true, false, some ⟨0x4007811C, 0x80, 0x0, 1, 0, 31, 0, 1⟩⟩,
  /- OutMin -/ ⟨0x5010, 0x501F, 0x12, 0x12, .f32, .rw, 2, 0x0, 0, [], false, true, false, some ⟨0x40070120, 0x80, 0x0, 1, 0, 31, 0, 1⟩⟩,
  /- OutMin -/ ⟨0x5020, 0x502F, 0x12, 0x12, .f32, .rw, 2, 0x0, 0, [], false, true, false, some ⟨0x40078120, 0x80, 0x0, 1, 0, 31, 0, 1⟩⟩,
  /- OutMax -/ ⟨0x5010, 0x501F, 0x13, 0x13, .f32, .rw, 2, 0x3F800000, 0, [], false, true, false, some ⟨0x40070124, 0x80, 0x0, 1, 0, 31, 0, 1⟩⟩,
  /- OutMax -/ ⟨0x5020, 0x502F, 0x13, 0x13, .f32, .rw, 2, 0x3F800000, 0, [], false, true, false, some ⟨0x40078124, 0x80, 0x0, 1, 0, 31, 0, 1⟩⟩,
  /- OutInit -/ ⟨0x5010, 0x501F, 0x14, 0x14, .f32, .rw, 2, 0x0, 0, [], false, true, false, some ⟨0x40070128, 0x80, 0x0, 1, 0, 31, 0, 1⟩⟩,
  /- OutInit -/ ⟨0x5020, 0x502F, 0x14, 0x14, .f32, .rw, 2, 0x0, 0, [], false, true, false, some ⟨0x40078128, 0x80, 0x0, 1, 0, 31, 0, 1⟩⟩,
  /- OutSafe -/ ⟨0x5010, 0x501F, 0x15, 0x15, .f32, .rw, 2, 0x0, 0, [], false, true, false, some ⟨0x4007012C, 0x80, 0x0, 1, 0, 31, 0, 1⟩⟩,
  /- OutSafe -/ ⟨0x5020, 0x502F, 0x15, 0x15, .f32, .rw, 2, 0x0, 0, [], false, true, false, some ⟨0x4007812C, 0x80, 0x0, 1, 0, 31, 0, 1⟩⟩,
  /- OutScale -/ ⟨0x5010, 0x501F, 0x16, 0x16, .f32, .rw, 2, 0x3F800000, 0, [], false, true, false, some ⟨0x40070130, 0x80, 0x0, 1, 0, 31, 0, 1⟩⟩]

/-- Objects of the table of R263, part 2. -/
def objs10b : List ObjRow := [
  /- OutScale -/ ⟨0x5020, 0x502F, 0x16, 0x16, .f32, .rw, 2, 0x3F800000, 0, [], false, true, false, some ⟨0x40078130, 0x80, 0x0, 1, 0, 31, 0, 1⟩⟩,
  /- OutBias -/ ⟨0x5010, 0x501F, 0x17, 0x17, .f32, .rw, 2, 0x0, 0, [], false, true, false, some ⟨0x40070134, 0x80, 0x0, 1, 0, 31, 0, 1⟩⟩,
  /- OutBias -/ ⟨0x5020, 0x502F, 0x17, 0x17, .f32, .rw, 2, 0x0, 0, [], false, true, false, some ⟨0x40078134, 0x80, 0x0, 1, 0, 31, 0, 1⟩⟩,
  /- Target -/ ⟨0x5010, 0x501F, 0x18, 0x18, .f32, .rw, 1, 0x0, 0, [], false, false, false, some ⟨0x40070138, 0x80, 0x0, 1, 0, 31, 0, 1⟩⟩,
  /- Target -/ ⟨0x5020, 0x502F, 0x18, 0x18, .f32, .rw, 1, 0x0, 0, [], false, false, false, some ⟨0x40078138, 0x80, 0x0, 1, 0, 31, 0, 1⟩⟩,
  /- ProfileEnable -/ ⟨0x5010, 0x501F, 0x19, 0x19, .u8, .rw, 2, 0x0, 0, [(0, 1, 1)], false, true, false, some ⟨0x40070100, 0x80, 0x0, 1, 0, 29, 29, 1⟩⟩,
  /- ProfileEnable -/ ⟨0x5020, 0x502F, 0x19, 0x19, .u8, .rw, 2, 0x0, 0, [(0, 1, 1)], false, true, false, some ⟨0x40078100, 0x80, 0x0, 1, 0, 29, 29, 1⟩⟩,
  /- VelocityMax -/ ⟨0x5010, 0x501F, 0x1A, 0x1A, .f32, .rw, 2, 0x3F800000, 0, [], false, true, false, some ⟨0x4007013C, 0x80, 0x0, 1, 0, 31, 0, 1⟩⟩,
  /- VelocityMax -/ ⟨0x5020, 0x502F, 0x1A, 0x1A, .f32, .rw, 2, 0x3F800000, 0, [], false, true, false, some ⟨0x4007813C, 0x80, 0x0, 1, 0, 31, 0, 1⟩⟩,
  /- AccelMax -/ ⟨0x5010, 0x501F, 0x1B, 0x1B, .f32, .rw, 2, 0x41200000, 0, [], false, true, false, some ⟨0x40070140, 0x80, 0x0, 1, 0, 31, 0, 1⟩⟩,
  /- AccelMax -/ ⟨0x5020, 0x502F, 0x1B, 0x1B, .f32, .rw, 2, 0x41200000, 0, [], false, true, false, some ⟨0x40078140, 0x80, 0x0, 1, 0, 31, 0, 1⟩⟩,
  /- JerkMax -/ ⟨0x5010, 0x501F, 0x1C, 0x1C, .f32, .rw, 2, 0x42C80000, 0, [], false, true, false, some ⟨0x40070144, 0x80, 0x0, 1, 0, 31, 0, 1⟩⟩,
  /- JerkMax -/ ⟨0x5020, 0x502F, 0x1C, 0x1C, .f32, .rw, 2, 0x42C80000, 0, [], false, true, false, some ⟨0x40078144, 0x80, 0x0, 1, 0, 31, 0, 1⟩⟩,
  /- Breakpoint1 -/ ⟨0x5010, 0x501F, 0x1D, 0x1D, .f32, .rw, 2, 0x7E967699, 0, [], false, true, false, some ⟨0x40070148, 0x80, 0x0, 1, 0, 31, 0, 1⟩⟩,
  /- Breakpoint1 -/ ⟨0x5020, 0x502F, 0x1D, 0x1D, .f32, .rw, 2, 0x7E967699, 0, [], false, true, false, some ⟨0x40078148, 0x80, 0x0, 1, 0, 31, 0, 1⟩⟩,
  /- Breakpoint2 -/ ⟨0x5010, 0x501F, 0x1E, 0x1E, .f32, .rw, 2, 0x7E967699, 0, [], false, true, false, some ⟨0x4007014C, 0x80, 0x0, 1, 0, 31, 0, 1⟩⟩,
  /- Breakpoint2 -/ ⟨0x5020, 0x502F, 0x1E, 0x1E, .f32, .rw, 2, 0x7E967699, 0, [], false, true, false, some ⟨0x4007814C, 0x80, 0x0, 1, 0, 31, 0, 1⟩⟩,
  /- Breakpoint3 -/ ⟨0x5010, 0x501F, 0x1F, 0x1F, .f32, .rw, 2, 0x7E967699, 0, [], false, true, false, some ⟨0x40070150, 0x80, 0x0, 1, 0, 31, 0, 1⟩⟩,
  /- Breakpoint3 -/ ⟨0x5020, 0x502F, 0x1F, 0x1F, .f32, .rw, 2, 0x7E967699, 0, [], false, true, false, some ⟨0x40078150, 0x80, 0x0, 1, 0, 31, 0, 1⟩⟩,
  /- Breakpoint4 -/ ⟨0x5010, 0x501F, 0x20, 0x20, .f32, .rw, 2, 0x7E967699, 0, [], false, true, false, some ⟨0x40070154, 0x80, 0x0, 1, 0, 31, 0, 1⟩⟩,
  /- Breakpoint4 -/ ⟨0x5020, 0x502F, 0x20, 0x20, .f32, .rw, 2, 0x7E967699, 0, [], false, true, false, some ⟨0x40078154, 0x80, 0x0, 1, 0, 31, 0, 1⟩⟩,
  /- Hysteresis -/ ⟨0x5010, 0x501F, 0x21, 0x21, .f32, .rw, 2, 0x0, 0, [], false, true, false, some ⟨0x40070158, 0x80, 0x0, 1, 0, 31, 0, 1⟩⟩,
  /- Hysteresis -/ ⟨0x5020, 0x502F, 0x21, 0x21, .f32, .rw, 2, 0x0, 0, [], false, true, false, some ⟨0x40078158, 0x80, 0x0, 1, 0, 31, 0, 1⟩⟩,
  /- FirmwareInputTimeout -/ ⟨0x5010, 0x501F, 0x22, 0x22, .u32, .rw, 2, 0x2710, 0, [(1000, 10000000, 1)], false, true, false, some ⟨0x40070160, 0x80, 0x0, 1, 0, 31, 0, 1⟩⟩,
  /- FirmwareInputTimeout -/ ⟨0x5020, 0x502F, 0x22, 0x22, .u32, .rw, 2, 0x2710, 0, [(1000, 10000000, 1)], false, true, false, some ⟨0x40078160, 0x80, 0x0, 1, 0, 31, 0, 1⟩⟩,
  /- Measurement -/ ⟨0x5010, 0x501F, 0x23, 0x23, .f32, .ro, 0, 0x0, 0, [], false, false, false, some ⟨0x40070164, 0x80, 0x0, 1, 0, 31, 0, 1⟩⟩,
  /- Measurement -/ ⟨0x5020, 0x502F, 0x23, 0x23, .f32, .ro, 0, 0x0, 0, [], false, false, false, some ⟨0x40078164, 0x80, 0x0, 1, 0, 31, 0, 1⟩⟩,
  /- SetPoint -/ ⟨0x5010, 0x501F, 0x24, 0x24, .f32, .ro, 0, 0x0, 0, [], false, false, false, some ⟨0x40070168, 0x80, 0x0, 1, 0, 31, 0, 1⟩⟩,
  /- SetPoint -/ ⟨0x5020, 0x502F, 0x24, 0x24, .f32, .ro, 0, 0x0, 0, [], false, false, false, some ⟨0x40078168, 0x80, 0x0, 1, 0, 31, 0, 1⟩⟩,
  /- Output -/ ⟨0x5010, 0x501F, 0x25, 0x25, .f32, .ro, 0, 0x0, 0, [], false, false, false, some ⟨0x4007016C, 0x80, 0x0, 1, 0, 31, 0, 1⟩⟩,
  /- Output -/ ⟨0x5020, 0x502F, 0x25, 0x25, .f32, .ro, 0, 0x0, 0, [], false, false, false, some ⟨0x4007816C, 0x80, 0x0, 1, 0, 31, 0, 1⟩⟩,
  /- SlotRegion -/ ⟨0x5010, 0x501F, 0x26, 0x26, .u8, .ro, 0, 0x0, 0, [], false, false, false, some ⟨0x4007010C, 0x80, 0x0, 1, 0, 11, 9, 1⟩⟩,
  /- SlotRegion -/ ⟨0x5020, 0x502F, 0x26, 0x26, .u8, .ro, 0, 0x0, 0, [], false, false, false, some ⟨0x4007810C, 0x80, 0x0, 1, 0, 11, 9, 1⟩⟩,
  /- SlotState -/ ⟨0x5010, 0x501F, 0x27, 0x27, .u8, .ro, 0, 0x0, 0, [], false, false, false, none⟩,
  /- SlotState -/ ⟨0x5020, 0x502F, 0x27, 0x27, .u8, .ro, 0, 0x0, 0, [], false, false, false, none⟩,
  /- OverflowCount -/ ⟨0x5010, 0x501F, 0x28, 0x28, .u32, .ro, 0, 0x0, 0, [], false, false, false, none⟩,
  /- OverflowCount -/ ⟨0x5020, 0x502F, 0x28, 0x28, .u32, .ro, 0, 0x0, 0, [], false, false, false, none⟩,
  /- LateCommitCount -/ ⟨0x5010, 0x501F, 0x29, 0x29, .u32, .ro, 0, 0x0, 0, [], false, false, false, none⟩,
  /- LateCommitCount -/ ⟨0x5020, 0x502F, 0x29, 0x29, .u32, .ro, 0, 0x0, 0, [], false, false, false, none⟩,
  /- RegionChanges -/ ⟨0x5010, 0x501F, 0x2A, 0x2A, .u32, .ro, 0, 0x0, 0, [], false, false, false, none⟩,
  /- RegionChanges -/ ⟨0x5020, 0x502F, 0x2A, 0x2A, .u32, .ro, 0, 0x0, 0, [], false, false, false, none⟩,
  /- WinnerChanges -/ ⟨0x5010, 0x501F, 0x2B, 0x2B, .u32, .ro, 0, 0x0, 0, [], false, false, false, none⟩,
  /- WinnerChanges -/ ⟨0x5020, 0x502F, 0x2B, 0x2B, .u32, .ro, 0, 0x0, 0, [], false, false, false, none⟩,
  /- SlotCommit -/ ⟨0x5010, 0x501F, 0x2C, 0x2C, .u8, .wo, 2, 0x0, 0, [(1, 1, 1)], false, false, false, none⟩,
  /- SlotCommit -/ ⟨0x5020, 0x502F, 0x2C, 0x2C, .u8, .wo, 2, 0x0, 0, [(1, 1, 1)], false, false, false, none⟩]

/-- Objects of the table of R263, part 3. -/
def objs10c : List ObjRow := [
  /- Coefficient -/ ⟨0x5040, 0x504F, 0x1, 0x7, .i32, .rw, 2, 0x0, 0, [(-8388608, 8388607, 1)], false, true, false, some ⟨0x40071000, 0x100, 0x4, 1, 0, 23, 0, 1⟩⟩,
  /- Coefficient -/ ⟨0x5050, 0x505F, 0x1, 0x7, .i32, .rw, 2, 0x0, 0, [(-8388608, 8388607, 1)], false, true, false, some ⟨0x40079000, 0x100, 0x4, 1, 0, 23, 0, 1⟩⟩,
  /- Coefficient -/ ⟨0x5040, 0x504F, 0x9, 0xF, .i32, .rw, 2, 0x0, 0, [(-8388608, 8388607, 1)], false, true, false, some ⟨0x40071020, 0x100, 0x4, 1, 0, 23, 0, 1⟩⟩,
  /- Coefficient -/ ⟨0x5050, 0x505F, 0x9, 0xF, .i32, .rw, 2, 0x0, 0, [(-8388608, 8388607, 1)], false, true, false, some ⟨0x40079020, 0x100, 0x4, 1, 0, 23, 0, 1⟩⟩,
  /- Coefficient -/ ⟨0x5040, 0x504F, 0x11, 0x17, .i32, .rw, 2, 0x0, 0, [(-8388608, 8388607, 1)], false, true, false, some ⟨0x40071040, 0x100, 0x4, 1, 0, 23, 0, 1⟩⟩,
  /- Coefficient -/ ⟨0x5050, 0x505F, 0x11, 0x17, .i32, .rw, 2, 0x0, 0, [(-8388608, 8388607, 1)], false, true, false, some ⟨0x40079040, 0x100, 0x4, 1, 0, 23, 0, 1⟩⟩,
  /- Coefficient -/ ⟨0x5040, 0x504F, 0x19, 0x1F, .i32, .rw, 2, 0x0, 0, [(-8388608, 8388607, 1)], false, true, false, some ⟨0x40071060, 0x100, 0x4, 1, 0, 23, 0, 1⟩⟩,
  /- Coefficient -/ ⟨0x5050, 0x505F, 0x19, 0x1F, .i32, .rw, 2, 0x0, 0, [(-8388608, 8388607, 1)], false, true, false, some ⟨0x40079060, 0x100, 0x4, 1, 0, 23, 0, 1⟩⟩,
  /- Coefficient -/ ⟨0x5040, 0x504F, 0x21, 0x27, .i32, .rw, 2, 0x0, 0, [(-8388608, 8388607, 1)], false, true, false, some ⟨0x40071080, 0x100, 0x4, 1, 0, 23, 0, 1⟩⟩,
  /- Coefficient -/ ⟨0x5050, 0x505F, 0x21, 0x27, .i32, .rw, 2, 0x0, 0, [(-8388608, 8388607, 1)], false, true, false, some ⟨0x40079080, 0x100, 0x4, 1, 0, 23, 0, 1⟩⟩,
  /- CoefficientExp -/ ⟨0x5040, 0x504F, 0x8, 0x8, .u16, .rw, 2, 0x0, 0, [], false, true, false, some ⟨0x4007101C, 0x100, 0x4, 1, 0, 13, 0, 1⟩⟩,
  /- CoefficientExp -/ ⟨0x5050, 0x505F, 0x8, 0x8, .u16, .rw, 2, 0x0, 0, [], false, true, false, some ⟨0x4007901C, 0x100, 0x4, 1, 0, 13, 0, 1⟩⟩,
  /- CoefficientExp -/ ⟨0x5040, 0x504F, 0x10, 0x10, .u16, .rw, 2, 0x0, 0, [], false, true, false, some ⟨0x4007103C, 0x100, 0x4, 1, 0, 13, 0, 1⟩⟩,
  /- CoefficientExp -/ ⟨0x5050, 0x505F, 0x10, 0x10, .u16, .rw, 2, 0x0, 0, [], false, true, false, some ⟨0x4007903C, 0x100, 0x4, 1, 0, 13, 0, 1⟩⟩,
  /- CoefficientExp -/ ⟨0x5040, 0x504F, 0x18, 0x18, .u16, .rw, 2, 0x0, 0, [], false, true, false, some ⟨0x4007105C, 0x100, 0x4, 1, 0, 13, 0, 1⟩⟩,
  /- CoefficientExp -/ ⟨0x5050, 0x505F, 0x18, 0x18, .u16, .rw, 2, 0x0, 0, [], false, true, false, some ⟨0x4007905C, 0x100, 0x4, 1, 0, 13, 0, 1⟩⟩,
  /- CoefficientExp -/ ⟨0x5040, 0x504F, 0x20, 0x20, .u16, .rw, 2, 0x0, 0, [], false, true, false, some ⟨0x4007107C, 0x100, 0x4, 1, 0, 13, 0, 1⟩⟩,
  /- CoefficientExp -/ ⟨0x5050, 0x505F, 0x20, 0x20, .u16, .rw, 2, 0x0, 0, [], false, true, false, some ⟨0x4007907C, 0x100, 0x4, 1, 0, 13, 0, 1⟩⟩,
  /- CoefficientExp -/ ⟨0x5040, 0x504F, 0x28, 0x28, .u16, .rw, 2, 0x0, 0, [], false, true, false, some ⟨0x4007109C, 0x100, 0x4, 1, 0, 13, 0, 1⟩⟩,
  /- CoefficientExp -/ ⟨0x5050, 0x505F, 0x28, 0x28, .u16, .rw, 2, 0x0, 0, [], false, true, false, some ⟨0x4007909C, 0x100, 0x4, 1, 0, 13, 0, 1⟩⟩]

/-- Objects of the table of R293, part 1. -/
def objs11a : List ObjRow := [
  /- LsEnable -/ ⟨0x4200, 0x4200, 0x1, 0x18, .u8, .rw, 2, 0x0, 0, [(0, 1, 1)], false, true, false, some ⟨0x40081000, 0x0, 0x20, 1, 0, 31, 31, 1⟩⟩,
  /- LsLamp -/ ⟨0x4201, 0x4201, 0x1, 0x18, .u8, .rw, 2, 0x0, 0, [(0, 2, 1)], false, true, false, some ⟨0x40081000, 0x0, 0x20, 1, 0, 30, 29, 1⟩⟩,
  /- LsCommand -/ ⟨0x4202, 0x4202, 0x1, 0x18, .u16, .rw, 1, 0x0, 0, [], false, false, false, some ⟨0x4008100C, 0x0, 0x20, 1, 0, 15, 0, 1⟩⟩,
  /- LsCurrent -/ ⟨0x4203, 0x4203, 0x1, 0x18, .u16, .ro, 0, 0x0, 0, [], false, false, false, some ⟨0x40081008, 0x0, 0x20, 1, 0, 15, 0, 1⟩⟩,
  /- LsState -/ ⟨0x4204, 0x4204, 0x1, 0x18, .u16, .ro, 0, 0x0, 0, [], false, false, false, some ⟨0x40081004, 0x0, 0x20, 1, 0, 30, 16, 1⟩⟩,
  /- LsFaultClear -/ ⟨0x4205, 0x4205, 0x1, 0x18, .u8, .wo, 1, 0x0, 0, [(1, 1, 1)], false, false, false, none⟩,
  /- LsRating -/ ⟨0x4206, 0x4206, 0x1, 0x18, .u8, .const, 0, 0x0, 0, [], false, false, false, none⟩,
  /- LsSenseMode -/ ⟨0x4207, 0x4207, 0x1, 0x2, .u8, .rw, 2, 0x0, 0, [(0, 0, 1), (16, 27, 1)], false, true, false, none⟩,
  /- DioMode -/ ⟨0x4210, 0x4210, 0x1, 0x20, .u8, .rw, 2, 0x0, 0, [(0, 2, 1)], false, true, false, some ⟨0x40091000, 0x0, 0x20, 1, 0, 31, 30, 1⟩⟩,
  /- DioWireBreak -/ ⟨0x4211, 0x4211, 0x1, 0x20, .u8, .rw, 2, 0x0, 0, [(0, 1, 1)], false, true, false, some ⟨0x40091000, 0x0, 0x20, 1, 0, 29, 29, 1⟩⟩,
  /- DioDebounce -/ ⟨0x4212, 0x4212, 0x1, 0x20, .u8, .rw, 2, 0x3, 0, [(1, 15, 1)], false, true, false, some ⟨0x40091000, 0x0, 0x20, 1, 0, 27, 24, 1⟩⟩,
  /- DioSamplePeriod -/ ⟨0x4213, 0x4213, 0x1, 0x20, .u16, .rw, 2, 0x3E8, 0, [(100, 10000, 100)], false, true, false, some ⟨0x40091000, 0x0, 0x20, 1, 0, 6, 0, 100⟩⟩,
  /- DioCommand -/ ⟨0x4214, 0x4214, 0x1, 0x20, .u8, .rw, 1, 0x0, 0, [(0, 1, 1)], false, false, false, some ⟨0x40091008, 0x0, 0x20, 1, 0, 0, 0, 1⟩⟩,
  /- DioValue -/ ⟨0x4215, 0x4215, 0x1, 0x20, .u8, .ro, 0, 0x0, 0, [], false, false, false, none⟩,
  /- DioState -/ ⟨0x4216, 0x4216, 0x1, 0x20, .u16, .ro, 0, 0x0, 0, [], false, false, false, some ⟨0x40091004, 0x0, 0x20, 1, 0, 19, 13, 1⟩⟩,
  /- WdgTimeout -/ ⟨0x4220, 0x4220, 0x1, 0x2, .u16, .rw, 2, 0x32, 0, [(10, 1000, 1)], false, true, false, some ⟨0x40080000, 0x0, 0x100, 1, 0, 25, 16, 1⟩⟩,
  /- WdgOwner -/ ⟨0x4221, 0x4221, 0x1, 0x2, .u16, .rw, 2, 0xFFFF, 0, [(0, 1023, 1), (65535, 65535, 1)], false, true, false, none⟩,
  /- WdgHold -/ ⟨0x4222, 0x4222, 0x1, 0x2, .u8, .rw, 2, 0x0, 0, [(0, 1, 1)], false, false, false, some ⟨0x40080000, 0x0, 0x100, 1, 0, 31, 31, 1⟩⟩,
  /- WdgState -/ ⟨0x4223, 0x4223, 0x1, 0x2, .u8, .ro, 0, 0x0, 0, [], false, false, false, some ⟨0x40080008, 0x0, 0x100, 1, 0, 1, 0, 1⟩⟩,
  /- WdgExpiryCount -/ ⟨0x4224, 0x4224, 0x1, 0x2, .u32, .ro, 0, 0x0, 0, [], false, false, false, none⟩,
  /- FailsafeSol -/ ⟨0x4225, 0x4225, 0x1, 0x2, .u32, .rw, 2, 0x0, 0, [], false, true, false, some ⟨0x4008000C, 0x0, 0x100, 1, 0, 31, 0, 1⟩⟩,
  /- FailsafeLs -/ ⟨0x4226, 0x4226, 0x1, 0x2, .u16, .rw, 2, 0x0, 0, [(0, 4095, 1)], false, true, false, some ⟨0x40080010, 0x0, 0x100, 1, 0, 15, 0, 1⟩⟩,
  /- FailsafeDio -/ ⟨0x4227, 0x4227, 0x1, 0x2, .u16, .rw, 2, 0x0, 0, [], false, true, false, some ⟨0x40080014, 0x0, 0x100, 1, 0, 15, 0, 1⟩⟩,
  /- SinEnable -/ ⟨0x4230, 0x4230, 0x1, 0x8, .u8, .rw, 2, 0x0, 0, [(0, 1, 1)], false, true, false, some ⟨0x40090100, 0x0, 0x10, 1, 0, 31, 31, 1⟩⟩,
  /- SinChannelA -/ ⟨0x4231, 0x4231, 0x1, 0x8, .u8, .rw, 2, 0x0, 0, [(0, 15, 1)], false, true, false, some ⟨0x40090100, 0x0, 0x10, 1, 0, 24, 21, 1⟩⟩,
  /- SinChannelB -/ ⟨0x4232, 0x4232, 0x1, 0x8, .u8, .rw, 2, 0x1, 0, [(0, 15, 1)], false, true, false, some ⟨0x40090100, 0x0, 0x10, 1, 0, 28, 25, 1⟩⟩,
  /- SinDiscrepancyTime -/ ⟨0x4233, 0x4233, 0x1, 0x8, .u16, .rw, 2, 0x64, 0, [(10, 1000, 1)], false, true, false, some ⟨0x40090100, 0x0, 0x10, 1, 0, 9, 0, 1⟩⟩,
  /- SinState -/ ⟨0x4234, 0x4234, 0x1, 0x8, .u8, .ro, 0, 0x0, 0, [], false, false, false, some ⟨0x40090104, 0x0, 0x10, 1, 0, 1, 0, 1⟩⟩,
  /- SinAck -/ ⟨0x4235, 0x4235, 0x1, 0x8, .u8, .wo, 1, 0x0, 0, [(1, 1, 1)], false, false, false, none⟩,
  /- SinDiscrepancyCount -/ ⟨0x4236, 0x4236, 0x1, 0x8, .u32, .ro, 0, 0x0, 0, [], false, false, false, none⟩,
  /- AclState -/ ⟨0x4240, 0x4240, 0x1, 0x1, .u8, .ro, 0, 0x0, 0, [], false, false, false, none⟩,
  /- AclAck -/ ⟨0x4240, 0x4240, 0x2, 0x2, .u8, .wo, 1, 0x0, 0, [(1, 1, 1)], false, false, false, none⟩,
  /- AclDiscrepancyCount -/ ⟨0x4240, 0x4240, 0x3, 0x3, .u32, .ro, 0, 0x0, 0, [], false, false, false, none⟩,
  /- CloseState -/ ⟨0x4240, 0x4240, 0x4, 0x4, .u16, .ro, 0, 0x0, 0, [], false, false, false, none⟩,
  /- CloseCount -/ ⟨0x4240, 0x4240, 0x5, 0x5, .u32, .ro, 0, 0x0, 0, [], false, false, false, none⟩,
  /- AiMode -/ ⟨0x4250, 0x4250, 0x1, 0x10, .u8, .rw, 2, 0x0, 0, [(0, 3, 1)], false, true, false, some ⟨0x400A1000, 0x0, 0x20, 1, 0, 31, 30, 1⟩⟩,
  /- AiPeriod -/ ⟨0x4251, 0x4251, 0x1, 0x10, .u32, .rw, 2, 0x3E8, 0, [(100, 1000000, 1)], false, true, false, some ⟨0x400A1010, 0x0, 0x20, 1, 0, 31, 0, 1⟩⟩,
  /- AiAverage -/ ⟨0x4252, 0x4252, 0x1, 0x10, .u8, .rw, 2, 0x1, 0, [(1, 1, 1), (2, 2, 1), (4, 4, 1), (8, 8, 1), (16, 16, 1)], false, true, false, none⟩,
  /- AiTriggerLine -/ ⟨0x4253, 0x4253, 0x1, 0x10, .u8, .rw, 2, 0xFF, 0, [(0, 31, 1), (255, 255, 1)], false, true, false, none⟩,
  /- AiValue -/ ⟨0x4254, 0x4254, 0x1, 0x10, .i32, .ro, 0, 0x0, 0, [], false, false, false, none⟩,
  /- AiState -/ ⟨0x4255, 0x4255, 0x1, 0x10, .u8, .ro, 0, 0x0, 0, [], false, false, false, some ⟨0x400A1004, 0x0, 0x20, 1, 0, 7, 0, 1⟩⟩,
  /- AiSensorSupply -/ ⟨0x4256, 0x4256, 0x1, 0x2, .u8, .rw, 2, 0x1, 0, [(0, 1, 1)], false, true, false, some ⟨0x400A0004, 0x0, 0x100, 1, 0, 0, 0, 1⟩⟩]

/-- Objects of the table of R313, part 1. -/
def objs12a : List ObjRow := [
  /- SillEnable -/ ⟨0x4300, 0x4300, 0x1, 0x10, .u8, .rw, 2, 0x0, 0, [(0, 1, 1)], false, true, true, some ⟨0x400D0000, 0x0, 0x100, 1, 0, 31, 31, 1⟩⟩,
  /- SillLinkState -/ ⟨0x4301, 0x4301, 0x1, 0x10, .u8, .ro, 0, 0x0, 0, [], false, false, false, some ⟨0x400D0004, 0x0, 0x100, 1, 0, 2, 0, 1⟩⟩,
  /- SillTileCount -/ ⟨0x4302, 0x4302, 0x1, 0x10, .u8, .ro, 0, 0x0, 0, [], false, false, false, some ⟨0x400D0004, 0x0, 0x100, 1, 0, 12, 8, 1⟩⟩,
  /- SillLinkTimeout -/ ⟨0x4303, 0x4303, 0x1, 0x10, .u8, .rw, 2, 0x5, 0, [(2, 50, 1)], false, true, true, some ⟨0x400D0000, 0x0, 0x100, 1, 0, 13, 8, 1⟩⟩,
  /- SillPollInterval -/ ⟨0x4304, 0x4304, 0x1, 0x10, .u16, .rw, 2, 0xFA, 0, [(100, 1000, 50)], false, true, true, some ⟨0x400D0000, 0x0, 0x100, 1, 0, 7, 0, 50⟩⟩,
  /- SillReenumerate -/ ⟨0x4305, 0x4305, 0x1, 0x10, .u8, .wo, 2, 0x0, 0, [(1, 1, 1)], false, false, false, none⟩,
  /- SillUndeliverable -/ ⟨0x4306, 0x4306, 0x1, 0x10, .u32, .ro, 0, 0x0, 0, [], false, false, false, none⟩,
  /- SillLateOffs -/ ⟨0x4307, 0x4307, 0x1, 0x10, .u32, .ro, 0, 0x0, 0, [], false, false, false, none⟩,
  /- SillLinkLossCount -/ ⟨0x4308, 0x4308, 0x1, 0x10, .u32, .ro, 0, 0x0, 0, [], false, false, false, none⟩,
  /- TileState -/ ⟨0x4310, 0x431F, 0x1, 0x10, .u32, .ro, 0, 0x0, 0, [], false, false, false, some ⟨0x400D1000, 0x100, 0x8, 1, 0, 31, 0, 1⟩⟩,
  /- TileSerial -/ ⟨0x4320, 0x432F, 0x1, 0x10, .u32, .ro, 0, 0x0, 0, [], false, false, false, none⟩]

/-- Objects of the table of R342, part 1. -/
def objs13a : List ObjRow := [
  /- IbEnable -/ ⟨0x1300, 0x1300, 0x1, 0x4, .u8, .rw, 2, 0x0, 0, [(0, 1, 1)], false, true, true, some ⟨0x400B0000, 0x0, 0x8000, 1, 0, 31, 31, 1⟩⟩,
  /- IbTermination -/ ⟨0x1301, 0x1301, 0x1, 0x4, .u8, .rw, 2, 0x0, 0, [(0, 1, 1)], false, true, false, some ⟨0x400B0000, 0x0, 0x8000, 1, 0, 30, 30, 1⟩⟩,
  /- IbState -/ ⟨0x1302, 0x1302, 0x1, 0x4, .u8, .ro, 0, 0x0, 0, [], false, false, false, none⟩,
  /- RoundLength -/ ⟨0x1303, 0x1303, 0x1, 0x1, .u16, .rw, 2, 0xA, 0, [(5, 50, 1)], false, true, true, none⟩,
  /- OpenLength -/ ⟨0x1303, 0x1303, 0x2, 0x2, .u16, .rw, 2, 0x7D0, 0, [(1000, 20000, 250)], false, true, true, none⟩,
  /- WindowTable -/ ⟨0x1304, 0x1304, 0x1, 0x4, .dom, .rw, 2, 0x0, 128, [], false, true, true, none⟩,
  /- GuardianEnforce -/ ⟨0x1305, 0x1305, 0x1, 0x4, .u8, .rw, 2, 0x1, 0, [(0, 1, 1)], false, true, false, some ⟨0x400B0000, 0x0, 0x8000, 1, 0, 29, 29, 1⟩⟩,
  /- IbSilence -/ ⟨0x1306, 0x1306, 0x1, 0x1, .time64, .wo, 2, 0x0, 0, [], false, false, false, none⟩,
  /- EdgeEvents -/ ⟨0x1307, 0x1307, 0x1, 0x4, .u32, .ro, 0, 0x0, 0, [], false, false, false, none⟩,
  /- Intrusions -/ ⟨0x1308, 0x1308, 0x1, 0x4, .u32, .ro, 0, 0x0, 0, [], false, false, false, none⟩,
  /- IbDiscarded -/ ⟨0x1309, 0x1309, 0x1, 0x4, .u32, .ro, 0, 0x0, 0, [], false, false, false, none⟩,
  /- IbDuplicates -/ ⟨0x130A, 0x130A, 0x1, 0x4, .u32, .ro, 0, 0x0, 0, [], false, false, false, none⟩,
  /- IbTooOld -/ ⟨0x130B, 0x130B, 0x1, 0x4, .u32, .ro, 0, 0x0, 0, [], false, false, false, none⟩,
  /- IbNoMatch -/ ⟨0x130C, 0x130C, 0x1, 0x4, .u32, .ro, 0, 0x0, 0, [], false, false, false, none⟩,
  /- TxDisplaced -/ ⟨0x130D, 0x130D, 0x1, 0x4, .u32, .ro, 0, 0x0, 0, [], false, false, false, none⟩,
  /- ReceiveObjectsFree -/ ⟨0x130E, 0x130E, 0x1, 0x4, .u16, .ro, 0, 0xFB, 0, [], false, false, false, none⟩,
  /- NodeTimeout -/ ⟨0x1310, 0x1310, 0x1, 0x1, .u16, .rw, 2, 0x12C, 0, [(100, 5000, 1)], false, true, false, none⟩,
  /- NodeHoldTime -/ ⟨0x1310, 0x1310, 0x2, 0x2, .u16, .rw, 2, 0x64, 0, [(20, 1000, 1)], false, true, true, none⟩,
  /- NodeState -/ ⟨0x1320, 0x1323, 0x1, 0x40, .u8, .ro, 0, 0x0, 0, [], false, false, false, none⟩,
  /- NodeIntrusions -/ ⟨0x1324, 0x1327, 0x1, 0x40, .u32, .ro, 0, 0x0, 0, [], false, false, false, none⟩,
  /- NodeRefusals -/ ⟨0x1328, 0x132B, 0x1, 0x40, .u32, .ro, 0, 0x0, 0, [], false, false, false, none⟩,
  /- RendezvousEnable -/ ⟨0x1340, 0x1340, 0x1, 0x1, .u8, .rw, 2, 0x0, 0, [(0, 1, 1)], false, true, false, none⟩,
  /- RendezvousOffset -/ ⟨0x1340, 0x1340, 0x2, 0x2, .u16, .rw, 2, 0x0, 0, [(0, 999, 1)], false, true, false, none⟩,
  /- RendezvousPartnerState -/ ⟨0x1340, 0x1340, 0x3, 0x3, .u8, .ro, 0, 0x0, 0, [], false, false, false, none⟩]

/-- Objects of the table of R365, part 1. -/
def objs14a : List ObjRow := [
  /- TransomState -/ ⟨0x1100, 0x1100, 0x1, 0x1, .u8, .ro, 0, 0x0, 0, [], false, false, false, none⟩,
  /- TransomDropped -/ ⟨0x1100, 0x1100, 0x2, 0x2, .u32, .ro, 0, 0x0, 0, [], false, false, false, none⟩,
  /- HostStop -/ ⟨0x1100, 0x1100, 0x3, 0x3, .u8, .rw, 1, 0x0, 0, [(0, 1, 1)], false, false, false, none⟩,
  /- HostStopState -/ ⟨0x1100, 0x1100, 0x4, 0x4, .u8, .ro, 0, 0x0, 0, [], false, false, false, none⟩,
  /- StopLaneLossAction -/ ⟨0x1100, 0x1100, 0x5, 0x5, .u8, .rw, 2, 0x1, 0, [(0, 1, 1)], false, true, false, none⟩,
  /- HostCanMode -/ ⟨0x1110, 0x1110, 0x1, 0x1, .u8, .rw, 2, 0x1, 0, [(0, 2, 1)], false, true, true, none⟩,
  /- HostCanMode -/ ⟨0x1110, 0x1110, 0x2, 0x2, .u8, .rw, 2, 0x2, 0, [(0, 2, 1)], false, true, true, none⟩,
  /- HostCanAddress -/ ⟨0x1111, 0x1111, 0x1, 0x2, .u8, .rw, 2, 0x80, 0, [(0, 253, 1)], false, true, true, none⟩,
  /- HostCanTermination -/ ⟨0x1112, 0x1112, 0x1, 0x2, .u8, .rw, 2, 0x0, 0, [(0, 1, 1)], false, true, false, none⟩,
  /- HostIpAddress -/ ⟨0x1120, 0x1120, 0x1, 0x1, .u32, .rw, 2, 0xC0A84A0A, 0, [], false, true, true, none⟩,
  /- HostIpAddress -/ ⟨0x1120, 0x1120, 0x2, 0x2, .u32, .rw, 2, 0xC0A84A0B, 0, [], false, true, true, none⟩,
  /- HostIpAddress -/ ⟨0x1120, 0x1120, 0x3, 0x3, .u32, .rw, 2, 0xC0A84A0C, 0, [], false, true, true, none⟩,
  /- HostNetmask -/ ⟨0x1121, 0x1121, 0x1, 0x3, .u32, .rw, 2, 0xFFFFFF00, 0, [], false, true, true, none⟩,
  /- HostPhyRole -/ ⟨0x1122, 0x1122, 0x1, 0x3, .u8, .rw, 2, 0x0, 0, [(0, 1, 1)], false, true, true, none⟩,
  /- HostLinkState -/ ⟨0x1123, 0x1123, 0x1, 0x3, .u8, .ro, 0, 0x0, 0, [], false, false, false, none⟩,
  /- HostNoPort -/ ⟨0x1124, 0x1124, 0x1, 0x1, .u32, .ro, 0, 0x0, 0, [], false, false, false, none⟩,
  /- DictUdpPort -/ ⟨0x1130, 0x1130, 0x1, 0x1, .u16, .rw, 2, 0xB8C4, 0, [(1024, 65535, 1)], false, true, true, none⟩,
  /- PoseInPort -/ ⟨0x1130, 0x1130, 0x2, 0x2, .u16, .rw, 2, 0xB8C6, 0, [(1024, 65535, 1)], false, true, true, none⟩,
  /- AsAppliedPort -/ ⟨0x1130, 0x1130, 0x3, 0x3, .u16, .rw, 2, 0xB8C7, 0, [(1024, 65535, 1)], false, true, true, none⟩,
  /- AsAppliedDest -/ ⟨0x1130, 0x1130, 0x4, 0x4, .u32, .rw, 2, 0x0, 0, [], false, true, false, none⟩,
  /- LedgerUdpPort -/ ⟨0x1130, 0x1130, 0x5, 0x5, .u16, .rw, 2, 0xB8C8, 0, [(1024, 65535, 1)], false, true, true, none⟩,
  /- LedgerGroup -/ ⟨0x1130, 0x1130, 0x6, 0x6, .u32, .rw, 2, 0xEFFF4A01, 0, [], false, true, false, none⟩,
  /- TransferTimeout -/ ⟨0x1140, 0x1140, 0x1, 0x1, .u16, .rw, 2, 0x64, 0, [(20, 1000, 1)], false, true, false, none⟩,
  /- TransfersTimedOut -/ ⟨0x1140, 0x1140, 0x2, 0x2, .u32, .ro, 0, 0x0, 0, [], false, false, false, none⟩,
  /- DictRequests -/ ⟨0x1140, 0x1140, 0x3, 0x3, .u32, .ro, 0, 0x0, 0, [], false, false, false, none⟩,
  /- DictAborts -/ ⟨0x1140, 0x1140, 0x4, 0x4, .u32, .ro, 0, 0x0, 0, [], false, false, false, none⟩,
  /- KeyholeState -/ ⟨0x1150, 0x1150, 0x1, 0x1, .u8, .ro, 0, 0x0, 0, [], false, false, false, none⟩,
  /- PoseInCount -/ ⟨0x1160, 0x1160, 0x1, 0x1, .u32, .ro, 0, 0x0, 0, [], false, false, false, none⟩,
  /- PoseInOverwritten -/ ⟨0x1160, 0x1160, 0x2, 0x2, .u32, .ro, 0, 0x0, 0, [], false, false, false, none⟩]

/-- Objects of the table of R382, part 1. -/
def objs15a : List ObjRow := [
  /- VendorId -/ ⟨0x1000, 0x1000, 0x1, 0x1, .u32, .const, 0, 0x535456, 0, [], false, false, false, none⟩,
  /- ProductCode -/ ⟨0x1000, 0x1000, 0x2, 0x2, .u32, .const, 0, 0x7400, 0, [], false, false, false, none⟩,
  /- HardwareIssue -/ ⟨0x1000, 0x1000, 0x3, 0x3, .u16, .const, 0, 0x0, 0, [], false, false, false, none⟩,
  /- SerialNumber -/ ⟨0x1000, 0x1000, 0x4, 0x4, .u32, .const, 0, 0x0, 0, [], false, false, false, none⟩,
  /- ManufactureDay -/ ⟨0x1000, 0x1000, 0x5, 0x5, .u16, .const, 0, 0x0, 0, [], false, false, false, none⟩,
  /- DeviceName -/ ⟨0x1000, 0x1000, 0x6, 0x6, .str, .const, 0, 0x0, 32, [], false, false, false, none⟩,
  /- BootImageVersion -/ ⟨0x1001, 0x1001, 0x1, 0x2, .u32, .ro, 0, 0x0, 0, [], false, false, false, none⟩,
  /- ActiveImage -/ ⟨0x1001, 0x1001, 0x3, 0x3, .u8, .ro, 0, 0x0, 0, [], false, false, false, none⟩,
  /- PolicyName -/ ⟨0x1001, 0x1001, 0x4, 0x4, .str, .ro, 0, 0x0, 32, [], false, false, false, none⟩,
  /- PolicyVersion -/ ⟨0x1001, 0x1001, 0x5, 0x5, .u32, .ro, 0, 0x0, 0, [], false, false, false, none⟩,
  /- SigningKey -/ ⟨0x1001, 0x1001, 0x6, 0x6, .u8, .ro, 0, 0x0, 0, [], false, false, false, none⟩,
  /- PackageNumber -/ ⟨0x1002, 0x1002, 0x1, 0x1, .u16, .rw, 2, 0x0, 0, [(0, 10000, 1)], false, true, true, none⟩,
  /- PackageLabel -/ ⟨0x1002, 0x1002, 0x2, 0x2, .str, .rw, 1, 0x0, 32, [], false, true, false, none⟩,
  /- SystemMember -/ ⟨0x1002, 0x1002, 0x3, 0x3, .u8, .ro, 0, 0x0, 0, [], false, false, false, none⟩,
  /- GroupAddress -/ ⟨0x1003, 0x1003, 0x1, 0x8, .u16, .rw, 2, 0x0, 0, [(0, 0, 1), (16128, 16382, 1)], false, true, false, none⟩,
  /- IsoManufacturerCode -/ ⟨0x1004, 0x1004, 0x1, 0x1, .u16, .rw, 3, 0x0, 0, [(0, 2047, 1)], false, true, false, none⟩,
  /- IsoIndustryGroup -/ ⟨0x1004, 0x1004, 0x2, 0x2, .u8, .const, 0, 0x2, 0, [], false, false, false, none⟩,
  /- IsoDeviceClass -/ ⟨0x1004, 0x1004, 0x3, 0x3, .u8, .rw, 2, 0x6, 0, [(0, 127, 1)], false, true, false, none⟩,
  /- IsoDeviceClassInstance -/ ⟨0x1004, 0x1004, 0x4, 0x4, .u8, .rw, 2, 0x0, 0, [(0, 15, 1)], false, true, false, none⟩,
  /- IsoFunction -/ ⟨0x1004, 0x1004, 0x5, 0x5, .u8, .rw, 2, 0x82, 0, [(0, 255, 1)], false, true, false, none⟩,
  /- IsoFunctionInstance -/ ⟨0x1004, 0x1004, 0x6, 0x6, .u8, .rw, 2, 0x0, 0, [(0, 31, 1)], false, true, false, none⟩,
  /- IsoEcuInstance -/ ⟨0x1004, 0x1004, 0x7, 0x7, .u8, .rw, 2, 0x0, 0, [(0, 7, 1)], false, true, false, none⟩,
  /- IsoName -/ ⟨0x1004, 0x1004, 0x8, 0x8, .u64, .ro, 0, 0x0, 0, [], false, false, false, none⟩,
  /- DictionaryIssue -/ ⟨0x1005, 0x1005, 0x1, 0x1, .u16, .const, 0, 0x1, 0, [], false, false, false, none⟩,
  /- RestoreDefaults -/ ⟨0x1005, 0x1005, 0x2, 0x2, .u8, .wo, 2, 0x0, 0, [(1, 1, 1)], false, false, false, none⟩,
  /- ConfigJournalUse -/ ⟨0x1005, 0x1005, 0x3, 0x3, .u8, .ro, 0, 0x0, 0, [], false, false, false, none⟩,
  /- ConfigWriteCount -/ ⟨0x1005, 0x1005, 0x4, 0x4, .u32, .ro, 0, 0x0, 0, [], false, false, false, none⟩,
  /- ConfigWriteFailures -/ ⟨0x1005, 0x1005, 0x5, 0x5, .u32, .ro, 0, 0x0, 0, [], false, false, false, none⟩,
  /- DescribeIndex -/ ⟨0x1006, 0x1006, 0x1, 0x1, .u16, .rw, 0, 0x0, 0, [], true, false, false, none⟩,
  /- DescribeSubindex -/ ⟨0x1006, 0x1006, 0x2, 0x2, .u8, .rw, 0, 0x0, 0, [], true, false, false, none⟩,
  /- DescribeResult -/ ⟨0x1006, 0x1006, 0x3, 0x3, .u32, .ro, 0, 0x0, 0, [], false, false, false, none⟩,
  /- DescribeSize -/ ⟨0x1006, 0x1006, 0x4, 0x4, .u32, .ro, 0, 0x0, 0, [], false, false, false, none⟩]

/-- Objects of the table of R436, part 1. -/
def objs17a : List ObjRow := [
  /- DeadboltCount -/ ⟨0x2100, 0x2100, 0x1, 0x1, .u32, .ro, 0, 0x0, 0, [], false, false, false, some ⟨0x400E0084, 0x0, 0x0, 1, 0, 31, 0, 1⟩⟩,
  /- DeadboltRelease -/ ⟨0x2100, 0x2100, 0x2, 0x2, .u8, .wo, 2, 0x0, 0, [(0, 63, 1)], false, false, false, none⟩,
  /- DeadboltLog -/ ⟨0x2100, 0x2100, 0x3, 0x3, .dom, .ro, 0, 0x0, 2048, [], false, false, false, none⟩,
  /- DeadboltCauseCount -/ ⟨0x2100, 0x2100, 0x4, 0x7, .u32, .ro, 0, 0x0, 0, [], false, false, false, none⟩,
  /- WindowTable -/ ⟨0x2101, 0x2101, 0x1, 0x1, .dom, .ro, 0, 0x0, 65536, [], false, false, true, none⟩,
  /- WindowExtra -/ ⟨0x2101, 0x2101, 0x2, 0x2, .dom, .rw, 2, 0x0, 4096, [], false, true, true, none⟩,
  /- WindowExtraCount -/ ⟨0x2101, 0x2101, 0x3, 0x3, .u16, .rw, 2, 0x0, 0, [(0, 256, 1)], false, true, true, none⟩,
  /- ClusterHalt -/ ⟨0x2102, 0x2102, 0x1, 0x1, .u8, .wo, 2, 0x0, 0, [(0, 63, 1)], false, false, false, none⟩,
  /- ClusterResume -/ ⟨0x2102, 0x2102, 0x2, 0x2, .u8, .wo, 2, 0x0, 0, [(0, 63, 1)], false, false, false, none⟩,
  /- KeyState -/ ⟨0x2110, 0x2110, 0x1, 0x8, .u8, .ro, 0, 0x0, 0, [], false, false, false, none⟩,
  /- KeyHash -/ ⟨0x2111, 0x2111, 0x1, 0x8, .dom, .ro, 0, 0x0, 32, [], false, false, false, none⟩,
  /- KeyProgram -/ ⟨0x2112, 0x2112, 0x1, 0x1, .dom, .wo, 3, 0x0, 68, [], false, false, false, none⟩,
  /- KeyRevoke -/ ⟨0x2112, 0x2112, 0x2, 0x2, .dom, .wo, 3, 0x0, 68, [], false, false, false, none⟩,
  /- SessionChallenge -/ ⟨0x2120, 0x2120, 0x1, 0x1, .dom, .ro, 0, 0x0, 16, [], true, false, false, none⟩,
  /- SessionResponse -/ ⟨0x2120, 0x2120, 0x2, 0x2, .dom, .wo, 0, 0x0, 36, [], false, false, false, none⟩,
  /- SessionToken -/ ⟨0x2120, 0x2120, 0x3, 0x3, .u32, .ro, 0, 0x0, 0, [], true, false, false, none⟩,
  /- SessionLevel -/ ⟨0x2120, 0x2120, 0x4, 0x4, .u8, .ro, 0, 0x0, 0, [], true, false, false, none⟩,
  /- SessionEnd -/ ⟨0x2120, 0x2120, 0x5, 0x5, .u32, .wo, 1, 0x0, 0, [], false, false, false, none⟩,
  /- SessionIdleTimeout -/ ⟨0x2120, 0x2120, 0x6, 0x6, .u16, .rw, 3, 0x12C, 0, [(30, 3600, 1)], false, true, false, none⟩,
  /- SessionLifetime -/ ⟨0x2120, 0x2120, 0x7, 0x7, .u16, .rw, 3, 0xE10, 0, [(60, 28800, 1)], false, true, false, none⟩,
  /- AuthFailures -/ ⟨0x2120, 0x2120, 0x8, 0x8, .u32, .ro, 0, 0x0, 0, [], false, false, false, none⟩,
  /- SessionSecret -/ ⟨0x2121, 0x2121, 0x1, 0x2, .dom, .wo, 3, 0x0, 32, [], false, false, false, none⟩]

/-- Objects of the table of R461, part 1. -/
def objs18a : List ObjRow := [
  /- PowerState -/ ⟨0x2000, 0x2000, 0x1, 0x1, .u8, .ro, 0, 0x0, 0, [], false, false, false, none⟩,
  /- PowerStateRequest -/ ⟨0x2000, 0x2000, 0x2, 0x2, .u8, .wo, 1, 0x0, 0, [(1, 4, 1)], false, false, false, none⟩,
  /- OnOutsideField -/ ⟨0x2000, 0x2000, 0x3, 0x3, .u32, .ro, 0, 0x0, 0, [], false, false, false, none⟩,
  /- FeedVoltage -/ ⟨0x2001, 0x2001, 0x1, 0x2, .u16, .ro, 0, 0x0, 0, [], false, false, false, some ⟨0x400F0004, 0x0, 0x4, 1, 0, 15, 0, 1⟩⟩,
  /- FeedCurrent -/ ⟨0x2001, 0x2001, 0x3, 0x4, .u16, .ro, 0, 0x0, 0, [], false, false, false, some ⟨0x400F0004, 0x0, 0x4, 1, 0, 31, 16, 1⟩⟩,
  /- FeedClass -/ ⟨0x2001, 0x2001, 0x5, 0x6, .u8, .ro, 0, 0x0, 0, [], false, false, false, none⟩,
  /- HoldupCapacitance -/ ⟨0x2002, 0x2002, 0x1, 0x1, .u16, .ro, 0, 0x0, 0, [], false, false, false, none⟩,
  /- HoldupCapacitanceMin -/ ⟨0x2002, 0x2002, 0x2, 0x2, .u16, .const, 0, 0x898, 0, [], false, false, false, none⟩,
  /- PowerFailCount -/ ⟨0x2002, 0x2002, 0x3, 0x3, .u32, .ro, 0, 0x0, 0, [], false, false, false, none⟩,
  /- DomainState -/ ⟨0x2003, 0x2003, 0x1, 0x1, .dom, .ro, 0, 0x0, 12, [], false, false, false, none⟩,
  /- ClusterPowerRequest -/ ⟨0x2003, 0x2003, 0x2, 0x2, .dom, .rw, 2, 0x0, 8, [], false, true, false, none⟩,
  /- DieTemperature -/ ⟨0x2004, 0x2004, 0x1, 0x4, .i16, .ro, 0, 0x0, 0, [], false, false, false, none⟩,
  /- ThrottleCount -/ ⟨0x2004, 0x2004, 0x5, 0x5, .u32, .ro, 0, 0x0, 0, [], false, false, false, none⟩,
  /- PairRole -/ ⟨0x2010, 0x2010, 0x1, 0x1, .u8, .rw, 2, 0x0, 0, [(0, 2, 1)], false, true, true, none⟩,
  /- PairPartner -/ ⟨0x2010, 0x2010, 0x2, 0x2, .u16, .rw, 2, 0x0, 0, [(0, 10000, 1)], false, true, true, none⟩,
  /- PairBus -/ ⟨0x2010, 0x2010, 0x3, 0x3, .u8, .rw, 2, 0x0, 0, [(0, 3, 1)], false, true, true, none⟩,
  /- PairState -/ ⟨0x2010, 0x2010, 0x4, 0x4, .u8, .ro, 0, 0x0, 0, [], false, false, false, some ⟨0x400F0028, 0x0, 0x0, 1, 0, 1, 0, 1⟩⟩,
  /- HealthWord -/ ⟨0x2010, 0x2010, 0x5, 0x5, .u16, .ro, 0, 0x0, 0, [], false, false, false, some ⟨0x400F0020, 0x0, 0x0, 1, 0, 15, 0, 1⟩⟩,
  /- HealthFailMask -/ ⟨0x2010, 0x2010, 0x6, 0x6, .u16, .rw, 2, 0x1FFF, 0, [(0, 8191, 1)], false, true, false, none⟩,
  /- PartnerHealth -/ ⟨0x2010, 0x2010, 0x7, 0x7, .u16, .ro, 0, 0x0, 0, [], false, false, false, some ⟨0x400F0020, 0x0, 0x0, 1, 0, 31, 16, 1⟩⟩,
  /- PairConfigCheck -/ ⟨0x2010, 0x2010, 0x8, 0x8, .u32, .ro, 0, 0x0, 0, [], false, false, false, none⟩,
  /- PairDivergences -/ ⟨0x2010, 0x2010, 0x9, 0x9, .u32, .ro, 0, 0x0, 0, [], false, false, false, none⟩,
  /- PairYields -/ ⟨0x2010, 0x2010, 0xA, 0xA, .u32, .ro, 0, 0x0, 0, [], false, false, false, none⟩,
  /- PairRejoins -/ ⟨0x2010, 0x2010, 0xB, 0xB, .u32, .ro, 0, 0x0, 0, [], false, false, false, none⟩,
  /- CleanTime -/ ⟨0x2010, 0x2010, 0xC, 0xC, .u32, .ro, 0, 0x0, 0, [], false, false, false, none⟩]

/-- Objects of the table of R490, part 1. -/
def objs19a : List ObjRow := [
  /- EventLog -/ ⟨0x7000, 0x7000, 0x1, 0x1, .dom, .ro, 0, 0x0, 44040192, [], false, false, false, none⟩,
  /- EventNextSeq -/ ⟨0x7000, 0x7000, 0x2, 0x2, .u32, .ro, 0, 0x0, 0, [], false, false, false, none⟩,
  /- EventOldestSeq -/ ⟨0x7000, 0x7000, 0x3, 0x3, .u32, .ro, 0, 0x0, 0, [], false, false, false, none⟩,
  /- EventStaged -/ ⟨0x7000, 0x7000, 0x4, 0x4, .u32, .ro, 0, 0x0, 0, [], false, false, false, none⟩,
  /- EventsDropped -/ ⟨0x7000, 0x7000, 0x5, 0x5, .u32, .ro, 0, 0x0, 0, [], false, false, false, none⟩,
  /- EventRingCapacity -/ ⟨0x7000, 0x7000, 0x6, 0x6, .u32, .const, 0, 0x150000, 0, [], false, false, false, none⟩,
  /- ForerunnerEnable -/ ⟨0x7001, 0x7001, 0x1, 0x1, .u8, .rw, 2, 0x1, 0, [(0, 1, 1)], false, true, false, none⟩,
  /- ForerunnerLog -/ ⟨0x7001, 0x7001, 0x2, 0x2, .dom, .ro, 0, 0x0, 3670016, [], false, false, false, none⟩,
  /- ForerunnerNextSeq -/ ⟨0x7001, 0x7001, 0x3, 0x3, .u32, .ro, 0, 0x0, 0, [], false, false, false, none⟩,
  /- HistogramData -/ ⟨0x7002, 0x7002, 0x1, 0x1, .dom, .ro, 0, 0x0, 163840, [], false, false, false, none⟩,
  /- HistogramConfig -/ ⟨0x7002, 0x7002, 0x2, 0x2, .dom, .rw, 2, 0x0, 16384, [], false, true, true, none⟩,
  /- HistSnapshotPeriod -/ ⟨0x7002, 0x7002, 0x3, 0x3, .u16, .rw, 2, 0x258, 0, [(60, 3600, 1)], false, true, false, none⟩,
  /- RecorderClear -/ ⟨0x7002, 0x7002, 0x4, 0x4, .u8, .wo, 2, 0x0, 0, [(0, 5, 1)], false, false, false, none⟩,
  /- TornPagesFound -/ ⟨0x7003, 0x7003, 0x1, 0x1, .u32, .ro, 0, 0x0, 0, [], false, false, false, none⟩,
  /- BlocksReErased -/ ⟨0x7003, 0x7003, 0x2, 0x2, .u32, .ro, 0, 0x0, 0, [], false, false, false, none⟩,
  /- PowerFailFlushShort -/ ⟨0x7003, 0x7003, 0x3, 0x3, .u32, .ro, 0, 0x0, 0, [], false, false, false, none⟩,
  /- AccountSelect -/ ⟨0x7100, 0x7100, 0x1, 0x1, .u16, .rw, 1, 0x0, 0, [(0, 4095, 1)], true, false, false, none⟩,
  /- AccountLabel -/ ⟨0x7100, 0x7100, 0x2, 0x2, .str, .rw, 2, 0x0, 32, [], false, true, false, none⟩,
  /- AccountPeriod -/ ⟨0x7100, 0x7100, 0x3, 0x3, .dom, .ro, 0, 0x0, 128, [], false, false, false, none⟩,
  /- AccountsClear -/ ⟨0x7100, 0x7100, 0x4, 0x4, .u16, .wo, 3, 0x0, 0, [(0, 4095, 1), (65535, 65535, 1)], false, false, false, none⟩,
  /- MeterInput -/ ⟨0x7101, 0x7101, 0x1, 0x4, .u8, .rw, 2, 0xFF, 0, [(0, 7, 1), (255, 255, 1)], false, true, true, none⟩,
  /- MeterUnallocated -/ ⟨0x7101, 0x7101, 0x5, 0x5, .dom, .ro, 0, 0x0, 32, [], false, false, false, none⟩,
  /- PeriodLength -/ ⟨0x7102, 0x7102, 0x1, 0x1, .u32, .rw, 2, 0x15180, 0, [(0, 0, 1), (60, 31622400, 1)], false, true, true, none⟩,
  /- PeriodEnd -/ ⟨0x7102, 0x7102, 0x2, 0x2, .u64, .rw, 2, 0x0, 0, [], false, true, false, none⟩,
  /- PeriodIndex -/ ⟨0x7102, 0x7102, 0x3, 0x3, .u32, .ro, 0, 0x0, 0, [], false, false, false, some ⟨0x40110004, 0x0, 0x0, 1, 0, 31, 0, 1⟩⟩,
  /- PeriodState -/ ⟨0x7102, 0x7102, 0x4, 0x4, .dom, .ro, 0, 0x0, 224, [], false, false, false, none⟩,
  /- PeriodArchive -/ ⟨0x7102, 0x7102, 0x5, 0x5, .dom, .ro, 0, 0x0, 4194304, [], false, false, false, none⟩,
  /- PeriodArchiveOldest -/ ⟨0x7102, 0x7102, 0x6, 0x6, .u32, .ro, 0, 0x0, 0, [], false, false, false, none⟩,
  /- MeterCheckpoint -/ ⟨0x7102, 0x7102, 0x7, 0x7, .u8, .rw, 2, 0xA, 0, [(1, 60, 1)], false, true, false, none⟩]

/-- Objects of the table of R505, part 1. -/
def objs20a : List ObjRow := [
  /- DoorstopReason -/ ⟨0x2200, 0x2200, 0x1, 0x1, .u8, .ro, 0, 0x0, 0, [], false, false, false, none⟩,
  /- DoorstopHours -/ ⟨0x2200, 0x2200, 0x2, 0x2, .u32, .ro, 0, 0x0, 0, [], false, false, false, none⟩,
  /- StartState -/ ⟨0x2201, 0x2201, 0x1, 0x1, .u8, .ro, 0, 0x0, 0, [], false, false, false, none⟩,
  /- FailedStarts -/ ⟨0x2201, 0x2201, 0x2, 0x2, .u8, .ro, 0, 0x0, 0, [], false, false, false, none⟩,
  /- LastStartKind -/ ⟨0x2201, 0x2201, 0x3, 0x3, .u8, .ro, 0, 0x0, 0, [], false, false, false, none⟩,
  /- LastFailCause -/ ⟨0x2201, 0x2201, 0x4, 0x4, .u8, .ro, 0, 0x0, 0, [], false, false, false, none⟩,
  /- InServiceTime -/ ⟨0x2201, 0x2201, 0x5, 0x5, .u32, .ro, 0, 0x0, 0, [], false, false, false, none⟩,
  /- StartCount -/ ⟨0x2201, 0x2201, 0x6, 0x6, .u32, .ro, 0, 0x0, 0, [], false, false, false, none⟩,
  /- FailedStartCount -/ ⟨0x2201, 0x2201, 0x7, 0x7, .u32, .ro, 0, 0x0, 0, [], false, false, false, none⟩,
  /- PackageReset -/ ⟨0x2202, 0x2202, 0x1, 0x1, .u8, .wo, 2, 0x0, 0, [(1, 1, 1), (2, 2, 1)], false, false, false, none⟩,
  /- SlotState -/ ⟨0x2203, 0x2203, 0x1, 0x2, .u8, .ro, 0, 0x0, 0, [], false, false, false, none⟩,
  /- UpdateCommand -/ ⟨0x2204, 0x2204, 0x1, 0x1, .u8, .wo, 2, 0x0, 0, [], false, false, false, none⟩,
  /- UpdateData -/ ⟨0x2204, 0x2204, 0x2, 0x2, .dom, .wo, 2, 0x0, 16777216, [], false, false, false, none⟩,
  /- UpdateState -/ ⟨0x2204, 0x2204, 0x3, 0x3, .u8, .ro, 0, 0x0, 0, [], false, false, false, none⟩,
  /- UpdateResult -/ ⟨0x2204, 0x2204, 0x4, 0x4, .u16, .ro, 0, 0x0, 0, [], false, false, false, none⟩]

/-- Objects of the table of R519, part 1. -/
def objs21a : List ObjRow := [
  /- EndpointCapacity -/ ⟨0x7F00, 0x7F00, 0x1, 0x1, .u32, .const, 0, 0x40000, 0, [], false, false, false, none⟩,
  /- QueueEntries -/ ⟨0x7F00, 0x7F00, 0x2, 0x2, .u16, .const, 0, 0x400, 0, [], false, false, false, none⟩,
  /- ReceiveObjectsPerPort -/ ⟨0x7F00, 0x7F00, 0x3, 0x3, .u16, .const, 0, 0x100, 0, [], false, false, false, none⟩,
  /- TransmitQueuePerPort -/ ⟨0x7F00, 0x7F00, 0x4, 0x4, .u8, .const, 0, 0x40, 0, [], false, false, false, none⟩,
  /- NodesPerBus -/ ⟨0x7F00, 0x7F00, 0x5, 0x5, .u8, .const, 0, 0x40, 0, [], false, false, false, none⟩,
  /- EndpointsPerNode -/ ⟨0x7F00, 0x7F00, 0x6, 0x6, .u8, .const, 0, 0x40, 0, [], false, false, false, none⟩,
  /- JobAccounts -/ ⟨0x7F00, 0x7F00, 0x7, 0x7, .u16, .const, 0, 0x1000, 0, [], false, false, false, none⟩,
  /- PackageNumberMax -/ ⟨0x7F00, 0x7F00, 0x8, 0x8, .u16, .const, 0, 0x2710, 0, [], false, false, false, none⟩,
  /- LatchSlot -/ ⟨0x7F00, 0x7F00, 0x9, 0x9, .u8, .const, 0, 0x8, 0, [], false, false, false, none⟩,
  /- ForerunnerCycleLimit -/ ⟨0x7F00, 0x7F00, 0xA, 0xA, .u16, .const, 0, 0xFFFF, 0, [], false, false, false, none⟩,
  /- QueueFreeMin -/ ⟨0x7F01, 0x7F01, 0x1, 0x1, .u16, .ro, 0, 0x400, 0, [], false, false, false, none⟩,
  /- ReceiveObjectsFreeMin -/ ⟨0x7F01, 0x7F01, 0x2, 0x2, .u16, .ro, 0, 0xFB, 0, [], false, false, false, none⟩,
  /- EndpointsFree -/ ⟨0x7F01, 0x7F01, 0x3, 0x3, .u32, .ro, 0, 0x40000, 0, [], false, false, false, none⟩,
  /- AccountsInUse -/ ⟨0x7F01, 0x7F01, 0x4, 0x4, .u16, .ro, 0, 0x0, 0, [], false, false, false, none⟩,
  /- PackagesHeard -/ ⟨0x7F01, 0x7F01, 0x5, 0x5, .u16, .ro, 0, 0x0, 0, [], false, false, false, none⟩,
  /- ForerunnerCyclesLeft -/ ⟨0x7F01, 0x7F01, 0x6, 0x6, .u16, .ro, 0, 0x0, 0, [], false, false, false, none⟩,
  /- CapacityReached -/ ⟨0x7F01, 0x7F01, 0x7, 0x7, .u8, .ro, 0, 0x0, 0, [], false, false, false, none⟩]

namespace Obj

abbrev FieldTime : Nat := 0x300000
abbrev SystemEpochGps : Nat := 0x300101
abbrev FieldTimeSet : Nat := 0x300102
abbrev FtSource : Nat := 0x300201
abbrev FtSourceEnable : Nat := 0x300202
abbrev FtClass : Nat := 0x300203
abbrev FtUncertainty : Nat := 0x300204
abbrev FtSyncAge : Nat := 0x300205
abbrev FtDriftBound : Nat := 0x300206
abbrev PorchDriftBound : Nat := 0x300207
abbrev OutlierCount : Nat := 0x300208
abbrev FtRate : Nat := 0x300301
abbrev ServoBandwidth : Nat := 0x300302
abbrev StepThreshold : Nat := 0x300303
abbrev SlewFaultLimit : Nat := 0x300304
abbrev StepCount : Nat := 0x300305
abbrev WallClock : Nat := 0x300401
abbrev UtcOffset : Nat := 0x300402
abbrev GpsUtcLeap : Nat := 0x300403
abbrev OperatingHours : Nat := 0x300501
abbrev PowerCycleCount : Nat := 0x300502
abbrev PorchTicks : Nat := 0x300503
abbrev PorchCalibration : Nat := 0x300504
abbrev TimeMasterNode : Nat := 0x300601
abbrev MasterCandidate : Nat := 0x300602
abbrev MasterLossRounds : Nat := 0x300603
abbrev TimeBus : Nat := 0x300604
abbrev RefDelay : Nat := 0x300605
abbrev PtpMode : Nat := 0x300701
abbrev PtpPorts : Nat := 0x300702
abbrev PtpDomain : Nat := 0x300703
abbrev PtpLogSyncInterval : Nat := 0x300704
abbrev PtpOffset : Nat := 0x300705
abbrev PtpPathDelay : Nat := 0x300706
abbrev LatchRequest : Nat := 0x300801
abbrev LatchPeriodic : Nat := 0x300802
abbrev LatchPeriod : Nat := 0x300803
abbrev LatchCancel : Nat := 0x300804
abbrev LatchLastNumber : Nat := 0x300805
abbrev LatchLastInstant : Nat := 0x300806
abbrev LatchSlot (i : Nat) : Nat := 0x300810 + i
abbrev GnssEnable : Nat := 0x310001
abbrev HeadEnable : Nat := 0x310002
abbrev HeadSupplyVoltage : Nat := 0x310003
abbrev LockCn0 : Nat := 0x310004
abbrev HeadLinkState (i : Nat) : Nat := 0x310101 + i
abbrev HeadAgcL1 (i : Nat) : Nat := 0x310201 + i
abbrev HeadAgcL5 (i : Nat) : Nat := 0x310301 + i
abbrev HeadTemperature (i : Nat) : Nat := 0x310401 + i
abbrev HeadSupplyCurrent (i : Nat) : Nat := 0x310501 + i
abbrev HeadLinkLossCount (i : Nat) : Nat := 0x310601 + i
abbrev BurstEnable : Nat := 0x311001
abbrev BurstHeads : Nat := 0x311002
abbrev BurstMinLocked : Nat := 0x311003
abbrev BurstCount : Nat := 0x311004
abbrev ChannelCn0 (i : Nat) : Nat := 0x312001 + i
abbrev DumpOverrunCount : Nat := 0x312101
abbrev AcquisitionCount : Nat := 0x312102
abbrev PoseMaxAge : Nat := 0x320001
abbrev PosePublisher : Nat := 0x320002
abbrev PoseState : Nat := 0x320003
abbrev PoseRefusedCommits : Nat := 0x320004
abbrev PoseUnusableFrames : Nat := 0x320005
abbrev FieldOriginEcef (i : Nat) : Nat := 0x320101 + i
abbrev FieldOriginCheck : Nat := 0x320104
abbrev WingHingeX (k : Nat) : Nat := 0x321001 + 0x100 * k
abbrev WingHingeY (k : Nat) : Nat := 0x321002 + 0x100 * k
abbrev WingHingeZ (k : Nat) : Nat := 0x321003 + 0x100 * k
abbrev WingDirection (k : Nat) : Nat := 0x321004 + 0x100 * k
abbrev WingLength (k : Nat) : Nat := 0x321005 + 0x100 * k
abbrev FiFrequency (i : Nat) : Nat := 0x322001 + i
abbrev FiEdgeCount (i : Nat) : Nat := 0x322101 + i
abbrev FiState (i : Nat) : Nat := 0x322201 + i
abbrev ImuState (i : Nat) : Nat := 0x323001 + i
abbrev ImuTransferCount (i : Nat) : Nat := 0x323101 + i
abbrev EndpointTable : Nat := 0x400001
abbrev EndpointConfig : Nat := 0x400002
abbrev EpId : Nat := 0x400101
abbrev EpClass : Nat := 0x400102
abbrev EpOutput : Nat := 0x400103
abbrev EpAccount : Nat := 0x400104
abbrev EpLateWindow : Nat := 0x400105
abbrev EpGuardEpoch : Nat := 0x400106
abbrev EpCommand : Nat := 0x400107
abbrev RemapId : Nat := 0x400201
abbrev RemapEngine : Nat := 0x400202
abbrev RemapSlot : Nat := 0x400203
abbrev RemapAt : Nat := 0x400204
abbrev RemapCommand : Nat := 0x400205
abbrev RemapState : Nat := 0x400206
abbrev RemapSwitchFt : Nat := 0x400207
abbrev RemapNewSlot : Nat := 0x400208
abbrev LookupId : Nat := 0x400301
abbrev LookupOwner : Nat := 0x400302
abbrev LookupSlot : Nat := 0x400303
abbrev LookupEpoch : Nat := 0x400304
abbrev LookupState : Nat := 0x400305
abbrev LookupOutput : Nat := 0x400306
abbrev LookupOutputId : Nat := 0x400307
abbrev EndpointsBound : Nat := 0x400401
abbrev BoundS : Nat := 0x400402
abbrev BoundL : Nat := 0x400403
abbrev BoundD : Nat := 0x400404
abbrev BoundN : Nat := 0x400405
abbrev BoundT : Nat := 0x400406
abbrev RemapCount : Nat := 0x400407
abbrev StaleEpochCount : Nat := 0x400408
abbrev RemapDropCount : Nat := 0x400409
abbrev HeaderCheckFaults : Nat := 0x40040A
abbrev StartEpoch : Nat := 0x400501
abbrev EndpointCoordinator : Nat := 0x400502
abbrev EndpointRanges : Nat := 0x401001
abbrev RangeCount : Nat := 0x401002
abbrev RangeCommand : Nat := 0x401003
abbrev RangeState : Nat := 0x401004
abbrev RangeFailIndex : Nat := 0x401005
abbrev FrameLength : Nat := 0x600001
abbrev FrameNumber : Nat := 0x600002
abbrev FrameOverrunCount : Nat := 0x600003
abbrev LookHorizon : Nat := 0x600101
abbrev QueueHorizon : Nat := 0x600102
abbrev LookStep : Nat := 0x600103
abbrev RequeueThreshold : Nat := 0x600104
abbrev CoverageThreshold : Nat := 0x600105
abbrev ExclusionMargin : Nat := 0x600106
abbrev ExclusionSigmaFactor : Nat := 0x600107
abbrev SpreadFactor : Nat := 0x600108
abbrev MinApplySpeed : Nat := 0x600109
abbrev RescanDistance : Nat := 0x60010A
abbrev RescanHeading : Nat := 0x60010B
abbrev LayerMode (i : Nat) : Nat := 0x600201 + i
abbrev LayerPressureSlot (i : Nat) : Nat := 0x600205 + i
abbrev CellSize : Nat := 0x600301
abbrev PaneMissingFill : Nat := 0x600302
abbrev PaneCount : Nat := 0x600303
abbrev PaneCapacity : Nat := 0x600304
abbrev PaneX : Nat := 0x600305
abbrev PaneY : Nat := 0x600306
abbrev PaneCommand : Nat := 0x600307
abbrev PaneWriteMode : Nat := 0x600308
abbrev PaneData : Nat := 0x600309
abbrev PaneVersion : Nat := 0x60030A
abbrev CoverageGeneration : Nat := 0x60030B
abbrev ZoneLevel (k i : Nat) : Nat := 0x601001 + 0x100 * k + i
abbrev TargetPort : Nat := 0x602001
abbrev TargetSourceTimeout : Nat := 0x602002
abbrev TargetMargin : Nat := 0x602003
abbrev TargetRespectCoverage : Nat := 0x602004
abbrev SpotFallback : Nat := 0x602005
abbrev TargetRingLength : Nat := 0x602006
abbrev TargetsAccepted : Nat := 0x602007
abbrev TargetsDiscarded : Nat := 0x602008
abbrev TargetsDropped : Nat := 0x602009
abbrev TargetSourceState : Nat := 0x60200A
abbrev TargetSourceId (i : Nat) : Nat := 0x602010 + i
abbrev NodeLead : Nat := 0x610001
abbrev QueueOffReserve : Nat := 0x610002
abbrev QueueFillMax : Nat := 0x610003
abbrev QueueFullCount : Nat := 0x610004
abbrev QueueDisplacedCount : Nat := 0x610005
abbrev MissedOnCount : Nat := 0x610006
abbrev LateOffCount : Nat := 0x610007
abbrev LateOffMax : Nat := 0x610008
abbrev FiringDropCount : Nat := 0x610009
abbrev SameTickMergeCount : Nat := 0x61000A
abbrev MeasuredActuations : Nat := 0x610101
abbrev UnmeasuredActuations : Nat := 0x610102
abbrev LateReportCount : Nat := 0x610103
abbrev AaDroppedCount : Nat := 0x610104
abbrev LedgerExchange : Nat := 0x610201
abbrev LedgerPorts : Nat := 0x610202
abbrev LedgerNextSeq : Nat := 0x610203
abbrev LedgerHeld : Nat := 0x610204
abbrev LedgerCapacity : Nat := 0x610205
abbrev LedgerRunsRefused : Nat := 0x610206
abbrev LedgerReceived : Nat := 0x610207
abbrev LedgerDuplicates : Nat := 0x610208
abbrev LedgerRejected : Nat := 0x610209
abbrev LedgerGapRecords : Nat := 0x61020A
abbrev LedgerResendDelay : Nat := 0x61020B
abbrev LedgerSources : Nat := 0x61020C
abbrev LedgerReplay : Nat := 0x61020D
abbrev LedgerCellsLost : Nat := 0x61020E
abbrev LedgerState : Nat := 0x61020F
abbrev BoostVoltage (i : Nat) : Nat := 0x410001 + i
abbrev BoostEnable (i : Nat) : Nat := 0x410003 + i
abbrev BoostState (i : Nat) : Nat := 0x410005 + i
abbrev BoostCapacitance (i : Nat) : Nat := 0x410007 + i
abbrev BoostCapClear (i : Nat) : Nat := 0x410009 + i
abbrev CoilTempMax : Nat := 0x410101
abbrev CoilTempMargin : Nat := 0x410102
abbrev AmbientMax : Nat := 0x410103
abbrev CoilRiseMax : Nat := 0x410104
abbrev CoilTempCoeff : Nat := 0x410105
abbrev ArmatureWarnCount : Nat := 0x410106
abbrev BoostTimeMax (k : Nat) : Nat := 0x411001 + 0x100 * k
abbrev PeakCurrent (k : Nat) : Nat := 0x411002 + 0x100 * k
abbrev PeakTime (k : Nat) : Nat := 0x411003 + 0x100 * k
abbrev HoldCurrent (k : Nat) : Nat := 0x411004 + 0x100 * k
abbrev HoldBand (k : Nat) : Nat := 0x411005 + 0x100 * k
abbrev PwmPeriod (k : Nat) : Nat := 0x411006 + 0x100 * k
abbrev PwmMinOn (k : Nat) : Nat := 0x411007 + 0x100 * k
abbrev PwmMinOff (k : Nat) : Nat := 0x411008 + 0x100 * k
abbrev DipRatio (k : Nat) : Nat := 0x411009 + 0x100 * k
abbrev KinkRatio (k : Nat) : Nat := 0x41100A + 0x100 * k
abbrev OpenWindow (k : Nat) : Nat := 0x41100B + 0x100 * k
abbrev CloseWindow (k : Nat) : Nat := 0x41100C + 0x100 * k
abbrev RecoveryKnee (k : Nat) : Nat := 0x41100D + 0x100 * k
abbrev PeakEnergyMax (k : Nat) : Nat := 0x41100E + 0x100 * k
abbrev SolEnable (i : Nat) : Nat := 0x412001 + i
abbrev SolProfile (i : Nat) : Nat := 0x412101 + i
abbrev CoilResistanceRef (i : Nat) : Nat := 0x412201 + i
abbrev SolPhase (i : Nat) : Nat := 0x412301 + i
abbrev CoilResistance (i : Nat) : Nat := 0x412401 + i
abbrev CoilTemperature (i : Nat) : Nat := 0x412501 + i
abbrev SolFault (i : Nat) : Nat := 0x412601 + i
abbrev SolFaultClear (i : Nat) : Nat := 0x412701 + i
abbrev SolPulseCount (i : Nat) : Nat := 0x412801 + i
abbrev SolTestPulse (i : Nat) : Nat := 0x412901 + i
abbrev SolUndetectedOpen (i : Nat) : Nat := 0x412A01 + i
abbrev LvEnable (i : Nat) : Nat := 0x510001 + i
abbrev LvCluster (i : Nat) : Nat := 0x510101 + i
abbrev LvMode (i : Nat) : Nat := 0x510201 + i
abbrev LvRoute (i : Nat) : Nat := 0x510301 + i
abbrev LvTriggers (i : Nat) : Nat := 0x510401 + i
abbrev LvPeriodMin (i : Nat) : Nat := 0x510501 + i
abbrev LvPeriodMax (i : Nat) : Nat := 0x510601 + i
abbrev LvRiseDelay (i : Nat) : Nat := 0x510701 + i
abbrev LvFallDelay (i : Nat) : Nat := 0x510801 + i
abbrev LvCmdTimeout (i : Nat) : Nat := 0x510901 + i
abbrev LvSyncPhase (i : Nat) : Nat := 0x510A01 + i
abbrev LvPeriod (i : Nat) : Nat := 0x510B01 + i
abbrev LvTime (i : Nat) : Nat := 0x510C01 + i
abbrev LvState (i : Nat) : Nat := 0x510D01 + i
abbrev LvPeriodCount (i : Nat) : Nat := 0x510E01 + i
abbrev LvSuppressed (i : Nat) : Nat := 0x510F01 + i
abbrev LvTest (i : Nat) : Nat := 0x511001 + i
abbrev LvResync (i : Nat) : Nat := 0x511101 + i
abbrev HingeEnable (i : Nat) : Nat := 0x500001 + i
abbrev HingeLoad (i : Nat) : Nat := 0x500003 + i
abbrev SlotEnable (k : Nat) : Nat := 0x501001 + 0x100 * k
abbrev SlotForm (k : Nat) : Nat := 0x501002 + 0x100 * k
abbrev SlotTrigger (k : Nat) : Nat := 0x501003 + 0x100 * k
abbrev SlotLine (k : Nat) : Nat := 0x501004 + 0x100 * k
abbrev SlotPeriod (k : Nat) : Nat := 0x501005 + 0x100 * k
abbrev SlotGroup (k : Nat) : Nat := 0x501006 + 0x100 * k
abbrev SlotDest (k : Nat) : Nat := 0x501007 + 0x100 * k
abbrev SlotDestIndex (k : Nat) : Nat := 0x501008 + 0x100 * k
abbrev SlotInput (k : Nat) : Nat := 0x501009 + 0x100 * k
abbrev SlotSchedSource (k : Nat) : Nat := 0x50100A + 0x100 * k
abbrev SlotInvalidAction (k : Nat) : Nat := 0x50100B + 0x100 * k
abbrev SlotErrorExp (k : Nat) : Nat := 0x50100C + 0x100 * k
abbrev SlotOutputExp (k : Nat) : Nat := 0x50100D + 0x100 * k
abbrev InScale (k : Nat) : Nat := 0x50100E + 0x100 * k
abbrev InOffset (k : Nat) : Nat := 0x50100F + 0x100 * k
abbrev InMin (k : Nat) : Nat := 0x501010 + 0x100 * k
abbrev InMax (k : Nat) : Nat := 0x501011 + 0x100 * k
abbrev OutMin (k : Nat) : Nat := 0x501012 + 0x100 * k
abbrev OutMax (k : Nat) : Nat := 0x501013 + 0x100 * k
abbrev OutInit (k : Nat) : Nat := 0x501014 + 0x100 * k
abbrev OutSafe (k : Nat) : Nat := 0x501015 + 0x100 * k
abbrev OutScale (k : Nat) : Nat := 0x501016 + 0x100 * k
abbrev OutBias (k : Nat) : Nat := 0x501017 + 0x100 * k
abbrev Target (k : Nat) : Nat := 0x501018 + 0x100 * k
abbrev ProfileEnable (k : Nat) : Nat := 0x501019 + 0x100 * k
abbrev VelocityMax (k : Nat) : Nat := 0x50101A + 0x100 * k
abbrev AccelMax (k : Nat) : Nat := 0x50101B + 0x100 * k
abbrev JerkMax (k : Nat) : Nat := 0x50101C + 0x100 * k
abbrev Breakpoint1 (k : Nat) : Nat := 0x50101D + 0x100 * k
abbrev Breakpoint2 (k : Nat) : Nat := 0x50101E + 0x100 * k
abbrev Breakpoint3 (k : Nat) : Nat := 0x50101F + 0x100 * k
abbrev Breakpoint4 (k : Nat) : Nat := 0x501020 + 0x100 * k
abbrev Hysteresis (k : Nat) : Nat := 0x501021 + 0x100 * k
abbrev FirmwareInputTimeout (k : Nat) : Nat := 0x501022 + 0x100 * k
abbrev Measurement (k : Nat) : Nat := 0x501023 + 0x100 * k
abbrev SetPoint (k : Nat) : Nat := 0x501024 + 0x100 * k
abbrev Output (k : Nat) : Nat := 0x501025 + 0x100 * k
abbrev SlotRegion (k : Nat) : Nat := 0x501026 + 0x100 * k
abbrev SlotState (k i : Nat) : Nat := 0x501027 + 0x100 * k + i
abbrev OverflowCount (k : Nat) : Nat := 0x501028 + 0x100 * k
abbrev LateCommitCount (k : Nat) : Nat := 0x501029 + 0x100 * k
abbrev RegionChanges (k : Nat) : Nat := 0x50102A + 0x100 * k
abbrev WinnerChanges (k : Nat) : Nat := 0x50102B + 0x100 * k
abbrev SlotCommit (k : Nat) : Nat := 0x50102C + 0x100 * k
abbrev Coefficient (k i : Nat) : Nat := 0x504001 + 0x100 * k + i
abbrev CoefficientExp (k i : Nat) : Nat := 0x504008 + 0x100 * k + i
abbrev LsEnable (i : Nat) : Nat := 0x420001 + i
abbrev LsLamp (i : Nat) : Nat := 0x420101 + i
abbrev LsCommand (i : Nat) : Nat := 0x420201 + i
abbrev LsCurrent (i : Nat) : Nat := 0x420301 + i
abbrev LsState (i : Nat) : Nat := 0x420401 + i
abbrev LsFaultClear (i : Nat) : Nat := 0x420501 + i
abbrev LsRating (i : Nat) : Nat := 0x420601 + i
abbrev LsSenseMode (i : Nat) : Nat := 0x420701 + i
abbrev DioMode (i : Nat) : Nat := 0x421001 + i
abbrev DioWireBreak (i : Nat) : Nat := 0x421101 + i
abbrev DioDebounce (i : Nat) : Nat := 0x421201 + i
abbrev DioSamplePeriod (i : Nat) : Nat := 0x421301 + i
abbrev DioCommand (i : Nat) : Nat := 0x421401 + i
abbrev DioValue (i : Nat) : Nat := 0x421501 + i
abbrev DioState (i : Nat) : Nat := 0x421601 + i
abbrev WdgTimeout (i : Nat) : Nat := 0x422001 + i
abbrev WdgOwner (i : Nat) : Nat := 0x422101 + i
abbrev WdgHold (i : Nat) : Nat := 0x422201 + i
abbrev WdgState (i : Nat) : Nat := 0x422301 + i
abbrev WdgExpiryCount (i : Nat) : Nat := 0x422401 + i
abbrev FailsafeSol (i : Nat) : Nat := 0x422501 + i
abbrev FailsafeLs (i : Nat) : Nat := 0x422601 + i
abbrev FailsafeDio (i : Nat) : Nat := 0x422701 + i
abbrev SinEnable (i : Nat) : Nat := 0x423001 + i
abbrev SinChannelA (i : Nat) : Nat := 0x423101 + i
abbrev SinChannelB (i : Nat) : Nat := 0x423201 + i
abbrev SinDiscrepancyTime (i : Nat) : Nat := 0x423301 + i
abbrev SinState (i : Nat) : Nat := 0x423401 + i
abbrev SinAck (i : Nat) : Nat := 0x423501 + i
abbrev SinDiscrepancyCount (i : Nat) : Nat := 0x423601 + i
abbrev AclState : Nat := 0x424001
abbrev AclAck : Nat := 0x424002
abbrev AclDiscrepancyCount : Nat := 0x424003
abbrev CloseState : Nat := 0x424004
abbrev CloseCount : Nat := 0x424005
abbrev AiMode (i : Nat) : Nat := 0x425001 + i
abbrev AiPeriod (i : Nat) : Nat := 0x425101 + i
abbrev AiAverage (i : Nat) : Nat := 0x425201 + i
abbrev AiTriggerLine (i : Nat) : Nat := 0x425301 + i
abbrev AiValue (i : Nat) : Nat := 0x425401 + i
abbrev AiState (i : Nat) : Nat := 0x425501 + i
abbrev AiSensorSupply (i : Nat) : Nat := 0x425601 + i
abbrev SillEnable (i : Nat) : Nat := 0x430001 + i
abbrev SillLinkState (i : Nat) : Nat := 0x430101 + i
abbrev SillTileCount (i : Nat) : Nat := 0x430201 + i
abbrev SillLinkTimeout (i : Nat) : Nat := 0x430301 + i
abbrev SillPollInterval (i : Nat) : Nat := 0x430401 + i
abbrev SillReenumerate (i : Nat) : Nat := 0x430501 + i
abbrev SillUndeliverable (i : Nat) : Nat := 0x430601 + i
abbrev SillLateOffs (i : Nat) : Nat := 0x430701 + i
abbrev SillLinkLossCount (i : Nat) : Nat := 0x430801 + i
abbrev TileState (k i : Nat) : Nat := 0x431001 + 0x100 * k + i
abbrev TileSerial (k i : Nat) : Nat := 0x432001 + 0x100 * k + i
abbrev IbEnable (i : Nat) : Nat := 0x130001 + i
abbrev IbTermination (i : Nat) : Nat := 0x130101 + i
abbrev IbState (i : Nat) : Nat := 0x130201 + i
abbrev RoundLength : Nat := 0x130301
abbrev OpenLength : Nat := 0x130302
abbrev WindowTable (i : Nat) : Nat := 0x130401 + i
abbrev GuardianEnforce (i : Nat) : Nat := 0x130501 + i
abbrev IbSilence : Nat := 0x130601
abbrev EdgeEvents (i : Nat) : Nat := 0x130701 + i
abbrev Intrusions (i : Nat) : Nat := 0x130801 + i
abbrev IbDiscarded (i : Nat) : Nat := 0x130901 + i
abbrev IbDuplicates (i : Nat) : Nat := 0x130A01 + i
abbrev IbTooOld (i : Nat) : Nat := 0x130B01 + i
abbrev IbNoMatch (i : Nat) : Nat := 0x130C01 + i
abbrev TxDisplaced (i : Nat) : Nat := 0x130D01 + i
abbrev ReceiveObjectsFree (i : Nat) : Nat := 0x130E01 + i
abbrev NodeTimeout : Nat := 0x131001
abbrev NodeHoldTime : Nat := 0x131002
abbrev NodeState (k i : Nat) : Nat := 0x132001 + 0x100 * k + i
abbrev NodeIntrusions (k i : Nat) : Nat := 0x132401 + 0x100 * k + i
abbrev NodeRefusals (k i : Nat) : Nat := 0x132801 + 0x100 * k + i
abbrev RendezvousEnable : Nat := 0x134001
abbrev RendezvousOffset : Nat := 0x134002
abbrev RendezvousPartnerState : Nat := 0x134003
abbrev TransomState : Nat := 0x110001
abbrev TransomDropped : Nat := 0x110002
abbrev HostStop : Nat := 0x110003
abbrev HostStopState : Nat := 0x110004
abbrev StopLaneLossAction : Nat := 0x110005
abbrev HostCanMode (i : Nat) : Nat := 0x111001 + i
abbrev HostCanAddress (i : Nat) : Nat := 0x111101 + i
abbrev HostCanTermination (i : Nat) : Nat := 0x111201 + i
abbrev HostIpAddress (i : Nat) : Nat := 0x112001 + i
abbrev HostNetmask (i : Nat) : Nat := 0x112101 + i
abbrev HostPhyRole (i : Nat) : Nat := 0x112201 + i
abbrev HostLinkState (i : Nat) : Nat := 0x112301 + i
abbrev HostNoPort : Nat := 0x112401
abbrev DictUdpPort : Nat := 0x113001
abbrev PoseInPort : Nat := 0x113002
abbrev AsAppliedPort : Nat := 0x113003
abbrev AsAppliedDest : Nat := 0x113004
abbrev LedgerUdpPort : Nat := 0x113005
abbrev LedgerGroup : Nat := 0x113006
abbrev TransferTimeout : Nat := 0x114001
abbrev TransfersTimedOut : Nat := 0x114002
abbrev DictRequests : Nat := 0x114003
abbrev DictAborts : Nat := 0x114004
abbrev KeyholeState : Nat := 0x115001
abbrev PoseInCount : Nat := 0x116001
abbrev PoseInOverwritten : Nat := 0x116002
abbrev VendorId : Nat := 0x100001
abbrev ProductCode : Nat := 0x100002
abbrev HardwareIssue : Nat := 0x100003
abbrev SerialNumber : Nat := 0x100004
abbrev ManufactureDay : Nat := 0x100005
abbrev DeviceName : Nat := 0x100006
abbrev BootImageVersion (i : Nat) : Nat := 0x100101 + i
abbrev ActiveImage : Nat := 0x100103
abbrev PolicyName : Nat := 0x100104
abbrev PolicyVersion : Nat := 0x100105
abbrev SigningKey : Nat := 0x100106
abbrev PackageNumber : Nat := 0x100201
abbrev PackageLabel : Nat := 0x100202
abbrev SystemMember : Nat := 0x100203
abbrev GroupAddress (i : Nat) : Nat := 0x100301 + i
abbrev IsoManufacturerCode : Nat := 0x100401
abbrev IsoIndustryGroup : Nat := 0x100402
abbrev IsoDeviceClass : Nat := 0x100403
abbrev IsoDeviceClassInstance : Nat := 0x100404
abbrev IsoFunction : Nat := 0x100405
abbrev IsoFunctionInstance : Nat := 0x100406
abbrev IsoEcuInstance : Nat := 0x100407
abbrev IsoName : Nat := 0x100408
abbrev DictionaryIssue : Nat := 0x100501
abbrev RestoreDefaults : Nat := 0x100502
abbrev ConfigJournalUse : Nat := 0x100503
abbrev ConfigWriteCount : Nat := 0x100504
abbrev ConfigWriteFailures : Nat := 0x100505
abbrev DescribeIndex : Nat := 0x100601
abbrev DescribeSubindex : Nat := 0x100602
abbrev DescribeResult : Nat := 0x100603
abbrev DescribeSize : Nat := 0x100604
abbrev DeadboltCount : Nat := 0x210001
abbrev DeadboltRelease : Nat := 0x210002
abbrev DeadboltLog : Nat := 0x210003
abbrev DeadboltCauseCount (i : Nat) : Nat := 0x210004 + i
abbrev WindowExtra : Nat := 0x210102
abbrev WindowExtraCount : Nat := 0x210103
abbrev ClusterHalt : Nat := 0x210201
abbrev ClusterResume : Nat := 0x210202
abbrev KeyState (i : Nat) : Nat := 0x211001 + i
abbrev KeyHash (i : Nat) : Nat := 0x211101 + i
abbrev KeyProgram : Nat := 0x211201
abbrev KeyRevoke : Nat := 0x211202
abbrev SessionChallenge : Nat := 0x212001
abbrev SessionResponse : Nat := 0x212002
abbrev SessionToken : Nat := 0x212003
abbrev SessionLevel : Nat := 0x212004
abbrev SessionEnd : Nat := 0x212005
abbrev SessionIdleTimeout : Nat := 0x212006
abbrev SessionLifetime : Nat := 0x212007
abbrev AuthFailures : Nat := 0x212008
abbrev SessionSecret (i : Nat) : Nat := 0x212101 + i
abbrev PowerState : Nat := 0x200001
abbrev PowerStateRequest : Nat := 0x200002
abbrev OnOutsideField : Nat := 0x200003
abbrev FeedVoltage (i : Nat) : Nat := 0x200101 + i
abbrev FeedCurrent (i : Nat) : Nat := 0x200103 + i
abbrev FeedClass (i : Nat) : Nat := 0x200105 + i
abbrev HoldupCapacitance : Nat := 0x200201
abbrev HoldupCapacitanceMin : Nat := 0x200202
abbrev PowerFailCount : Nat := 0x200203
abbrev DomainState : Nat := 0x200301
abbrev ClusterPowerRequest : Nat := 0x200302
abbrev DieTemperature (i : Nat) : Nat := 0x200401 + i
abbrev ThrottleCount : Nat := 0x200405
abbrev PairRole : Nat := 0x201001
abbrev PairPartner : Nat := 0x201002
abbrev PairBus : Nat := 0x201003
abbrev PairState : Nat := 0x201004
abbrev HealthWord : Nat := 0x201005
abbrev HealthFailMask : Nat := 0x201006
abbrev PartnerHealth : Nat := 0x201007
abbrev PairConfigCheck : Nat := 0x201008
abbrev PairDivergences : Nat := 0x201009
abbrev PairYields : Nat := 0x20100A
abbrev PairRejoins : Nat := 0x20100B
abbrev CleanTime : Nat := 0x20100C
abbrev EventLog : Nat := 0x700001
abbrev EventNextSeq : Nat := 0x700002
abbrev EventOldestSeq : Nat := 0x700003
abbrev EventStaged : Nat := 0x700004
abbrev EventsDropped : Nat := 0x700005
abbrev EventRingCapacity : Nat := 0x700006
abbrev ForerunnerEnable : Nat := 0x700101
abbrev ForerunnerLog : Nat := 0x700102
abbrev ForerunnerNextSeq : Nat := 0x700103
abbrev HistogramData : Nat := 0x700201
abbrev HistogramConfig : Nat := 0x700202
abbrev HistSnapshotPeriod : Nat := 0x700203
abbrev RecorderClear : Nat := 0x700204
abbrev TornPagesFound : Nat := 0x700301
abbrev BlocksReErased : Nat := 0x700302
abbrev PowerFailFlushShort : Nat := 0x700303
abbrev AccountSelect : Nat := 0x710001
abbrev AccountLabel : Nat := 0x710002
abbrev AccountPeriod : Nat := 0x710003
abbrev AccountsClear : Nat := 0x710004
abbrev MeterInput (i : Nat) : Nat := 0x710101 + i
abbrev MeterUnallocated : Nat := 0x710105
abbrev PeriodLength : Nat := 0x710201
abbrev PeriodEnd : Nat := 0x710202
abbrev PeriodIndex : Nat := 0x710203
abbrev PeriodState : Nat := 0x710204
abbrev PeriodArchive : Nat := 0x710205
abbrev PeriodArchiveOldest : Nat := 0x710206
abbrev MeterCheckpoint : Nat := 0x710207
abbrev DoorstopReason : Nat := 0x220001
abbrev DoorstopHours : Nat := 0x220002
abbrev StartState : Nat := 0x220101
abbrev FailedStarts : Nat := 0x220102
abbrev LastStartKind : Nat := 0x220103
abbrev LastFailCause : Nat := 0x220104
abbrev InServiceTime : Nat := 0x220105
abbrev StartCount : Nat := 0x220106
abbrev FailedStartCount : Nat := 0x220107
abbrev PackageReset : Nat := 0x220201
abbrev UpdateCommand : Nat := 0x220401
abbrev UpdateData : Nat := 0x220402
abbrev UpdateState : Nat := 0x220403
abbrev UpdateResult : Nat := 0x220404
abbrev EndpointCapacity : Nat := 0x7F0001
abbrev QueueEntries : Nat := 0x7F0002
abbrev ReceiveObjectsPerPort : Nat := 0x7F0003
abbrev TransmitQueuePerPort : Nat := 0x7F0004
abbrev NodesPerBus : Nat := 0x7F0005
abbrev EndpointsPerNode : Nat := 0x7F0006
abbrev JobAccounts : Nat := 0x7F0007
abbrev PackageNumberMax : Nat := 0x7F0008
abbrev ForerunnerCycleLimit : Nat := 0x7F000A
abbrev QueueFreeMin : Nat := 0x7F0101
abbrev ReceiveObjectsFreeMin : Nat := 0x7F0102
abbrev EndpointsFree : Nat := 0x7F0103
abbrev AccountsInUse : Nat := 0x7F0104
abbrev PackagesHeard : Nat := 0x7F0105
abbrev ForerunnerCyclesLeft : Nat := 0x7F0106
abbrev CapacityReached : Nat := 0x7F0107

end Obj

/-- The rows whose chapter may define an index. -/
def objRowsNear (idx : Nat) : List ObjRow :=
if 0x3000 ≤ idx ∧ idx ≤ 0x3008 then objs02a
  else if 0x3100 ≤ idx ∧ idx ≤ 0x3121 then objs03a
  else if 0x3200 ≤ idx ∧ idx ≤ 0x3231 then objs04a
  else if 0x4000 ≤ idx ∧ idx ≤ 0x4010 then objs05a
  else if 0x6000 ≤ idx ∧ idx ≤ 0x6020 then objs06a
  else if 0x6100 ≤ idx ∧ idx ≤ 0x6102 then objs07a
  else if 0x4100 ≤ idx ∧ idx ≤ 0x412A then objs08a
  else if 0x5100 ≤ idx ∧ idx ≤ 0x5111 then objs09a
  else if 0x5000 ≤ idx ∧ idx ≤ 0x505F then objs10a ++ objs10b ++ objs10c
  else if 0x4200 ≤ idx ∧ idx ≤ 0x4256 then objs11a
  else if 0x4300 ≤ idx ∧ idx ≤ 0x432F then objs12a
  else if 0x1300 ≤ idx ∧ idx ≤ 0x1340 then objs13a
  else if 0x1100 ≤ idx ∧ idx ≤ 0x1160 then objs14a
  else if 0x1000 ≤ idx ∧ idx ≤ 0x1006 then objs15a
  else if 0x2100 ≤ idx ∧ idx ≤ 0x21FF then objs17a
  else if 0x2000 ≤ idx ∧ idx ≤ 0x20FF then objs18a
  else if 0x7000 ≤ idx ∧ idx ≤ 0x71FF then objs19a
  else if 0x2200 ≤ idx ∧ idx ≤ 0x22FF then objs20a
  else if 0x7F00 ≤ idx ∧ idx ≤ 0x7FFF then objs21a
  else []

/-- Whether any object has this index. -/
def objIndexKnown (idx : Nat) : Bool := (objRowsNear idx).any (fun r => decide (r.i0 ≤ idx) && decide (idx ≤ r.i1))

/-- The row of an object. -/
def objRow (idx sub : Nat) : Option ObjRow :=
  (objRowsNear idx).find? (fun r => decide (r.i0 ≤ idx) && decide (idx ≤ r.i1) && decide (r.s0 ≤ sub) && decide (sub ≤ r.s1))

/-- The highest subindex of an object with values at 0x01 and above (R368). -/
def objMaxSub (idx : Nat) : Nat :=
  ((objRowsNear idx).filter (fun r => decide (r.i0 ≤ idx) && decide (idx ≤ r.i1))).foldl (fun a r => max a r.s1) 0

/-- Bytes of a fixed-size type (R369). -/
def OTy.bytes : OTy → Nat
  | .u8 => 1 | .u16 => 2 | .u32 => 4 | .u64 => 8 | .i16 => 2 | .i32 => 4 | .i64 => 8
  | .f32 => 4 | .bf24 => 4 | .time64 => 8 | .str => 0 | .dom => 0

/-- Type codes (R369). -/
def OTy.code : OTy → Nat
  | .u8 => 1 | .u16 => 2 | .u32 => 3 | .u64 => 4 | .i16 => 5 | .i32 => 6 | .i64 => 7
  | .f32 => 8 | .bf24 => 9 | .time64 => 10 | .str => 11 | .dom => 12

/-- Whether a type is signed. -/
def OTy.signed : OTy → Bool
  | .i16 => true | .i32 => true | .i64 => true
  | .u8 => false | .u16 => false | .u32 => false | .u64 => false
  | .f32 => false | .bf24 => false | .time64 => false | .str => false | .dom => false

/-- The address of the register field a row mirrors, for one object of the row. -/
def Mirror.addr (m : Mirror) (r : ObjRow) (idx sub : Nat) : Nat :=
  let a := m.base + m.sIdx * (idx - r.i0) + m.sSub * ((sub - r.s0) / m.dv) + m.sRem * ((sub - r.s0) % m.dv)
  if m.base / 0x10000 = 0x400B then ibUp a else a

/-- Keys of the dictionary store: client (0 for the package's own value), index, subindex. -/
def objKey (client idx sub : Nat) : Nat := client * 0x1000000 + idx * 0x100 + sub

/-- What an unlisted dictionary value reads as: the object's default. -/
def objDefault (k : Nat) : Nat :=
  match objRow (k / 0x100 % 0x10000) (k % 0x100) with
  | some r => r.dflt
  | none => 0

end Sys2Proof.Machine
end

