-- ==== Sys2Proof/Machine/State.lean ====
section
/-! DEFINITION. The state of the ZV7400 as plain data: every register, dictionary value, memory, queue, counter and mode the
spec names, and the queue of commands that wait. Registers live once, in `regs`, under the addresses of the register map;
dictionary values that mirror no register live in `objs`; what the spec describes beyond them lives in one structure per
unit. Every structure has a reset value next to it; a value of 0 or none that the spec does not give is the model's choice
(assumption log, entry 2). -/
namespace Sys2Proof.Machine

/-- Where an emission of the device goes. -/
inductive OutUnit where
  | dict | can | ib | transom | udp | ptp | sill | head | line | wake | load | bus | hostFw | eth
  deriving DecidableEq, Repr

/-- One thing the device sends: the unit, the channel within it, a tag (frame kind, identifier or abort code) and the numbers it
carries. The trace of emissions is the model's own field: the spec's device puts these on its wires. -/
structure Out where
  unit : OutUnit
  chan : Nat
  tag : Nat
  data : List Nat
  deriving DecidableEq, Repr


/-- The power states of R11. -/
inductive PState where
  | off | parked | standby | ready | field | doorstop
  deriving DecidableEq, Repr


/-- A reference message as a receiver holds it (R53, R54). -/
structure RefMsg where
  sender : Nat
  capture : Nat
  txPrev : Nat
  round : Nat
  cls : Nat
  deriving DecidableEq, Repr

/-- A receiver's capture of one sender's latest reference message on the time bus (R54). -/
structure RefCap where
  sender : Nat
  capture : Nat
  round : Nat
  deriving DecidableEq, Repr

/-- The FT unit (R42 to R51, R521, R522). FT is kept with its 32-bit fraction: `ft` counts 2^−32 ns. -/
structure FtUnit where
  ft : Nat              -- FT and fraction (R42); a cold start gives 0 (R521)
  integ : Int           -- servo integrator (R49), in 10^−60
  lastSample : Option Nat -- FT of the previous accepted sample, ns (dt of R49)
  ageAt : Option Nat    -- instant SyncAge counts from; none before the first sample (R49, R522)
  uncBase : Nat         -- FT_UNC at that instant, ns (R49)
  uncAt : Nat           -- FT from which the uncertainty grows (R49, R51)
  outliers : Nat        -- consecutive outliers of one source while it was the active one (R48)
  outSrc : Nat          -- that source
  forced : Bool         -- the next accepted sample is applied as a step when above 1 µs (R61)
  gnssValid : Bool
  refValid : Bool
  ptpValid : Bool
  gnssFrom : Nat        -- Latch instant of the last accepted GNSS sample (R48)
  ptpAt : Nat           -- FT of the last accepted IEEE 1588 sample
  refMissed : Nat       -- rounds since the last accepted reference sample (R48, R55 rule 3)
  refCls : Nat          -- class of the sender of the last accepted reference sample (R47)
  ptpCls : Nat
  slewSeen : Bool       -- 0x1003 recorded for this excursion (R50)
  parkSrc : Nat         -- source valid at park (R60)
  carryDue : Bool       -- FT is to be loaded from the stored pair at the next porch tick after PLL lock (R60, R521)
  deriving DecidableEq, Repr

def FtUnit.reset : FtUnit where
  ft := 0
  integ := 0
  lastSample := none
  ageAt := none
  uncBase := 0xFFFFFFFF
  uncAt := 0
  outliers := 0
  outSrc := 0
  forced := false
  gnssValid := false
  refValid := false
  ptpValid := false
  gnssFrom := 0
  ptpAt := 0
  refMissed := 0
  refCls := 3
  ptpCls := 3
  slewSeen := false
  parkSrc := 0
  carryDue := false

/-- The time-master election and the reference messages (R52 to R55). -/
structure TimeMaster where
  master : Nat            -- package number of the time master, 0 none (R55)
  masterCls : Nat         -- class it announced
  challenge : Nat         -- consecutive rounds with this package's key below the master's (R55 rule 5)
  electing : Bool         -- the coming round is a round of election (R55 rules 3 and 5)
  election : Bool         -- the running round is a round of election (R55 rules 3 and 5)
  keys : List Nat         -- the time master's key in the last ten rounds, latest first (R55 rule 5)
  yielding : Bool         -- the master heard a lower key and stops from the next round start (R55 rule 5)
  roundMsgs : List RefMsg -- messages of the running round, judged at its end (R55 rule 4)
  captures : List RefCap  -- latest capture per sender on the time bus (R54)
  txPrev : SMap Nat       -- FT of this package's previous reference message per bus (R53)
  round : Nat             -- number of the running round (R52)
  refHeld : Bool          -- field time has been taken from the time master since number and epoch were set (R31)
  deriving DecidableEq, Repr

def TimeMaster.reset : TimeMaster where
  master := 0
  masterCls := 3
  challenge := 0
  electing := false
  election := false
  keys := []
  yielding := false
  roundMsgs := []
  captures := []
  txPrev := []
  round := 0
  refHeld := false

/-- Oscillator and PLLs (R39, R40). -/
structure Clocks where
  requests : List Nat   -- blocks that ask for the reference oscillator
  oscRunning : Bool
  oscStable : Bool
  idleTick : Nat        -- porch tick at which the last request was withdrawn
  pll : Nat             -- lock bits: 0 engine 0, 1 fabric 0, 2 engine 1, 3 fabric 1, 4 baseband, 5 antenna head
  deriving DecidableEq, Repr

def Clocks.reset : Clocks where
  requests := []
  oscRunning := false
  oscStable := false
  idleTick := 0
  pll := 0

/-- The porch (R58 to R60, R65, R521). -/
structure Porch where
  powered : Bool
  ticks : Nat           -- 48-bit tick counter (R58)
  phase : Nat           -- part of a tick that idle fabric cycles have added, in 1/390625 (R39)
  pairFt : Option Nat   -- stored FT, none after a cold start (R521)
  pairTicks : Nat
  pairUnc : Nat
  windows : List Int    -- last valid calibration windows in ppb, newest first, at most four (R48, R59)
  opTicks : Nat         -- ticks in which HOST or the power dies were powered (R65)
  powerCycles : Nat     -- PowerCycleCount (R65)
  mirrorAt : Nat        -- tick of the last mirror (R65)
  bootAttempts : Nat    -- boot-attempt counter (R65, R495)
  deriving DecidableEq, Repr

def Porch.reset : Porch where
  powered := false
  ticks := 0
  phase := 0
  pairFt := none
  pairTicks := 0
  pairUnc := 0
  windows := []
  opTicks := 0
  powerCycles := 0
  mirrorAt := 0
  bootAttempts := 0

/-- A Latch slot in use (R66). -/
structure LatchSlot where
  target : Nat
  period : Nat          -- µs, 0 for a single Latch
  deriving DecidableEq, Repr

/-- One shadow bank of every unit: what their headers hold (R68), whether the host ports' copies are unaligned (R67), and the copies
taken, by register address; a unit that holds no copy has no valid bank. -/
structure LatchBank where
  number : Nat
  slot : Nat
  unaligned : Bool
  instant : Nat
  copies : List (Nat × Word)
  deriving DecidableEq, Repr

def LatchBank.reset : LatchBank where
  number := 0
  slot := 0
  unaligned := false
  instant := 0
  copies := []

/-- The Latch (R66 to R69, R522). -/
structure LatchUnit where
  slots : List (Option LatchSlot)   -- eight slots (R66)
  owners : List Nat                 -- the master whose command took each slot
  counter : Nat                     -- the 16-bit firing number (R67)
  history : List (Nat × Nat)        -- number and instant of the last 16 firings (R522)
  bank0 : LatchBank
  bank1 : LatchBank
  copiesDue : Bool                  -- the LATCH interrupt of the last firing is still to come (R405)
  deriving DecidableEq, Repr

def LatchUnit.reset : LatchUnit where
  slots := List.replicate 8 none
  owners := List.replicate 8 0
  counter := 0
  history := []
  bank0 := LatchBank.reset
  bank1 := LatchBank.reset
  copiesDue := false

/-- The time lane and IEEE 1588 on the host die (R56, R57, R48). -/
structure HostTime where
  lastPps : Nat        -- FT of the last PPS edge sent (R56)
  ppsSent : Bool
  acceptedAt : Nat     -- host FT of the last accepted PPS (R48)
  hostFt : Nat         -- host FT, ns, at its last alignment (R56)
  reload : Bool        -- host FT has not been loaded yet, and is from the next field-time word (R48)
  betterAt : Nat       -- FT + 1 at which a better IEEE 1588 master was last heard, 0 never (PtpMode 3)
  deriving DecidableEq, Repr

def HostTime.reset : HostTime where
  lastPps := 0
  ppsSent := false
  acceptedAt := 0
  hostFt := 0
  reload := true
  betterAt := 0



/-- What a tracking channel keeps beside its registers (R84 to R86, R91). -/
structure GnssChan where
  periods : Nat        -- CodePeriodCount
  coast : Nat          -- integrations since firmware last wrote a rate
  lockMs : Nat         -- LockTime
  losses : Nat         -- PhaseLossCount
  codeLock : Bool
  carrLock : Bool
  freqLock : Bool
  secSync : Bool
  signKnown : Bool     -- firmware has written the resolved sign
  aligning : Bool      -- INT_ALIGN waits for the next code epoch (R83)
  win : List (Int × Int) -- prompt sums of the last 20 integrations, newest first (R85)
  codeNco : Nat        -- code phase, 2^−32 chip within the primary code
  carrNco : Int        -- accumulated carrier since lock, 2^−32 cycle
  ncoFt : Nat          -- FT, carried through sleep, to which both stand (R93)
  loopRate : Int       -- the carrier loop's integrated rate, mHz (R84)
  cfgAt : Nat          -- FT + 1 of the last CH_CFG write, 0 none
  cfgOld : Nat         -- CH_CFG before it (R95)
  deriving DecidableEq, Repr

def GnssChan.reset : GnssChan where
  periods := 0
  coast := 0
  lockMs := 0
  losses := 0
  codeLock := false
  carrLock := false
  freqLock := false
  secSync := false
  signKnown := false
  aligning := false
  win := []
  codeNco := 0
  carrNco := 0
  ncoFt := 0
  loopRate := 0
  cfgAt := 0
  cfgOld := 0

/-- The link of an antenna head (R76, R77, R96). -/
structure GnssHead where
  good : Nat           -- consecutive good frames with Sync at one position
  place : Nat          -- that symbol position
  frames : Nat         -- FrameCount of the last good frame
  bad : Nat            -- consecutive bad frames
  at_ : Nat            -- FT of the last good frame
  tripped : Nat        -- FT + 1 at which its supply tripped, 0 none
  headType : Nat
  version : Nat
  temperature : Int
  stale : Bool
  deriving DecidableEq, Repr

def GnssHead.reset : GnssHead where
  good := 0
  place := 0
  frames := 0
  bad := 0
  at_ := 0
  tripped := 0
  headType := 0
  version := 0
  temperature := 0
  stale := false

/-- The baseband beside its registers (R81 to R94). -/
structure GnssUnit where
  chans : SMap GnssChan
  heads : SMap GnssHead
  acqQ : List (List Nat)   -- searches waiting, oldest first; the first is the one that runs
  acqPhase : Nat           -- 0 none, 1 capturing, 2 evaluating
  acqAt : Nat              -- FT at which the phase ends
  snapshot : SMap Byte     -- snapshot memory of 512 KiB (R88)
  dumpSeq : Nat
  overrun : Bool           -- in an overrun episode
  overDropped : Nat        -- entries dropped in it
  recGen : Nat             -- records written
  controlAt : Nat          -- FT of the last control frames
  bursting : Bool
  burstFrom : Nat          -- porch tick of the burst's start
  trackTick : Option Nat   -- porch tick at which the burst's first head link locked
  burstNumber : Nat
  burstStore : SMap Byte   -- eight slots of 2,064 bytes
  deriving DecidableEq, Repr

def GnssUnit.reset : GnssUnit where
  chans := []
  heads := []
  acqQ := []
  acqPhase := 0
  acqAt := 0
  snapshot := []
  dumpSeq := 0
  overrun := false
  overDropped := 0
  recGen := 0
  controlAt := 0
  bursting := false
  burstFrom := 0
  trackTick := none
  burstNumber := 0
  burstStore := []



/-- A frequency input beside its registers (R102 to R104). -/
structure FiChan where
  fifo : List (Nat × Bool)   -- edge stamps, oldest first, and whether the edge rises
  lost : Nat                 -- LOST
  polAt : Option Nat         -- stamp of the last edge of the counted polarity since a timeout
  lastAt : Nat               -- FT of the last edge or of the enable
  since : Nat                -- edges since the timeout, up to 2
  exceeds : Bool                -- over-range episode
  shortest : Nat             -- its shortest period, 10 ns
  overwriting : Bool         -- run of overwrites
  runLost : Nat              -- entries lost in it
  deriving DecidableEq, Repr

def FiChan.reset : FiChan where
  fifo := []
  lost := 0
  polAt := none
  lastAt := 0
  since := 0
  exceeds := false
  shortest := 0
  overwriting := false
  runLost := 0

/-- An inertial port beside its registers (R105, R106). -/
structure ImuPort where
  gen : Nat
  stamp : Nat        -- StampFt of the transfer under way
  newest : Nat       -- StampFt of the newest entry
  goodAt : Nat       -- FT of the last entry with CHECK_OK and without STUCK, or of the enable
  failing : Bool     -- episode of check failures
  fails : Nat        -- failures in it
  deriving DecidableEq, Repr

def ImuPort.reset : ImuPort where
  gen := 0
  stamp := 0
  newest := 0
  goodAt := 0
  failing := false
  fails := 0

/-- The publisher of the pose (R107, R108) with its inputs. -/
structure PoseUnit where
  pending : List Byte        -- pending buffer
  fresh : Bool               -- it holds a commit not published yet
  commitAt : Nat             -- FT of that commit
  earlier : Option (List Byte)   -- a commit of an earlier instant that the pending one would replace (R113)
  last : List Byte           -- last published record, firmware's bytes
  ever : Bool                -- a commit has been published
  fi : SMap FiChan
  imu : SMap ImuPort
  deriving DecidableEq, Repr

def PoseUnit.reset : PoseUnit where
  pending := []
  fresh := false
  commitAt := 0
  earlier := none
  last := []
  ever := false
  fi := []
  imu := []


/-- A remap that has been accepted and has not yet switched (R133, R134). -/
structure Remap where
  id : Nat
  srcEngine : Nat
  srcSlot : Nat
  engine : Nat
  slot : Nat
  switchAt : Nat
  client : Nat      -- staging key of the dictionary client that asked, 0 for an engine
  deriving DecidableEq, Repr

/-- A dictionary write to bytes 16 to 59 held for the next frame start (R124). -/
structure HeldWrite where
  id : Nat
  off : Nat
  data : List Byte
  deriving DecidableEq, Repr

/-- The ownership unit (R132): where each ID lives, which output each endpoint holds, remaps and held writes. -/
structure Own where
  map : SMap Nat            -- by ID: owner · 256 + slot + 1; 0 = FREE
  binding : SMap Nat        -- by class · 2^20 + linear output index: ID + 1; 0 = unbound
  remaps : List Remap
  held : List HeldWrite
  accounts : List (Nat × Nat) -- AccountWords that apply from the next frame start (R128)
  staleSince : Nat          -- mismatches since the last 0x3002 (R139)
  boundNow : List (Nat × Nat) -- binds of the running fabric cycle: cycle and ID (R143)
  asked : SMap Nat          -- by staging key: ID + 1 of the client's last remap request (R144)
  deriving DecidableEq, Repr

def Own.reset : Own where
  map := []
  binding := []
  remaps := []
  held := []
  accounts := []
  staleSince := 0
  boundNow := []
  asked := []


/-- The frame unit (R147 to R149). -/
structure FrameUnit where
  len : Nat              -- frame length in force, µs
  nextLen : Nat          -- accepted length not yet in force, 0 none
  nextAt : Nat           -- FT at which it takes effect
  number : Nat           -- frame number of the running frame
  start : Nat            -- FT of its start
  started : Bool         -- a frame has started since the fabric clock came up
  busy : SMap Bool       -- engines woken by a frame start that have not yet written FRM_DONE (R149)
  share : Nat            -- largest share of this frame used before FRM_DONE, % (R476)
  paramGen : Nat         -- GenHead of the parameter block (R148)
  overSince : Nat        -- overruns since the last 0x3010
  policyWas : List (Nat × Nat × Nat) -- published objects written in the running fabric cycle: cycle, object, value before (R168)
  deriving DecidableEq, Repr

def FrameUnit.reset : FrameUnit where
  len := 1000
  nextLen := 0
  nextAt := 0
  number := 0
  start := 0
  started := false
  busy := []
  share := 0
  paramGen := 0
  overSince := 0
  policyWas := []

/-- A pane of the store (R153 to R155). Its bytes lie in DRAM at 0x8000_0000 + slot · 2^20, kept there combined with its fill by
exclusive or, so that an unlisted byte reads as the fill. -/
structure Pane where
  x : Int
  y : Int
  slot : Nat
  fill : Nat
  version : Nat
  deriving DecidableEq, Repr

/-- An outstanding pane fetch (R158). -/
structure Fetch where
  engine : Nat
  tag : Nat
  x : Int
  y : Int
  w : Nat
  h : Nat
  layer : Nat
  dest : Nat        -- memory address of the header
  gen : Nat         -- CoverageGeneration when the first line was read
  ft : Nat          -- FT of that
  changed : Bool    -- a pane write touched the rectangle meanwhile
  first : List Byte -- the cells of the first line, as they were read
  gone : Nat        -- how many of them were missing
  deriving DecidableEq, Repr

/-- A valid line of a cluster's pane cache (R156): 64 cells of one row of one layer of one pane. -/
structure CacheLine where
  cluster : Nat
  set : Nat
  way : Nat
  x : Int           -- pane
  y : Int
  layer : Nat
  row : Nat
  col : Nat         -- first cell column over 64
  deriving DecidableEq, Repr

/-- A target source in its slot (R165). -/
structure TgtSrc where
  slot : Nat
  id : Nat
  lastSeq : Nat
  lastFt : Nat
  live : Bool
  lostAt : Nat      -- FT at which it became not live
  deriving DecidableEq, Repr

/-- Panes, fetches and target sources. -/
structure Look where
  panes : List Pane
  fetches : List Fetch
  cache : List CacheLine -- valid lines of all clusters, the most recently used first
  srcs : List TgtSrc
  ringEpisode : Nat     -- records dropped in the running ring-full episode (R164)
  discSince : Nat       -- targets discarded since the last 0x3015
  lostEpisode : Bool    -- coverage lost, store full, already recorded (R187)
  deriving DecidableEq, Repr

def Look.reset : Look where
  panes := []
  fetches := []
  cache := []
  srcs := []
  ringEpisode := 0
  discSince := 0
  lostEpisode := false


/-- An entry of a shutter queue (R171). -/
structure QEntry where
  engine : Nat
  index : Nat
  gen : Nat
  fireFt : Nat
  slot : Nat
  id : Nat          -- the endpoint in that slot when the entry was accepted: a remap moves it (R135)
  action : Nat      -- 0 off, 1 on, 2 level
  epoch : Nat
  level : Nat
  late : Nat        -- lateness in ns
  stale : Bool
  committed : Bool
  sent : Bool       -- class N: its schedule has left the port; class T: it has been sent in a Dot frame
  undeliv : Bool    -- class T: marked undeliverable (R304)
  deriving DecidableEq, Repr

/-- An executed action that waits for its measurement or for the end of its window (R182, R184). -/
structure Actuation where
  engine : Nat
  slot : Nat
  id : Nat
  cls : Nat
  action : Nat
  epoch : Nat
  account : Nat
  fireFt : Nat
  level : Nat
  late : Nat
  stale : Bool
  handle : Nat
  opening : Bool    -- the measurement of this action is an opening
  measurable : Bool -- a level change on an open valve is not measured (R182)
  openAt : Nat      -- for an off: opening instant + 1 of the on period it ends, 0 none (R480)
  openMeas : Bool   -- that instant was measured
  deriving DecidableEq, Repr

/-- The queues and the measuring path. -/
structure Shutter where
  queue : List QEntry      -- entries of all engines, in order of acceptance
  gens : SMap Nat          -- GEN for the next use of each entry, by engine · 1024 + index
  acts : List Actuation    -- oldest first
  low : SMap Bool          -- engines whose queue is in a low episode (R179)
  missedSince : Nat        -- since the last 0x3020
  droppedSince : Nat       -- since the last 0x3022
  aaTurned : SMap Bool     -- engines whose GenHead has wrapped to 0 since the start (R184)
  aaEpisode : SMap Nat     -- events dropped in an engine's running overflow episode (R185)
  onSince : SMap Nat       -- by ID: opening instant + 1 of an output that is on (OnTime, R480); 0 = off
  onMeas : SMap Bool       -- by ID: that instant is measured
  frameOn : SMap Nat       -- by ID: on-time in ns gathered in the running frame before the current on period (R481)
  undel : List (Nat × Nat) -- nodes in an undeliverable episode (R180), by bus and node
  deriving DecidableEq, Repr

def Shutter.reset : Shutter where
  queue := []
  gens := []
  acts := []
  low := []
  missedSince := 0
  droppedSince := 0
  aaTurned := []
  aaEpisode := []
  onSince := []
  onMeas := []
  frameOn := []
  undel := []

/-- A coverage ledger record (R188). -/
structure LedRec where
  source : Nat
  flags : Nat
  cell : Nat
  seq : Nat
  ft : Nat
  cx : Int
  cy : Int
  len : Nat
  account : Nat
  origin : Nat
  crc : Nat
  deriving DecidableEq, Repr

/-- What a receiver keeps for one source (R190, R192). -/
structure LedSrc where
  source : Nat
  contig : Nat
  seen : List Nat       -- sequences above Contig that have arrived
  far : Nat             -- lowest sequence heard of and not kept: beyond the map, or during a replay (R190, R191)
  gapAt : Option Nat    -- FT at which the present gap began
  askedAt : Option Nat  -- FT of the last resend request
  tries : Nat
  deriving DecidableEq, Repr

/-- The ledger unit (R186 to R192). -/
structure Ledger where
  held : List LedRec     -- the ledger partition, newest first
  srcs : List LedSrc
  replaying : Bool
  rejSince : Nat         -- records rejected since the last 0x3027
  deriving DecidableEq, Repr

def Ledger.reset : Ledger where
  held := []
  srcs := []
  replaying := false
  rejSince := 0



/-- A solenoid channel's running actuation (R201 to R216); its phase, flags and counts are in its registers. -/
structure SolChan where
  on : Bool            -- commanded on: by its endpoint, or forced (R176, R217)
  want : Nat           -- level its endpoint asks for, 0 off; kept while the output is forced, cleared by the close state
  onAt : Nat           -- FT of the on that pulses count from (R205)
  start : Nat          -- FT of the running profile's start
  peakAt : Nat         -- FT at which its peak phase began
  holdAt : Nat         -- FT at which its hold began
  offAt : Nat          -- FT of its turn-off
  slowAt : Nat         -- FT at which its slow recovery began
  drive : Bool         -- the coil is driven: the comparator's, the Hinge's or the probe's decision (R202, R203)
  reached : Bool       -- the peak phase has reached PEAK_I
  pk : Word            -- the profile's words at its start (R201)
  hd : Word
  pwm : Word
  det : Word
  rc : Word
  caught : Bool        -- caught in recovery (R204)
  opened : Bool        -- the opening of this profile is measured or no longer wanted
  checked : Bool       -- the open-load check of this profile is done
  reportOpen : Bool    -- its opening belongs to the endpoint's actuation (R206)
  reportClose : Bool   -- its closing does
  noConf : Bool        -- a fault occurred in its windows
  tooHigh : Bool       -- overcurrent in this profile
  train : Bool         -- a pulse train runs (R205)
  level : Nat          -- level of the last on or level action (R205, R206)
  ton : Nat            -- on-time of its pulses, 10 µs; 0 continuous
  nextPulse : Nat      -- FT of the next pulse start
  pulseOff : Nat       -- FT at which the running pulse or test pulse turns off, 0 none
  openRun : Nat        -- open-load faults in a row
  overRun : Nat        -- overcurrents in a row
  overAt : Nat         -- FT of the last overcurrent
  coolUntil : Nat      -- no energising before this FT after a coil overtemperature, 0 none
  rho : Nat            -- filtered coil resistance, µΩ; 0 before the first sample (R211)
  sampleAt : Nat       -- FT of the last accepted sample
  discards : Nat       -- samples discarded in a row
  closedAt : Nat       -- closing instant of the running recovery, 0 none
  deriving DecidableEq, Repr

def SolChan.reset : SolChan where
  on := false
  want := 0
  onAt := 0
  start := 0
  peakAt := 0
  holdAt := 0
  offAt := 0
  slowAt := 0
  drive := false
  reached := false
  pk := 0
  hd := 0
  pwm := 0
  det := 0
  rc := 0
  caught := false
  opened := false
  checked := false
  reportOpen := false
  reportClose := false
  noConf := false
  tooHigh := false
  train := false
  level := 0
  ton := 0
  nextPulse := 0
  pulseOff := 0
  openRun := 0
  overRun := 0
  overAt := 0
  coolUntil := 0
  rho := 0
  sampleAt := 0
  discards := 0
  closedAt := 0

/-- A power die's boost converter and replica sense channel (R198 to R200, R207). -/
structure SolDie where
  episode : Bool       -- 0x4001 is recorded for this episode
  notReadyAt : Nat     -- FT since which the rail has not been ready
  faultAt : Nat        -- FT of the boost fault that stopped the converter
  stopped : Bool       -- stopped by that fault
  exceeds : Bool          -- stopped by a rail overvoltage
  replicaAt : Nat      -- FT of the last replica reading
  chargeFrom : Option Nat -- rail in mV at which a charge from below 80 % of the target began (R200)
  deriving DecidableEq, Repr

def SolDie.reset : SolDie where
  episode := false
  notReadyAt := 0
  faultAt := 0
  stopped := false
  exceeds := false
  replicaAt := 0
  chargeFrom := none



/-- A Louvre output as it stands: its level and the delayed edges still to come, oldest first (R227). Instants of this chapter count
31.25 ps units: 32 make 1 ns, 5 make a tap, 40 make 1.25 ns. -/
structure LvOut where
  level : Bool
  pend : List (Nat × Bool)
  deriving DecidableEq, Repr

def LvOut.reset : LvOut where
  level := false
  pend := []

/-- A pair's carrier, the carrier edges still to come, and its outputs A and B (R226, R227). -/
structure LvPair where
  lev : Option Bool      -- none until the pair's first interval after an enable
  carr : List (Nat × Bool)
  a : LvOut
  b : LvOut
  supp : Nat             -- pulses omitted
  deriving DecidableEq, Repr

def LvPair.reset : LvPair where
  lev := none
  carr := []
  a := LvOut.reset
  b := LvOut.reset
  supp := 0

/-- A set of timing values marked for transfer (R228). -/
structure LvSet where
  at_ : Nat              -- instant of the commit
  period : Nat           -- taps, before the clamp of R229
  t0 : Nat
  t1 : Nat
  ph : Nat
  cmp : List Nat
  deriving DecidableEq, Repr

/-- A Louvre module's running period: the set it took last, and what is pending (R225 to R235). -/
structure LvMod where
  start : Nat            -- instant of the period start
  p : Nat                -- taps
  t0 : Nat               -- taken times and pair 1 offset, taps
  t1 : Nat
  ph : Nat
  cmp : List Nat         -- taken compares
  fired : Nat            -- compares that have fired in this period, a bit each
  pair0 : LvPair
  pair1 : LvPair
  commits : List LvSet   -- sets marked and not yet taken, oldest first (R228)
  restartAt : List Nat   -- instants of the synchronising restarts still to come (R232)
  takenAt : Nat          -- FT of the last taken set or enable (R235)
  frozenAt : Option Nat  -- instant of the debug halt (R233)
  limEpisode : Bool      -- 0x5084 recorded in this episode
  ignored : Nat          -- synchronising pulses ignored while the chain was closed (R237)
  deriving DecidableEq, Repr

def LvMod.reset : LvMod where
  start := 0
  p := 0
  t0 := 0
  t1 := 0
  ph := 0
  cmp := [0, 0, 0, 0]
  fired := 0
  pair0 := LvPair.reset
  pair1 := LvPair.reset
  commits := []
  restartAt := []
  takenAt := 0
  frozenAt := none
  limEpisode := false
  ignored := 0

/-- A die's synchronising chain (R231). -/
structure LvChain where
  early : Bool           -- from power-die reset until the package first enters Field
  resyncUntil : Nat      -- FT at which the 100 ms after LvResync end, 0 none
  open_ : Bool           -- as last recorded in 0x5085
  deriving DecidableEq, Repr

def LvChain.reset : LvChain where
  early := false
  resyncUntil := 0
  open_ := false



/-- A Hinge slot beside its registers, by global number (R242 to R259). Registers hold the staged values; `taken` those in force. -/
structure HgSlot where
  taken : SMap Word       -- staged registers as last taken, by address
  commitAt : Option Nat   -- FT of a commit that is still to be taken
  e : List Int            -- e[k] to e[k − 3], mantissas
  u : List Int            -- u[k − 1] to u[k − 3]
  v : Word                -- profile velocity and acceleration, F32
  a : Word
  lastAt : Nat            -- FT + 1 of the previous sample instant, 0 none since enabling
  since : Nat             -- FT + 1 of the enabling
  offered : Word          -- output offered at the previous sample
  valid : Bool
  fwAt : Nat              -- FT + 1 of the last write of HG_FWIN, 0 none
  target : List (Word × Nat) -- TARGETs written by another slot that wait for a sample, oldest first, and when (R256, R261)
  result : Option Word    -- result of DEST 0, 4 or 5 that takes effect at the next sample (R244)
  barred : Bool           -- it came to lead with a reserved configuration and writes nothing (R251)
  ovEpisode : Bool
  lateEpisode : Bool
  deriving DecidableEq, Repr

def HgSlot.reset : HgSlot where
  taken := []
  commitAt := none
  e := [0, 0, 0, 0]
  u := [0, 0, 0]
  v := 0
  a := 0
  lastAt := 0
  since := 0
  offered := 0
  valid := false
  fwAt := 0
  target := []
  result := none
  barred := false
  ovEpisode := false
  lateEpisode := false



/-- A load switch's command source and its pulsing (R265 to R271). Its flags are in LS_STATUS. -/
structure LsChan where
  level : Nat            -- level its endpoint or direct command asks for, 0 off; cleared on entering the close state (R287)
  periodAt : Nat         -- FT of the running 5 ms period's start
  ton : Nat              -- its on-time, 10 µs
  pulseOn : Bool         -- within that on-time
  trips : List Nat       -- FT of its latest thermal shutdowns, newest first
  cond : Nat             -- what its scans show: 0 nothing, 1 too little while on, 2 too much while off
  condAt : Nat           -- FT since which
  visitedAt : Nat        -- FT of its last visit by the sense multiplexer
  deriving DecidableEq, Repr

def LsChan.reset : LsChan where
  level := 0
  periodAt := 0
  ton := 0
  pulseOn := false
  trips := []
  cond := 0
  condAt := 0
  visitedAt := 0

/-- A class L firing that the sense multiplexer of a die serves (R270). -/
structure Dwell where
  chan : Nat
  id : Nat
  fireFt : Nat
  opening : Bool
  measured : Bool        -- its crossing measures an actuation (R181, R182)
  deriving DecidableEq, Repr

/-- What a power die holds beside its registers: sense dwells, watchdog, all-close sensing, the analog converter (R270, R277 to
R280, R286, R289). -/
structure LoadDie where
  dwells : List Dwell    -- in FireFt order; the first is served
  dwellAt : Nat          -- FT at which it began
  kickAt : Nat           -- FT of the last valid kick, or of the end of a hold
  wrongEp : Bool         -- 0x6011 is recorded for this episode of wrong tokens
  foreignEp : Bool
  holdToken : Nat        -- session that set the hold
  aclAt : Nat            -- FT + 1 since which the line's channels disagree on this die, 0 they agree
  conv : Option (Nat × Bool × Nat) -- conversion under way: input, triggered, FT of its start
  again : Option Nat     -- scanned conversion to restart
  lastConv : Nat         -- FT + 1 of the last conversion start, 0 none
  lastTrig : Nat         -- FT + 1 of the last triggered conversion start, 0 none
  deriving DecidableEq, Repr

def LoadDie.reset : LoadDie where
  dwells := []
  dwellAt := 0
  kickAt := 0
  wrongEp := false
  foreignEp := false
  holdToken := 0
  aclAt := 0
  conv := none
  again := none
  lastConv := 0
  lastTrig := 0

/-- An analog input (R288 to R290). -/
structure AiChan where
  hist : List Nat        -- latest scanned results, newest first
  resultAt : Nat         -- FT of the last scanned result
  scanFor : Nat          -- FT + 1 of the multiple of AI_PERIOD that the last scanned conversion serves, 0 none
  trigAt : List Nat      -- FTs of the triggers whose conversion has not started, oldest first
  trigSeen : List Nat    -- FTs of the triggers of the last 10 µs, newest first
  trigFrom : Nat         -- FT + 1 of the trigger of the last triggered conversion, 0 none
  resFrom : Nat          -- FT + 1 of the trigger of the last triggered result, 0 none
  trigDone : Nat         -- FT of that result
  trigFaults : Nat       -- its faults of R288, as AI_STATUS bits 6:4
  offAt : Nat            -- FT at which the shunt was disconnected
  deriving DecidableEq, Repr

def AiChan.reset : AiChan where
  hist := []
  resultAt := 0
  scanFor := 0
  trigAt := []
  trigSeen := []
  trigFrom := 0
  resFrom := 0
  trigDone := 0
  trigFaults := 0
  offAt := 0

/-- The samples of a 24 V input that agree, up to now (R274). -/
structure DioIn where
  zone : Nat             -- zone of the latest sample
  count : Nat            -- samples in a row in it
  first : Nat            -- FT of the first of them
  deriving DecidableEq, Repr

def DioIn.reset : DioIn where
  zone := 0
  count := 0
  first := 0

/-- What R265 asks of a 24 V output, and since when (R276). -/
structure DioAsk where
  on : Bool
  since : Nat            -- FT of the last change
  deriving DecidableEq, Repr

def DioAsk.reset : DioAsk where
  on := false
  since := 0


/-- An event waiting for a link's next transmission: an off sent again under R305 or carried under R304. -/
structure SillOff where
  tile : Nat
  dot : Nat
  fireFt : Nat
  carried : Bool
  deriving DecidableEq, Repr

/-- A tile's Status payload (R309): `faults` has a bit per dot, `meas` lists dot, CLOSE and the low 48 bits of the measured FT. -/
structure TileReport where
  flags : Nat
  temperature : Int
  lastSeq : Nat
  late : Nat
  crcErrors : Nat
  faults : Nat
  meas : List (Nat × Bool × Nat)
  deriving DecidableEq, Repr

/-- A tile as the port knows it (R297, R299, R308, R309). -/
structure SillTile where
  present : Bool
  lost : Bool
  tileType : Nat
  serial : Nat
  firstSerial : Option Nat  -- of the first enumeration after a start (R299)
  swapped : Bool
  dots : Nat
  caps : Nat
  driveDelay : Nat
  offset : Nat
  missed : Nat              -- consecutive Polls unanswered
  seq : Nat                 -- Seq of the next Dot frame
  flags : Nat
  dotFaults : Nat           -- one bit per dot
  lastSeq : Nat
  lateEvents : Nat
  crcErrors : Nat
  temperature : Int
  deriving DecidableEq, Repr

def SillTile.reset : SillTile where
  present := false
  lost := false
  tileType := 0
  serial := 0
  firstSerial := none
  swapped := false
  dots := 0
  caps := 0
  driveDelay := 0
  offset := 0
  missed := 0
  seq := 0
  flags := 0
  dotFaults := 0
  lastSeq := 0
  lateEvents := 0
  crcErrors := 0
  temperature := 0

/-- A Sill link (R299, R304, R305, R307, R308). -/
structure SillLink where
  tiles : SMap SillTile
  answers : Nat             -- Identity answers of the running enumeration
  lastIdentAt : Nat         -- FT of the last Identity, or of Enumerate before one
  badFrames : Nat           -- consecutive frames with a bad Crc on UP
  pollNext : Nat            -- tile whose Poll is next
  polled : Option Nat       -- tile whose answer is awaited
  lastPollAt : Nat
  offs : List SillOff       -- head of the next transmission first
  dotOn : SMap Nat          -- by tile · 1024 + dot: FireFt + 1 of the last event sent for the dot where it turned it on
  ran : Bool                -- RUNNING since the last loss that was recorded (0xC001)
  holdUntil : Nat           -- HoldUntil of the last Close frame
  overflowing : Bool        -- in an overflow episode (0xC005)
  reenumAt : Nat            -- FT of the last re-enumeration while a tile is lost
  faultSeen : SMap Nat      -- by tile: Flags and dot-fault state already recorded (0xC004)
  deriving DecidableEq, Repr

def SillLink.reset : SillLink where
  tiles := []
  answers := 0
  lastIdentAt := 0
  badFrames := 0
  pollNext := 0
  polled := none
  lastPollAt := 0
  offs := []
  dotOn := []
  ran := false
  holdUntil := 0
  overflowing := false
  reenumAt := 0
  faultSeen := []


/-- A frame in a port's transmit queue (R335). -/
structure TxFrame where
  port : Nat
  prio : Nat
  fn : Nat
  stream : Nat
  data : List Byte
  entries : List (Nat × Nat) -- schedules: engine and handle of each queue entry carried
  node : Nat                 -- NODE of the sender when the frame was written (R317, R388)
  on : Bool                  -- carries an on or level entry
  deriving DecidableEq, Repr

/-- What a receiver holds for one stream (R319, R320). -/
structure IbStream where
  port : Nat
  sender : Nat
  fn : Nat
  stream : Nat
  highest : Nat
  seen : Nat             -- map of the 64 numbers ending at Highest, bit i = Highest − i
  old : List Nat         -- FT of the latest frames discarded as too old, newest first
  deriving DecidableEq, Repr

/-- A remote node that the package controls (R331, R333, R325). -/
structure IbNode where
  port : Nat
  node : Nat
  heardAt : Nat          -- FT of the last node status
  heard : Bool
  drift : Nat            -- DriftBound it declares, ppb
  flags : Nat            -- Flags of its last status
  before : Nat           -- state to which a lost node returns
  intrusions : List Nat  -- rounds of its counted intrusions, newest first
  removedAt : Nat        -- round since which no intrusion has come while its windows are removed
  removed : Bool
  adopt : List (Nat × Nat) -- endpoints and epochs still to be adopted (R140)
  configAt : Nat         -- FT of the last node configure
  sleepOk : Bool
  deriving DecidableEq, Repr

/-- A receive object that the device holds (R334). -/
structure DevObj where
  port : Nat
  obj : Nat
  node : Bool            -- held for a node; else for a package
  who : Nat
  heardAt : Nat
  deriving DecidableEq, Repr

/-- A rendezvous partner (R336, R337). -/
structure Partner where
  port : Nat
  who : Nat              -- NODE identity
  drift : Nat
  heardTick : Nat        -- porch tick at which it was last heard
  lost : Bool
  tries : Nat            -- wake attempts made
  gaveUp : Bool
  tryTick : Nat          -- porch tick of the latest attempt
  seq : Option IbStream  -- the stream of its beacons (R319)
  wakeDue : Bool         -- a wake-up pattern waits for the open window of a bus that carries traffic
  deriving DecidableEq, Repr

/-- An off schedule that is repeated in each round until its node reports it executed, or until FireFt + 100 ms (R180). -/
structure IbOff where
  out : Nat
  engine : Nat
  handle : Nat
  old : Nat
  epoch : Nat
  level : Nat
  fireFt : Nat
  deriving DecidableEq, Repr

/-- The implement buses. -/
structure IbUnit where
  tx : List TxFrame          -- transmit queues in order of writing
  txSeq : SMap Nat           -- next Seq by port · 2^16 + function · 2^8 + stream
  streams : List IbStream
  nodes : List IbNode
  objects : List DevObj
  partners : List Partner
  silenceUntil : Nat
  silenced : Bool
  holdUntil : Nat            -- HoldUntil of the last all-close sent (R327)
  closeSentAt : Nat
  refused : List Nat         -- ports in an episode of refusal (R335)
  outSenders : List (Nat × Nat) -- senders in an out-of-window episode, by port (R324)
  catchAll : List Nat        -- ports in a catch-all episode (R334)
  dupNumber : Bool           -- another package sends under our number (R33)
  beaconTick : Nat           -- porch tick of the last beacon sent
  offs : List IbOff          -- off schedules under repetition, oldest first
  discSince : SMap Nat       -- frames discarded on a port since its last 0x700E
  wakePorts : List Nat       -- ports enabled when the package went to sleep: the rendezvous unit drives their transceivers (R336)
  busAt : SMap Nat           -- FT of the latest frame seen on a port while asleep (R337)
  refSince : SMap Nat        -- priority-0 frames refused on a port since its last 0x7006
  sendEnd : SMap Nat         -- FT + 1 at which the frame that a port sends has ended (R322)
  beaconEnd : SMap Nat       -- porch tick at which the last beacon on a port, sent or received, has ended (R340)
  deriving DecidableEq, Repr

def IbUnit.reset : IbUnit where
  tx := []
  txSeq := []
  streams := []
  nodes := []
  objects := []
  partners := []
  silenceUntil := 0
  silenced := false
  holdUntil := 0
  closeSentAt := 0
  refused := []
  outSenders := []
  catchAll := []
  dupNumber := false
  beaconTick := 0
  offs := []
  discSince := []
  wakePorts := []
  busAt := []
  refSince := []
  sendEnd := []
  beaconEnd := []



/-- A message frame as its sending half built it (R346), and what becomes of its content at the far side: the host half sends `next` on;
`port` is the host port of a message that goes to the field half. -/
structure TrMsg where
  kind : Nat
  lane : Nat               -- the lane of its kind
  toField : Bool
  stamp : Nat              -- StampFt
  unaligned : Bool         -- HOST_UNALIGNED
  payload : List Byte
  next : List Out
  port : Nat
  deriving DecidableEq, Repr

/-- The Transom beside its registers (R344 to R351). -/
structure Transom where
  retrainAt : SMap Nat     -- FT + 1 of a lane's last retraining
  laneStop : Bool          -- three periods at 4 MHz have come and none of 1 MHz since (R349)
  laneLost : Bool
  fwStop : Bool            -- host firmware asserts the host stop (R349)
  source : Nat             -- what asserted the stop: 1 lane, 2 HostStop, 3 firmware, 4 loss
  poseQ : List (Nat × Bool × List Byte) -- pose-in messages waiting to cross: StampFt, HOST_UNALIGNED, payload (R348, R350)
  busy : List (Nat × Nat × Nat) -- frames on their way: kind, lane, and FT at which they have crossed (R345)
  asLane : Nat             -- lane of the next one, M4 and M5 alternately
  tgtLane : Nat            -- lane of the next target list, M2 and M3 alternately
  held : List TrMsg        -- frames that wait for a lane, oldest first (R345, R348)
  dropSince : Nat          -- frames dropped since the last 0x7010
  keyhole : Bool           -- attached (R355)
  deriving DecidableEq, Repr

def Transom.reset : Transom where
  retrainAt := []
  laneStop := false
  laneLost := false
  fwStop := false
  source := 0
  poseQ := []
  busy := []
  asLane := 4
  tgtLane := 2
  held := []
  dropSince := 0
  keyhole := false


/-- A response the server keeps for a client (R356). -/
structure Kept where
  client : Nat
  tid : Nat
  content : List Nat
  status : Nat
  code : Nat
  data : List Byte
  more : Bool              -- the flag MORE
  at_ : Nat
  deriving DecidableEq, Repr

/-- A persistent write whose journal entry is being committed: what to answer, and what to put back if the program fails
(R379). -/
structure Journal where
  req : Req
  idx : Nat
  sub : Nat
  off : Nat
  newVal : Nat
  oldVal : Nat
  newBytes : List Byte
  oldBytes : List Byte
  data : List Byte         -- the data of the request
  crc : Nat                -- the entry's CRC-32
  deriving DecidableEq, Repr

/-- A request the server still works on (R356, R380, R413). -/
structure Waiting where
  req : Req
  op : Nat               -- 1 read, 2 write, 3 restore
  idx : Nat
  sub : Nat
  off : Nat
  data : List Byte
  since : Nat
  deriving DecidableEq, Repr

/-- A transfer in progress on a host CAN port (R357). -/
structure CanXfer where
  port : Nat
  client : Nat
  total : Nat
  data : List Byte
  nextSeq : Nat
  lastAt : Nat
  deriving DecidableEq, Repr

/-- A response that travels in several frames on a host CAN port (R357). -/
structure CanTx where
  port : Nat
  client : Nat
  tid : Nat
  rest : List Byte         -- bytes of the PDU that have not been sent
  seq : Nat                -- sequence of the next consecutive frame
  lastAt : Nat
  deriving DecidableEq, Repr

/-- A firmware-defined object of the active image (R412). -/
structure FwObj where
  idx : Nat
  sub : Nat
  ty : OTy
  acc : Acc
  level : Nat
  flags : Nat
  size : Nat
  storage : Nat
  dflt : Nat
  deriving DecidableEq, Repr

/-- The dictionary server. -/
structure DictSrv where
  kept : List Kept           -- newest first
  lastAt : List (Nat × Nat)  -- FT of each client's last request, by staging key
  journal : List Journal     -- writes whose entry is being committed, oldest first
  entries : Nat              -- entries in the active half of the journal
  half : Nat
  compacting : Bool
  deferred : List Waiting    -- writes that wait for compaction (R380)
  held : List Waiting        -- writes that let a lower transport's write of this cycle go first (R388)
  crossing : List Waiting    -- requests that wait for a message lane, oldest first (R345, R348)
  fw : Option Waiting        -- the request outstanding at DictEngine (R413)
  fwQueue : List Waiting     -- requests that wait for it
  fwObjs : List FwObj
  dictEngine : Nat           -- DictEngine of the active image, 0xFFFF none (R409)
  xfers : List CanXfer
  txs : List CanTx
  failsafe : List (Nat × Nat)      -- the stored fail-safe states, outside the journal (R279, R378)
  restores : List (Nat × Nat × Nat) -- journalled firmware values still to be delivered (R414)
  defaultsNext : Bool        -- RestoreDefaults takes effect at the next start (R381)
  deriving DecidableEq, Repr

def DictSrv.reset : DictSrv where
  kept := []
  lastAt := []
  journal := []
  entries := 0
  half := 0
  compacting := false
  deferred := []
  held := []
  crossing := []
  fw := none
  fwQueue := []
  fwObjs := []
  dictEngine := 0xFFFF
  xfers := []
  txs := []
  failsafe := []
  restores := []
  defaultsNext := false


/-- What an engine holds beside its general and vector registers and its device registers (R390, R391, R405 to R408). -/
structure Eng where
  pc : Nat
  running : Bool         -- released from reset
  gated : Bool           -- clock-gated by WAIT or FDONE (R407)
  stopped : Bool         -- stopped by a double fault (R408)
  shadowT : Word         -- the 64-bit read shadow at thread level (R391)
  shadowH : Word         -- the one used in a handler
  tmrDone : Bool         -- TIMER has been set for the present compare value
  releasedAt : Nat       -- its die's clock at its release from reset, as DieClk counts it (ENG_CYCLE)
  deriving DecidableEq, Repr

def Eng.reset : Eng where
  pc := 0x160000
  running := false
  gated := false
  stopped := false
  shadowT := 0
  shadowH := 0
  tmrDone := false
  releasedAt := 0


/-- An entry of the Deadbolt log (R425). -/
structure DbEntry where
  ft : Nat
  master : Nat
  cause : Nat
  flags : Nat
  addr : Nat
  epc : Nat
  releaseFt : Nat
  deriving DecidableEq, Repr

/-- A session, open or ended (R431, R432). -/
structure Sess where
  token : Nat
  transport : Transport
  client : Nat
  level : Nat
  openedAt : Nat
  lastAt : Nat
  endedAt : Option Nat
  deriving DecidableEq, Repr

/-- A challenge that has been read and not yet used (R431). -/
structure Chal where
  transport : Transport
  client : Nat
  bytes : List Byte
  at_ : Nat
  deriving DecidableEq, Repr

/-- The windows' log, keys, secrets and sessions. -/
structure Security where
  log : List DbEntry          -- newest first, at most 64
  keys : List (Nat × List Byte) -- eight slots: 0 empty, 1 active, 2 revoked; the public key of slots 4 to 7 (R427)
  secrets : List (Option (List Byte)) -- levels 1 and 2 (R430)
  sessions : List Sess
  chals : List Chal
  fails : List (Nat × Nat × Nat) -- failures: transport number, client, FT (R431)
  blocked : List (Nat × Nat × Nat) -- clients refused until an FT
  halts : List (Nat × Nat)    -- halted clusters and the token of the session that set the halt (R426)
  deriving DecidableEq, Repr

def Security.reset : Security where
  log := []
  keys := List.replicate 4 (1, []) ++ List.replicate 4 (0, [])
  secrets := [none, none]
  sessions := []
  chals := []
  fails := []
  blocked := []
  halts := []



/-- The engine clock of an engine die and the heat of its sensors (R26, R447). -/
structure DieClk where
  ticks : Nat              -- twice the nanoseconds that the clock has run, those at half rate once: ten make an engine cycle
  at_ : Nat                -- FT up to which they are counted
  hot130 : Nat             -- FT + 1 of the last reading of 130 °C or more
  hot135 : Nat             -- and of 135 °C or more
  deriving DecidableEq, Repr

def DieClk.reset : DieClk where
  ticks := 0
  at_ := 0
  hot130 := 0
  hot135 := 0


/-- A class N message of a paired unit that waits for the end of its shutter frame, where its entries are ordered (R449). -/
structure PairItem where
  cancel : Bool
  fireFt : Nat
  id : Nat
  out : Nat
  engine : Nat
  handle : Nat
  old : Nat
  action : Nat
  epoch : Nat
  level : Nat
  interval : Nat         -- interval in which the shutter frame that accepted it started
  deriving DecidableEq, Repr

/-- What a unit knows of one ended interval (R450, R451). -/
structure PairTerm where
  interval : Nat
  digest : Nat
  health : Nat
  deriving DecidableEq, Repr

/-- The pairing unit (R448 to R456). -/
structure PairUnit where
  state : Nat            -- 0 unpaired, 1 ACTIVE, 2 YIELDED, 3 REJOINING
  batch : List PairItem
  digests : List (Nat × Nat) -- own digests under way, by interval
  built : List (Nat × Nat × Nat) -- schedules built: engine, handle, interval
  own : List PairTerm    -- ended intervals, newest first
  partner : List PairTerm
  partnerState : Nat
  heardInterval : Nat    -- interval in which the partner's last pairing frame came
  lost : Bool
  image : Nat            -- partner's ImageVersion and ConfigCheck
  check : Nat
  heard : Bool           -- a pairing frame has come since the pair was set
  got : List Nat         -- command streams whose Highest the partner has given since REJOINING began, function · 256 + stream
  cleanUs : Nat          -- CleanTime in µs
  matches_ : Nat         -- intervals in a row whose digests were equal
  matchAt : Nat          -- the last of them
  deriving DecidableEq, Repr

def PairUnit.reset : PairUnit where
  state := 0
  batch := []
  digests := []
  built := []
  own := []
  partner := []
  partnerState := 0
  heardInterval := 0
  lost := false
  image := 0
  check := 0
  heard := false
  got := []
  cleanUs := 0
  matches_ := 0
  matchAt := 0

/-- The power unit beside its registers: feeds, hold-up, transitions, temperatures (R438 to R447, R458). -/
structure PowerUnit where
  target : Option PState   -- state that the transition under way leads to (R445)
  parkAfter : Bool         -- it goes on from Standby to Parked
  failAt : Nat             -- FT at which the power failure was declared (R440)
  holdupAt : Nat           -- operating ticks at the last capacitance measurement (R442)
  clusters : SMap Nat      -- by cluster: 0 off, 1 powering up, 2 loading code, 3 running (R444)
  halveNext : Nat          -- engine dies to be halved at the next frame start, a bit per die
  restore : Nat            -- engine dies to be restored at the next frame start: bits 1:0 from the stop, 3:2 from halving
  eccAt : Nat              -- FT + 1 of the last uncorrectable memory error (R452)
  overFeed : Nat           -- feeds in an episode of overload, a bit per feed (R439)
  onSince : Nat            -- actions that fired outside Field since the last 0x9011 (R446)
  deriving DecidableEq, Repr

def PowerUnit.reset : PowerUnit where
  target := none
  parkAfter := false
  failAt := 0
  holdupAt := 0
  clusters := []
  halveNext := 0
  restore := 0
  eccAt := 0
  overFeed := 0
  onSince := 0


/-- A native event record (R470). -/
structure EvRec where
  code : Nat
  flags : Nat
  origin : Nat
  params : List Byte
  ft : Nat
  cycles : Nat
  opSeconds : Nat
  deriving DecidableEq, Repr

/-- A forerunner record waiting for its page (R474). -/
structure FrRec where
  code : Nat
  cycles : Nat
  hours : Nat
  p : List Nat
  flags : Nat
  deriving DecidableEq, Repr

/-- A committed flash page: its place in the area's ring and its trailer fields and records (R465). -/
structure Page where
  pos : Nat
  seq : Nat
  kind : Nat
  count : Nat
  ft : Nat
  cycles : Nat
  data : List Byte
  deriving DecidableEq, Repr

/-- A page whose program power cut short (R467): what it was to hold, and which of the open outcomes it met. -/
structure Torn where
  page : Page
  seed : Nat
  deriving DecidableEq, Repr

/-- One ring area of the flash (R463, R464). -/
structure Area where
  pages : List Page        -- present pages, newest first
  nextPos : Nat            -- next page position
  nextSeq : Nat            -- next PageSeq
  torn : List Torn         -- pages whose program was cut short, until their block is erased (R467 to R469)
  deriving DecidableEq, Repr

def Area.reset : Area where
  pages := []
  nextPos := 0
  nextSeq := 0
  torn := []

/-- The flash controller: ring areas by number (0 configuration, 1 event, 2 forerunner, 3 histogram, 4 checkpoint, 5 archive,
6 ledger), the operation under way and those waiting (R463 to R466). -/
structure Flash where
  areas : SMap Area
  progArea : Option Nat
  progPage : Option Page
  progQueue : List (Nat × Page)  -- pages waiting for the controller, with their areas
  erase : Option (Nat × Nat)     -- area and block being erased
  eraseQueue : List (Nat × Nat)
  partErased : List (Nat × Nat)  -- blocks whose erase power cut short, until the next scan (R469)
  suspended : Bool
  barred : Bool                  -- no new page may start: HoldupDeadline has passed (R440)
  lostRecords : Nat              -- staged records lost at the last power failure (R479)
  lostEntries : Nat              -- metering entries lost at it (R484)
  deriving DecidableEq, Repr

def Flash.reset : Flash where
  areas := []
  progArea := none
  progPage := none
  progQueue := []
  erase := none
  eraseQueue := []
  partErased := []
  suspended := false
  barred := false
  lostRecords := 0
  lostEntries := 0

/-- A histogram (R475): bins that are not 0, extremes, snapshot generation. -/
structure Hist where
  bins : List (Nat × Nat)
  minV : Int
  maxV : Int
  minFt : Nat
  maxFt : Nat
  any : Bool         -- a value has been fed since the last clear
  gen : Nat
  changed : Bool     -- changed since its last page (R477)
  cleared : Bool     -- cleared since its last page (R478)
  since : List (Nat × Nat) -- counts added since its last Kind 3 page (R477)
  deriving DecidableEq, Repr

def Hist.reset : Hist where
  bins := []
  minV := 0
  maxV := 0
  minFt := 0
  maxFt := 0
  any := false
  gen := 0
  changed := false
  cleared := false
  since := []

/-- The event recorder (R470 to R479). -/
structure Recorder where
  staged : List EvRec        -- the staging ring, oldest first
  stagedAt : Nat             -- FT at which the first record of the page was staged (R473)
  inFlight : Nat             -- staged records in the page now being programmed
  fullEpisode : Bool         -- the ring is full and 0xB001 is still to be staged
  epDropped : Nat            -- records dropped in this episode
  forerunner : List FrRec    -- forerunner records waiting, oldest first
  frNext : Nat               -- ForerunnerNextSeq
  hist : SMap Hist
  snapAt : Nat               -- FT of the last periodic snapshot (R477)
  evLast : List (Nat × Nat)  -- FT at which a rate-limited event was last recorded, by event and subject
  scanDone : Bool
  deriving DecidableEq, Repr

def Recorder.reset : Recorder where
  staged := []
  stagedAt := 0
  inFlight := 0
  fullEpisode := false
  epDropped := 0
  forerunner := []
  frNext := 0
  hist := []
  snapAt := 0
  evLast := []
  scanDone := false

/-- The quantities of one account and layer in the current period (R480, R483). -/
structure Acct where
  flags : Nat
  actuations : Nat
  onTime : Nat
  area : Nat
  newCells : Nat
  product : Nat
  changed : Bool     -- since the last checkpoint (R484)
  deriving DecidableEq, Repr

def Acct.reset : Acct where
  flags := 0
  actuations := 0
  onTime := 0
  area := 0
  newCells := 0
  product := 0
  changed := false

/-- The metering unit: the current period (R482 to R486). -/
structure Metering where
  accts : SMap Acct          -- by account · 4 + layer
  flags : Nat                -- period header flags
  startWall : Nat
  startFt : Nat
  stepBack : Nat
  stepForward : Nat
  entriesLost : Nat
  remainder : List Nat       -- carry of R481 per layer
  fiLast : List Nat          -- FI_COUNT at the last frame start, by input (R481)
  wallSet : Bool             -- UtcOffset has once been set (R482)
  checkpointAt : Nat         -- FT of the last checkpoint
  runsNow : List (Nat × Nat × Nat × Nat) -- runs of the latest fabric cycle that has any: cycle, account word, cells, new cells (R488)
  deriving DecidableEq, Repr

def Metering.reset : Metering where
  accts := []
  flags := 16
  startWall := 0
  startFt := 0
  stepBack := 0
  stepForward := 0
  entriesLost := 0
  remainder := [0, 0, 0, 0]
  fiLast := [0, 0, 0, 0, 0, 0, 0, 0]
  wallSet := false
  checkpointAt := 0
  runsNow := []



/-- A start in progress, the start attempt and the update (R492 to R502). Attempt, failures and latch are the porch's and its mirror
keeps them. -/
structure StartUnit where
  step : Nat             -- 0 none runs, 1 porch, 2 power-die reset, 3 oscillator and PLLs, 4 configuration, 5 image check, 6 engine load, 7 binding
  kind : Nat             -- 0 cold, 1 package reset, 2 warm
  open_ : Bool           -- ATTEMPT_OPEN
  openTick : Nat         -- porch tick of the opening
  interrupted : Nat      -- 0 no, 1 by a power failure, 2 by PackageReset
  declared : Bool        -- this attempt has got its declaration
  inService : Bool
  failures : List Nat    -- OperatingHours of the failures that count, newest first
  latch : Bool
  slot : Nat             -- slot of the attempt: 0 A, 1 B
  failedSlot : Option Nat -- slot of the latest counted failure
  serviceSlot : Option Nat -- slot that last reached in service
  accepted : List Byte   -- digest accepted at the last cold start or package reset
  upSlot : Nat           -- slot of the update
  upReq : Option Req     -- request that waits for the erase
  resetReq : Nat         -- value of an accepted PackageReset whose response goes first
  deriving DecidableEq, Repr

def StartUnit.reset : StartUnit where
  step := 0
  kind := 0
  open_ := false
  openTick := 0
  interrupted := 0
  declared := false
  inService := false
  failures := []
  latch := false
  slot := 0
  failedSlot := none
  serviceSlot := none
  accepted := []
  upSlot := 0
  upReq := none
  resetReq := 0


/-- The device without the command queue. -/
structure Dev where
  /-- Device registers by bank and address (register map), unlisted = reset value. -/
  regs : SMap Word
  /-- Dictionary values that mirror no register, by client and object, unlisted = default. -/
  objs : SMap Nat
  /-- Memory bytes: engine local memory, cluster shared memory and DRAM, unlisted = 0. -/
  mem : SMap Byte
  /-- Bytes of DOM and STR objects with storage of their own, unlisted = 0. -/
  domb : SMap Byte
  /-- The persistent store of R379: newest value of each journalled object, by key. -/
  nv : List (Nat × Nat)
  /-- Journalled bytes of persistent DOM and STR objects. -/
  nvDom : SMap Byte
  /-- What the device has sent, newest first (the model's own trace). -/
  out : List Out
  /-- The model's own counter behind free values. -/
  fresh : Nat
  /-- The power state (R11). -/
  pstate : PState
  /-- The FT unit. -/
  time : FtUnit
  /-- Time-master election and reference messages. -/
  tmst : TimeMaster
  /-- Oscillator and PLLs. -/
  clk : Clocks
  /-- The porch. -/
  porch : Porch
  /-- The Latch. -/
  latch : LatchUnit
  /-- The time lane and host FT. -/
  htime : HostTime
  /-- The GNSS baseband. -/
  gnss : GnssUnit
  /-- Pose, frequency inputs and inertial ports. -/
  pose : PoseUnit
  /-- The ownership unit. -/
  own : Own
  /-- The frame unit. -/
  frame : FrameUnit
  /-- Panes, fetches and target sources. -/
  look : Look
  /-- Shutter queues and the measuring path. -/
  shq : Shutter
  /-- The ledger unit. -/
  led : Ledger
  /-- Solenoid channels, by SOL number. -/
  sol : SMap SolChan
  /-- Boost converters, by die. -/
  solDie : SMap SolDie
  /-- Louvre modules, by number. -/
  lv : SMap LvMod
  /-- Synchronising chains, by die. -/
  lvChain : SMap LvChain
  /-- FT + 1 of the last pulse of each trigger line, by die · 32 + line (R230). -/
  trigLine : SMap Nat
  /-- Hinge slots, by global number. -/
  hg : SMap HgSlot
  /-- Winner of each group at its last sample, slot in die + 1, by die · 8 + group. -/
  hgWin : SMap Nat
  /-- Changes of winner since the last 0x5004, by die · 8 + group. -/
  hgWins : SMap Nat
  /-- Set-points that DEST 4 slots have given hysteretic channels, by die · 32 + channel: 0 none, else 1 + slot · 4096 + mA. -/
  hyst : SMap Nat
  /-- What is asked of each 24 V output, by DIO number. -/
  dioAsk : SMap DioAsk
  /-- Sampling of each 24 V input, by DIO number. -/
  dioIn : SMap DioIn
  /-- Supply groups in under-voltage, a bit each (R275). -/
  groupLow : Nat
  /-- Load switches, by LS number. -/
  ls : SMap LsChan
  /-- What each digital output's command source asks for, by DIO number. -/
  dioOn : SMap Bool
  /-- Power dies, by number. -/
  loadDie : SMap LoadDie
  /-- Analog inputs, by AI number. -/
  ai : SMap AiChan
  /-- FT + 1 since which the channels of a safety pair disagree, 0 they agree (R283). -/
  pairAt : SMap Nat
  /-- FT + 1 of the latest tick told of at which a safety pair disagreed, 0 it agrees (R283). -/
  sinTickAt : SMap Nat
  /-- Latched discrepancies, held by the porch (R283, R286): bits 7:0 the pairs, bits 8 and 9 the line on each die. -/
  disc : Nat
  /-- Sill links, by number. -/
  sill : SMap SillLink
  /-- The implement buses. -/
  ib : IbUnit
  /-- The Transom. -/
  tr : Transom
  /-- The dictionary server. -/
  dict : DictSrv
  /-- Engines, by engine number. -/
  eng : SMap Eng
  /-- General registers, by engine · 32 + number; 0 at release (R411). -/
  greg : SMap Word
  /-- Vector lanes, by engine · 256 + register · 16 + lane; 0 at release (R411). -/
  vreg : SMap Word
  /-- The 64-bit read shadow of every other master (R391), by master number. -/
  shadows : SMap Word
  /-- Held low words of 64-bit writes (R392), by master · 2^32 + address. -/
  lowHeld : SMap Word
  /-- Engine dies whose engine clock is stopped (R447), a bit per die. -/
  dieStopped : Nat
  /-- Deadbolt log, keys, secrets and sessions. -/
  sec : Security
  /-- Engine clocks, by engine die. -/
  dieClk : SMap DieClk
  /-- The pairing unit. -/
  pair : PairUnit
  /-- The power unit. -/
  pwr : PowerUnit
  /-- The NOR flash controller and its ring areas. -/
  flash : Flash
  /-- The event recorder. -/
  rcd : Recorder
  /-- The metering unit. -/
  mtr : Metering
  /-- Starts, the start attempt and the update. -/
  start : StartUnit
  deriving DecidableEq, Repr

/-- Why a run of the model stops. No meaning of this model raises one: the spec gives every command an effect, and every
address the block decodes has one (R7); the constructor stands for a state outside the spec. -/
inductive Fault where
  /-- Raised by nobody; kept so that the type names a reason. Safe. -/
  | outsideSpec
  deriving DecidableEq, Repr

/-- Why a command is not run. -/
inductive Refusal where
  /-- A command that has no meaning yet, by its mnemonic; raised only by a dispatch arm. Safe. -/
  | notModelled (mnemonic : String)
  deriving DecidableEq, Repr

/-- The machine: the device and the commands that wait, first in, first out. -/
structure State where
  dev : Dev
  pending : List Instr
  deriving DecidableEq, Repr

/-- The device right after reset: the package is Off, before its first cold start; every register at its reset value. -/
def Dev.reset : Dev where
  regs := []
  objs := []
  mem := []
  domb := []
  nv := []
  nvDom := []
  out := []
  fresh := 0
  pstate := .off
  time := FtUnit.reset
  tmst := TimeMaster.reset
  clk := Clocks.reset
  porch := Porch.reset
  latch := LatchUnit.reset
  htime := HostTime.reset
  gnss := GnssUnit.reset
  pose := PoseUnit.reset
  own := Own.reset
  frame := FrameUnit.reset
  look := Look.reset
  shq := Shutter.reset
  led := Ledger.reset
  sol := []
  solDie := []
  lv := []
  lvChain := []
  trigLine := []
  hg := []
  hgWin := []
  hgWins := []
  hyst := []
  dioAsk := []
  dioIn := []
  groupLow := 0
  ls := []
  dioOn := []
  loadDie := []
  ai := []
  pairAt := []
  sinTickAt := []
  disc := 0
  sill := []
  ib := IbUnit.reset
  tr := Transom.reset
  dict := DictSrv.reset
  eng := []
  greg := []
  vreg := []
  shadows := []
  lowHeld := []
  dieStopped := 0
  sec := Security.reset
  dieClk := []
  pair := PairUnit.reset
  pwr := PowerUnit.reset
  flash := Flash.reset
  rcd := Recorder.reset
  mtr := Metering.reset
  start := StartUnit.reset

/-- The machine right after reset. -/
def State.reset : State := { dev := Dev.reset, pending := [] }

end Sys2Proof.Machine
end

