-- ==== Sys2Proof/Machine/Ops.lean ====
section
/-! DEFINITION. The named operations over the device: registers, dictionary values, memory bytes, time, recorded events and
emissions. Every meaning reads and writes the device through these. -/
namespace Sys2Proof.Machine

/-! ## Registers -/

/-- A register of the package's own copy. -/
def Dev.rd (d : Dev) (a : Nat) : Word := SMap.get regReset d.regs a

/-- Writes a register of the package's own copy, past every access rule: what the device itself does. -/
def Dev.wr (d : Dev) (a : Nat) (w : Word) : Dev := { d with regs := SMap.set regReset d.regs a w }

/-- The key of the copy of a register that a master reaches (R143, R168, R194, R408). -/
def bankKey (m a : Nat) : Nat :=
  match regRow a with
  | none => a
  | some r =>
    match r.bank with
    | .package => a
    | .master => regKey (m + 1) a
    | .region => regKey (0x1000 + m / 128) a

/-- A master's copy of a register. -/
def Dev.rdM (d : Dev) (m a : Nat) : Word := d.rd (bankKey m a)
def Dev.wrM (d : Dev) (m a : Nat) (w : Word) : Dev := d.wr (bankKey m a) w

/-- A field of a register, as a number. -/
def Dev.f (d : Dev) (a hi lo : Nat) : Nat := fld (d.rd a) hi lo
def Dev.fM (d : Dev) (m a hi lo : Nat) : Nat := fld (d.rdM m a) hi lo
def Dev.bit (d : Dev) (a i : Nat) : Bool := fbit (d.rd a) i
def Dev.bitM (d : Dev) (m a i : Nat) : Bool := fbit (d.rdM m a) i

/-- Sets a field of a register. -/
def Dev.setF (d : Dev) (a hi lo v : Nat) : Dev := d.wr a (putFld (d.rd a) hi lo v)
def Dev.setFM (d : Dev) (m a hi lo v : Nat) : Dev := d.wrM m a (putFld (d.rdM m a) hi lo v)
def Dev.setBit (d : Dev) (a i : Nat) (b : Bool) : Dev := d.wr a (putBit (d.rd a) i b)
def Dev.setBitM (d : Dev) (m a i : Nat) (b : Bool) : Dev := d.wrM m a (putBit (d.rdM m a) i b)

/-- Adds to a field, wrapping at its width. -/
def Dev.incF (d : Dev) (a hi lo : Nat) : Dev := d.setF a hi lo (d.f a hi lo + 1)

/-- Adds to a field, saturating at its width. -/
def Dev.satF (d : Dev) (a hi lo : Nat) : Dev := d.setF a hi lo (min (2 ^ (hi + 1 - lo) - 1) (d.f a hi lo + 1))

/-- A register as a signed number. -/
def Dev.rdI (d : Dev) (a : Nat) : Int := swd (d.rd a)

/-- Two adjacent registers as one 64-bit value, low word first. -/
def Dev.rd64 (d : Dev) (a : Nat) : Nat := (d.rd a).toNat + 2 ^ 32 * (d.rd (a + 4)).toNat
def Dev.wr64 (d : Dev) (a v : Nat) : Dev := (d.wr a (wd v)).wr (a + 4) (wd (v / 2 ^ 32))
def Dev.rd64M (d : Dev) (m a : Nat) : Nat := (d.rdM m a).toNat + 2 ^ 32 * (d.rdM m (a + 4)).toNat
def Dev.wr64M (d : Dev) (m a v : Nat) : Dev := (d.wrM m a (wd v)).wrM m (a + 4) (wd (v / 2 ^ 32))

/-! ## Dictionary values -/

/-- A value of the dictionary store (key of `Obj`, package's own copy). -/
def Dev.ob (d : Dev) (k : Nat) : Nat := SMap.get objDefault d.objs k
def Dev.setOb (d : Dev) (k v : Nat) : Dev := { d with objs := SMap.set objDefault d.objs k v }

/-- A client's copy of a staged value (R376). -/
def Dev.obC (d : Dev) (c k : Nat) : Nat := d.ob (c * 0x1000000 + k)
def Dev.setObC (d : Dev) (c k v : Nat) : Dev := d.setOb (c * 0x1000000 + k) v

/-- Counts up a value of `bits` bits, wrapping. -/
def Dev.incOb (d : Dev) (k : Nat) : Dev := d.setOb k ((d.ob k + 1) % 2 ^ 32)
def Dev.addOb (d : Dev) (k n : Nat) : Dev := d.setOb k ((d.ob k + n) % 2 ^ 32)

/-- A capacity of R518 has been reached since the last start, by its order (R519). -/
def Dev.reach (d : Dev) (i : Nat) : Dev := d.setOb Obj.CapacityReached (d.ob Obj.CapacityReached ||| 2 ^ (i - 1))

/-- The objects whose codes are not the codes of the register fields they mirror: LsSenseMode, AiAverage, AiTriggerLine (R270,
R289's tables). -/
def Dev.codedGet (d : Dev) (idx sub : Nat) : Option Nat :=
  let i := sub - 1
  if idx = 0x4207 then some (if d.bit (Reg.LS_SENSE i) 31 then 0x10 + d.f (Reg.LS_SENSE i) 3 0 else 0)
  else if idx = 0x4252 then some (2 ^ d.f (Reg.AI_CTRL i) 2 0)
  else if idx = 0x4253 then some (if d.bit (Reg.AI_CTRL i) 29 then d.f (Reg.AI_CTRL i) 28 24 else 0xFF)
  else none

/-- The same objects written; a mode that is off leaves the channel or line as it was. -/
def Dev.codedSet (d : Dev) (idx sub v : Nat) : Option Dev :=
  let i := sub - 1
  if idx = 0x4207 then
    some (if v = 0 then d.setBit (Reg.LS_SENSE i) 31 false
      else (d.setBit (Reg.LS_SENSE i) 31 true).setF (Reg.LS_SENSE i) 3 0 (v - 0x10))
  else if idx = 0x4252 then some (d.setF (Reg.AI_CTRL i) 2 0 (Nat.log2 v))
  else if idx = 0x4253 then
    some (if v = 0xFF then d.setBit (Reg.AI_CTRL i) 29 false
      else (d.setBit (Reg.AI_CTRL i) 29 true).setF (Reg.AI_CTRL i) 28 24 v)
  else none

/-- The value of an object, from the register field it mirrors or from the store, as its bit pattern. -/
def Dev.objVal (d : Dev) (client idx sub : Nat) : Nat :=
  match objRow idx sub with
  | none => 0
  | some r =>
    match r.mirror with
    | some m =>
      let v := d.f (m.addr r idx sub) m.hi m.lo
      if r.ty.signed then unsx (8 * r.ty.bytes) (sx (m.hi + 1 - m.lo) v * m.mul) else v * m.mul
    | none => (d.codedGet idx sub).getD (d.ob (objKey (if r.staged then client else 0) idx sub))

/-- The value that a mirrored register takes where a mirror of bits hi:lo is written: reserved bits between its fields stay 0 (R7). -/
def fieldsIn (a hi lo v : Nat) : Nat :=
  match regRow a with
  | none => v
  | some r =>
    let fs := r.fields.filter (fun f => decide (lo ≤ f.lo) && decide (f.hi ≤ hi))
    if fs.isEmpty then v
    else fs.foldl (fun p f => putBits p (f.hi - lo) (f.lo - lo) (bitsOf v (f.hi - lo) (f.lo - lo))) 0

/-- Puts a value into the place an object lives in. -/
def Dev.setObjVal (d : Dev) (client idx sub v : Nat) : Dev :=
  match objRow idx sub with
  | none => d
  | some r =>
    match r.mirror with
    | some m =>
      let p := if r.ty.signed then unsx (m.hi + 1 - m.lo) (sx (8 * r.ty.bytes) v / m.mul) else v / m.mul
      d.setF (m.addr r idx sub) m.hi m.lo (fieldsIn (m.addr r idx sub) m.hi m.lo p)
    | none => (d.codedSet idx sub v).getD (d.setOb (objKey (if r.staged then client else 0) idx sub) v)

/-- Bytes of DOM and STR objects that have storage of their own. -/
def domKey (k off : Nat) : Nat := k * 0x10000000 + off
def Dev.dom (d : Dev) (k off n : Nat) : List Byte := SMap.getList (fun _ => 0) d.domb (domKey k off) n
def Dev.setDom (d : Dev) (k off : Nat) (bs : List Byte) : Dev :=
  { d with domb := SMap.setList (fun _ => 0) d.domb (domKey k off) bs }

/-! ## Memory. Engine E's local memory lies at E · 2^16, cluster c's shared memory at 2^26 + c · 2^19, DRAM at 2^32, GNSS code
memory at 2^33, pane-store bytes within DRAM (R17, R23, R394, R87). Unlisted bytes read 0. -/

def localBase (e : Nat) : Nat := e * 0x10000
def sharedBase (c : Nat) : Nat := 0x4000000 + c * 0x80000
def dramBase : Nat := 0x100000000
def codeBase : Nat := 0x200000000

def Dev.byte (d : Dev) (a : Nat) : Byte := SMap.get (fun _ => 0) d.mem a
def Dev.setByte (d : Dev) (a : Nat) (b : Byte) : Dev := { d with mem := SMap.set (fun _ => 0) d.mem a b }
def Dev.bytes (d : Dev) (a n : Nat) : List Byte := SMap.getList (fun _ => 0) d.mem a n
def Dev.setBytes (d : Dev) (a : Nat) (bs : List Byte) : Dev :=
  { d with mem := SMap.setList (fun _ => 0) d.mem a bs }

/-- `n` bytes of memory as a little-endian number. -/
def Dev.ld (d : Dev) (a n : Nat) : Nat := leNat (d.bytes a n)
def Dev.st (d : Dev) (a n v : Nat) : Dev := d.setBytes a (leBytes v n)

/-- Sets a stretch of memory to 0. -/
def Dev.clearMem (d : Dev) (a n : Nat) : Dev :=
  { d with mem := SMap.keep (fun k => !(decide (a ≤ k) && decide (k < a + n))) d.mem }

/-! ## Time -/

/-- FT in whole nanoseconds (R42). -/
def Dev.now (d : Dev) : Nat := d.time.ft / 2 ^ 32

/-- The fabric cycle in which an FT lies: cycle `n` shows FT ⌊2.5 n⌋ ns (R39, R42). -/
def cycleOf (t : Nat) : Nat := (2 * t + 1) / 5

/-- The fabric clock runs (R39): in Ready, Field and Doorstop. -/
def Dev.fabricOn (d : Dev) : Bool :=
  match d.pstate with
  | .ready | .field | .doorstop => true
  | .off | .parked | .standby => false

/-- The HOST domain is on (R387): Standby, Ready, Field and Doorstop. -/
def Dev.hostOn (d : Dev) : Bool :=
  match d.pstate with
  | .standby | .ready | .field | .doorstop => true
  | .off | .parked => false

/-- The package applies product (R11). -/
def Dev.inField (d : Dev) : Bool := decide (d.pstate = .field)

/-- Field time reaches `t` ns, where the fabric clock runs; FT never goes back (R45). -/
def Dev.advance (d : Dev) (t : Nat) : Dev :=
  if d.fabricOn && decide (d.now < t) then { d with time := { d.time with ft := t * 2 ^ 32 } } else d

/-- Operating hours in whole seconds (R65). -/
def Dev.opSeconds (d : Dev) : Nat := d.porch.opTicks / 32768

/-- The porch tick counter reaches `k`; ticks in which HOST or the power dies are powered count as operating time (R65). -/
def Dev.advanceTicks (d : Dev) (k : Nat) : Dev :=
  if d.porch.powered && decide (d.porch.ticks < k) then
    { d with porch := { d.porch with
        ticks := k % 2 ^ 48
        opTicks := d.porch.opTicks + (if d.hostOn then k - d.porch.ticks else 0) } }
  else d

/-- A fabric cycle's part of a porch tick: 2.5 ns of the nominal 1/32768 s (R39). -/
def Dev.tickPart (d : Dev) : Dev :=
  let p := d.porch.phase + 32
  if !d.porch.powered then d
  else if p < 390625 then { d with porch := { d.porch with phase := p } }
  else Dev.advanceTicks { d with porch := { d.porch with phase := p - 390625 } } (d.porch.ticks + 1)

/-! ## Emissions and free values -/

def Dev.emit (d : Dev) (u : OutUnit) (chan tag : Nat) (data : List Nat) : Dev :=
  { d with out := ⟨u, chan, tag, data⟩ :: d.out }

/-- Takes the next value of the model's own counter, so that the next free value is another one. -/
def Dev.bump (d : Dev) : Dev := { d with fresh := d.fresh + 1 }

/-! ## Recorded events (R470 to R474) -/

/-- A parameter of an event with the width of R471. -/
inductive Param where
  | q (v : Nat)   -- 8 bytes: an FT
  | w (v : Nat)   -- 4 bytes: endpoint ID, count, master number, address, measured quantity
  | h (v : Nat)   -- 2 bytes: anything else
  deriving DecidableEq, Repr

def Param.size : Param → Nat
  | .q _ => 8
  | .w _ => 4
  | .h _ => 2

def Param.val : Param → Nat
  | .q v => v
  | .w v => v
  | .h v => v

/-- A signed parameter as its two's-complement pattern. -/
def Param.wI (i : Int) : Param := .w (unsx 32 i)

/-- Places parameters in order; from the first that does not fit, none is placed (R471). -/
def placeParams : List Param → Nat → List Byte × Bool
  | [], _ => ([], false)
  | p :: ps, room =>
    if p.size ≤ room then
      let (bs, t) := placeParams ps (room - p.size)
      (leBytes p.val p.size ++ bs, t)
    else ([], true)

/-- Room of the staging ring (R473). -/
def stagingRoom : Nat := 1048576

/-- The forerunner form of a record (R474). -/
def forerunnerOf (d : Dev) (code : Nat) (ps : List Param) : FrRec :=
  let hours := d.opSeconds / 360
  { code := code
    cycles := min 65535 d.porch.powerCycles
    hours := min 16777215 hours
    p := (ps.take 3).map (fun p => p.val % 65536)
    flags := b2n (decide (3 < ps.length) || (ps.take 3).any (fun p => decide (65535 < p.val)))
      + 2 * b2n (decide (65535 < d.porch.powerCycles)) }

/-- A native record of this instant (R470). -/
def Dev.eventRecord (d : Dev) (origin code : Nat) (ps : List Param) (extraFlags : Nat) : EvRec :=
  let (bs, t) := placeParams ps 12
  { code := code, flags := b2n t + extraFlags, origin := origin
    params := bs ++ List.replicate (12 - bs.length) 0
    ft := d.now, cycles := d.porch.powerCycles, opSeconds := d.opSeconds }

/-- Stages one native record, and its forerunner record while ForerunnerEnable is 1; a full ring, or a frozen staging agent
(R423), drops it and counts it (R473). -/
def Dev.stageRec (d : Dev) (origin code : Nat) (ps : List Param) (extraFlags : Nat) : Dev :=
  let r := d.eventRecord origin code ps extraFlags
  if d.rcd.staged.length < stagingRoom && !d.bit Reg.DB_FROZEN_DEV 12 then
    { d with rcd := { d.rcd with
        staged := d.rcd.staged ++ [r]
        stagedAt := if d.rcd.staged.length = d.rcd.inFlight then d.now else d.rcd.stagedAt
        forerunner := if d.ob Obj.ForerunnerEnable = 1 then d.rcd.forerunner ++ [forerunnerOf d code ps] else d.rcd.forerunner } }
  else
    let d := d.incOb Obj.EventsDropped
    let d := d.setBit Reg.REC_STATUS 29 true
    { d with rcd := { d.rcd with fullEpisode := true, epDropped := d.rcd.epDropped + 1 } }

/-- Records an event. The origin is 0 or 1 for an engine die, 2 left, 3 right, 4 host die (R470). -/
def Dev.event (d : Dev) (origin code : Nat) (ps : List Param) : Dev := d.stageRec origin code ps 0

/-- Records an event at most once per `period` ns for one subject. -/
def Dev.eventEvery (d : Dev) (period origin code subject : Nat) (ps : List Param) : Dev :=
  let key := code * 0x100000 + subject
  match d.rcd.evLast.find? (fun p => p.1 == key) with
  | some p =>
    if d.now < p.2 + period then d
    else
      let d := d.event origin code ps
      { d with rcd := { d.rcd with evLast := (key, d.now) :: d.rcd.evLast.filter (fun p => p.1 != key) } }
  | none =>
    let d := d.event origin code ps
    { d with rcd := { d.rcd with evLast := (key, d.now) :: d.rcd.evLast } }

/-! ## Transom messages (R56, R345, R346, R348) -/

def Dev.laneUp (d : Dev) (l : Nat) : Bool := decide (l < 8) && d.bit Reg.TR_LANES l

/-- The lane that carries a kind: its own, or the lowest that is up. -/
def Dev.laneFor (d : Dev) (l : Nat) : Option Nat :=
  if d.laneUp l then some l else (List.range 8).find? (fun k => d.laneUp k)

/-- A message lane is up, and so a message can cross. -/
def Dev.anyLane (d : Dev) : Bool := d.f Reg.TR_LANES 7 0 != 0

def Dev.laneValid (d : Dev) : Bool := d.bit Reg.FT_STATUS 12

/-- Host FT: field FT while the time lane aligns it, else a time of the host's own crystal (R56). -/
def Dev.hostNow (d : Dev) : Nat := if d.laneValid then d.now else Config.hostClock d.fresh

/-- A dropped frame counts; 0x7010 at most once per second with the count since. -/
def Dev.transomDrop (d : Dev) (lane kind cause : Nat) : Dev :=
  let d := d.addOb Obj.TransomDropped 1
  let d := if lane < 8 then d.wr (Reg.TR_DROP lane) (d.rd (Reg.TR_DROP lane) + 1) else d
  let n := d.tr.dropSince + 1
  let d : Dev := { d with tr := { d.tr with dropSince := n } }
  let before := d.rcd.evLast
  let d := d.eventEvery 1000000000 0 0x7010 0 [.h lane, .h kind, .h cause, .w n]
  if d.rcd.evLast = before then d else { d with tr := { d.tr with dropSince := 0 } }

/-- A message frame: header, payload, CRC-32 over both (R346). -/
def TrMsg.frame (m : TrMsg) : List Byte :=
  let body := leBytes m.kind 1 ++ leBytes (b2n m.unaligned) 1 ++ leBytes m.payload.length 2 ++ leBytes m.stamp 8 ++ m.payload
  body ++ leBytes (crc32 body) 4

/-- A frame that the host half builds now, of what came in on a host port. -/
def Dev.hostMsg (d : Dev) (kind lane port : Nat) (payload : List Byte) : TrMsg :=
  { kind := kind, lane := lane, toField := true, stamp := d.hostNow, unaligned := !d.laneValid, payload := payload, next := [], port := port }

/-- A frame that the field half builds now; the host half sends `next` on. -/
def Dev.fieldMsg (d : Dev) (kind lane : Nat) (payload : List Byte) (next : List Out) : TrMsg :=
  { kind := kind, lane := lane, toField := false, stamp := d.now, unaligned := false, payload := payload, next := next, port := 0 }

/-- The queue of a kind in one direction. -/
def trQueue (kind : Nat) (toField : Bool) : Nat := 2 * kind + b2n toField

/-- The frames still on their way. -/
def Dev.inFlight (d : Dev) : List (Nat × Nat × Nat) := d.tr.busy.filter (fun p => decide (d.now < p.2.2))

/-- The queue of 64 frames of a kind is full: a frame leaves it when it has crossed. -/
def Dev.crossFull (d : Dev) (kind : Nat) (toField : Bool) : Bool :=
  decide (64 ≤ (d.inFlight.filter (fun p => p.1 == trQueue kind toField)).length
    + (d.tr.held.filter (fun m => m.kind == kind && m.toField == toField)).length)

/-- What the host half sends on, in order. -/
def Dev.emitAll (d : Dev) (outs : List Out) : Dev := outs.foldl (fun (d : Dev) o => d.emit o.unit o.chan o.tag o.data) d

/-- A frame crosses on a lane that is up, 2 µs plus its length at 1 Gbit/s after those before it in its direction. -/
def Dev.crossNow (d : Dev) (m : TrMsg) (lane : Nat) : Dev :=
  let busy := d.inFlight
  let start := (busy.filter (fun p => p.2.1 == lane && p.1 % 2 == b2n m.toField)).foldl (fun a p => max a p.2.2) d.now
  let d : Dev := { d with tr := { d.tr with
    busy := busy ++ [(trQueue m.kind m.toField, lane, start + 2000 + 8 * (m.payload.length + 16))] } }
  (d.emit .transom lane m.kind (natsOf m.frame)).emitAll m.next

/-- A frame of a kind other than pose-in is sent: it crosses, waits for a lane, or finds its queue full and is dropped. -/
def Dev.crossOut (d : Dev) (m : TrMsg) : Dev :=
  let d := if m.unaligned then d.bump else d
  if d.crossFull m.kind m.toField then d.transomDrop m.lane m.kind (Config.cause 0x7010 5)
  else
    match d.laneFor m.lane with
    | some l => d.crossNow m l
    | none => { d with tr := { d.tr with held := d.tr.held ++ [m] } }

/-- What waited for a lane crosses in its order. -/
def Dev.crossHeld (d : Dev) : Dev :=
  let all := d.tr.held
  let d : Dev := { d with tr := { d.tr with held := [] } }
  all.foldl (fun (d : Dev) m => d.crossNow m ((d.laneFor m.lane).getD m.lane)) d

/-! ## Histograms (R475, R476) -/

/-- The bin of a value (R475). -/
def histBin (lower width x : Int) : Nat :=
  if x < lower then 0
  else if lower + 30 * width ≤ x then 31
  else (1 + (x - lower) / width).toNat

/-- Adds one to a bin that saturates. -/
def bumpBin (bins : List (Nat × Nat)) (b : Nat) : List (Nat × Nat) :=
  match bins.find? (fun p => p.1 == b) with
  | some p => bins.map (fun q => if q.1 = b then (q.1, min 0xFFFFFFFF (p.2 + 1)) else q)
  | none => bins ++ [(b, 1)]

def Dev.histo (d : Dev) (h : Nat) : Hist := SMap.get (fun _ => Hist.reset) d.rcd.hist h
def Dev.setHisto (d : Dev) (h : Nat) (x : Hist) : Dev :=
  { d with rcd := { d.rcd with hist := SMap.set (fun _ => Hist.reset) d.rcd.hist h x } }

/-- Feeds a value `x`, whose extremes hold `e`, to a histogram with the given bounds (R475, R476). -/
def Dev.histFeed (d : Dev) (h : Nat) (lower width x e : Int) : Dev :=
  let o := d.histo h
  let b := histBin lower width x
  let lowest := !o.any || decide (e < o.minV)
  let highest := !o.any || decide (o.maxV < e)
  d.setHisto h { o with
    bins := bumpBin o.bins b
    since := bumpBin o.since b
    minV := if lowest then e else o.minV
    minFt := if lowest then d.now else o.minFt
    maxV := if highest then e else o.maxV
    maxFt := if highest then d.now else o.maxFt
    any := true
    changed := true }

/-! ## Engines' places (R15, R16) -/

def clusterOf (e : Nat) : Nat := e / 16
def regionOf (e : Nat) : Nat := e / 128
def dieOf (e : Nat) : Nat := e / 512

/-! ## The close gate (R287) -/

def Dev.solPhase (d : Dev) (n : Nat) : Nat := d.f (Reg.SOL_STATUS n) 3 0
def Dev.setPhase (d : Dev) (n p : Nat) : Dev := d.setF (Reg.SOL_STATUS n) 3 0 p

/-- The coil is driven: boost, peak or hold. -/
def Dev.energised (d : Dev) (n : Nat) : Bool := decide (1 ≤ d.solPhase n) && decide (d.solPhase n ≤ 3)

/-- The package is in the close state. -/
def Dev.closed (d : Dev) : Bool := d.bit Reg.CLOSE_STATUS 31

def Dev.pairOn (d : Dev) (p : Nat) : Bool := d.bit (Reg.SIN_CTRL p) 31

/-- The causes that hold now: enabled pairs not ACTIVE, the line on either die, the host stop. -/
def Dev.causesNow (d : Dev) : Nat :=
  let pairs := (List.range 8).foldl (fun a p => a + b2n (d.pairOn p && decide (d.f (Reg.SIN_STATUS p) 1 0 ≠ 1)) * 2 ^ p) 0
  pairs + 256 * b2n (d.bit (Reg.ACL_STATUS 0) 2 || d.bit (Reg.ACL_STATUS 1) 2) + 512 * b2n (d.bit Reg.TR_STATUS 2)

/-- CLOSE_STATUS as it shows a set of causes. -/
def closeWord (c : Nat) : Word := wd (c + if c = 0 then 0 else 2 ^ 31)

/-- The hardwired links of R287, which act after every command: CLOSE_STATUS shows the causes that hold, and while one holds no coil
is driven. The units that find a cause have told the outputs already (`Dev.closeUpdate`), so this changes nothing they left. -/
def Dev.closeGate (d : Dev) : Dev :=
  if !d.hostOn then d
  else
    let c := d.causesNow
    let d := d.wr Reg.CLOSE_STATUS (closeWord c)
    if c = 0 then d
    else (List.range 64).foldl (fun (d : Dev) n => if d.energised n then d.setPhase n 4 else d) d

/-- A meaning's outcome: the device after it behind the close gate, with the queue as it was. -/
def State.put (s : State) (d : Dev) : Host.Outcome State Fault Refusal := .next { s with dev := d.closeGate }

/-! ## Latch copies -/

/-- A bank takes new copies of what it holds. -/
def LatchBank.refresh (b : LatchBank) (new : List (Nat × Word)) : LatchBank :=
  { b with copies := b.copies.map (fun c => ((new.find? (fun (x : Nat × Word) => x.1 == c.1)).getD c)) }

/-- The banks whose Latch instant `p` accepts take new copies. -/
def Dev.amendBanks (d : Dev) (p : Nat → Bool) (new : List (Nat × Word)) : Dev :=
  let put := fun (b : LatchBank) => if p b.instant then b.refresh new else b
  { d with latch := { d.latch with bank0 := put d.latch.bank0, bank1 := put d.latch.bank1 } }

end Sys2Proof.Machine
end

