-- ==== Sys2Proof/Machine/Flash.lean ====
section
/-! DEFINITION. The NOR flash controller, the pages of the recorder and the metering unit, and their power-failure flush
(R463 to R479, R483, R484). -/
namespace Sys2Proof.Machine

/-- A page as it stands in flash (R465): records, unwritten bytes 0xFF, trailer, commit word. -/
def Page.toBytes (p : Page) : List Byte :=
  let body := (p.data ++ List.replicate 224 0xFF).take 224
  let head := body ++ leBytes p.seq 4 ++ leBytes p.kind 1 ++ leBytes p.count 1 ++ [0, 0] ++ leBytes p.ft 8 ++ leBytes p.cycles 4
  head ++ leBytes (crc32 head) 4 ++ List.replicate 4 0xFF ++ leBytes 0x3C5AA5C3 4

/-! ## Pages whose program was cut short (R467, R468) -/

/-- What becomes of byte `i`: 0 completed, 1 never reached, 2 in progress. The commit word begins once bytes 0 to 247 are complete. -/
def Torn.place (x : Torn) (i : Nat) : Nat :=
  if Config.tornCommit x.seed then (if i < 248 then 0 else Config.tornClass x.seed i)
  else if i < 248 then Config.tornClass x.seed i else 1

/-- The byte as a margin read gives it: a bit that is not fully programmed reads 1. -/
def Torn.margin (x : Torn) (i : Nat) (v : Byte) : Byte :=
  match x.place i with
  | 0 => v
  | 1 => 0xFF
  | _ => v ||| Config.tornMargin x.seed i

/-- The byte as read `k` gives it: any *r* with (*r* AND *v*) = *v*, and another one at another read. -/
def Torn.byte (x : Torn) (k i : Nat) (v : Byte) : Byte :=
  match x.place i with
  | 0 => v
  | 1 => 0xFF
  | _ => v ||| Config.deviceByte k i

def Torn.marginBytes (x : Torn) : List Byte := x.page.toBytes.mapIdx (fun i v => x.margin i v)
def Torn.bytes (x : Torn) (k : Nat) : List Byte := x.page.toBytes.mapIdx (fun i v => x.byte k i v)

/-- The page counts as present: its commit word, which follows the rest, reads exactly. -/
def Torn.present (x : Torn) : Bool :=
  Config.tornCommit x.seed && (x.marginBytes.drop 252) == leBytes 0x3C5AA5C3 4

/-- The page reads as one that was never begun. -/
def Torn.blank (x : Torn) : Bool := x.marginBytes.all (fun b => b == 0xFF)

/-! ## Areas -/

/-- Pages of a ring area (R463): 0 configuration, 1 event, 2 forerunner, 3 histogram, 4 checkpoint, 5 archive, 6 ledger. -/
def areaPages (a : Nat) : Nat := if a = 1 then 196608 else if a = 6 then 65536 else 16384

def Dev.area (d : Dev) (a : Nat) : Area := SMap.get (fun _ => Area.reset) d.flash.areas a
def Dev.setArea (d : Dev) (a : Nat) (x : Area) : Dev :=
  { d with flash := { d.flash with areas := SMap.set (fun _ => Area.reset) d.flash.areas a x } }

/-- NV_STATUS follows the controller (R489). -/
def Dev.nvStatus (d : Dev) : Dev :=
  let d := d.setBit Reg.NV_STATUS 0 d.rcd.scanDone
  let d := d.setBit Reg.NV_STATUS 1 d.flash.progPage.isSome
  let d := d.setBit Reg.NV_STATUS 2 d.flash.erase.isSome
  d.setBit Reg.NV_STATUS 3 d.flash.suspended

/-- The oldest EventSeq still held: page sequence times seven (R473). -/
def oldestEvent (a : Area) : Nat :=
  match a.pages.getLast? with
  | some p => p.seq * 7
  | none => a.nextSeq * 7

/-- The lowest PeriodIndex whose header is still in the archive (R486). -/
def oldestPeriod (pages : List Page) (now : Nat) : Nat :=
  (pages.filter (fun p => p.kind == 6)).foldl (fun a p => min a (leAt p.data 0 4)) now

/-- A block's data is lost as its erase begins (R464). -/
def Dev.dropBlock (d : Dev) (a b : Nat) : Dev :=
  let x := d.area a
  let d := d.setArea a { x with
    pages := x.pages.filter (fun p => p.pos / 256 != b), torn := x.torn.filter (fun p => p.page.pos / 256 != b) }
  if a = 5 then
    let lowest := oldestPeriod (d.area 5).pages (d.rd Reg.MTR_PERIOD).toNat
    d.event 1 0xB009 [.w lowest]
  else d

/-- Starts the next waiting erase unless power has failed (R464). -/
def Dev.eraseStart (d : Dev) : Dev :=
  match d.flash.erase, d.flash.eraseQueue with
  | none, (a, b) :: rest =>
    if d.bit Reg.PWR_STATUS 6 then d
    else
      let d := { d with flash := { d.flash with erase := some (a, b), eraseQueue := rest } }
      let d := d.dropBlock a b
      d.nvStatus
  | _, _ => d

/-- A block still waits for its erase, or is in it. -/
def Dev.blockBusy (d : Dev) (a b : Nat) : Bool := d.flash.erase == some (a, b) || d.flash.eraseQueue.contains (a, b)

/-- Whether the block ahead holds anything. -/
def Area.blockUsed (x : Area) (b : Nat) : Bool :=
  x.pages.any (fun q => q.pos / 256 == b) || x.torn.any (fun q => q.page.pos / 256 == b)

/-- Starts the next waiting page program, once its block is erased; moving into the block kept erased starts the erase of the next one (R464, R466). -/
def Dev.progStart (d : Dev) : Dev :=
  match d.flash.progPage, d.flash.progQueue with
  | none, (a, p) :: rest =>
    if d.flash.barred || (d.bit Reg.PWR_STATUS 6 && decide (d.pwr.failAt + 17000000 < d.now)) || d.blockBusy a ((d.area a).nextPos / 256) then d
    else
      let x := d.area a
      let page := { p with pos := x.nextPos, seq := x.nextSeq, ft := d.now, cycles := d.porch.powerCycles }
      let n := areaPages a
      let d := d.setArea a { x with nextPos := (x.nextPos + 1) % n, nextSeq := (x.nextSeq + 1) % 2 ^ 32 }
      let d := { d with flash := { d.flash with progPage := some page, progArea := some a, progQueue := rest } }
      let next := (x.nextPos / 256 + 1) % (n / 256)
      let d :=
        if x.nextPos % 256 = 0 && x.blockUsed next then
          Dev.eraseStart { d with flash := { d.flash with eraseQueue := d.flash.eraseQueue ++ [(a, next)] } }
        else d
      d.nvStatus
  | _, _ => d

/-- Queues a page for an area. -/
def Dev.queuePage (d : Dev) (a kind count : Nat) (data : List Byte) : Dev :=
  let p : Page := { pos := 0, seq := 0, kind := kind, count := count, ft := 0, cycles := 0, data := data }
  Dev.progStart { d with flash := { d.flash with progQueue := d.flash.progQueue ++ [(a, p)] } }

/-- A native record as its 32 bytes (R470). -/
def EvRec.toBytes (r : EvRec) : List Byte :=
  leBytes r.code 2 ++ leBytes r.flags 1 ++ leBytes r.origin 1 ++ r.params ++ leBytes r.ft 8 ++ leBytes r.cycles 4
    ++ leBytes r.opSeconds 4

/-- A forerunner record as its 16 bytes (R474). -/
def FrRec.toBytes (r : FrRec) : List Byte :=
  let body := leBytes r.code 2 ++ leBytes r.cycles 2 ++ leBytes r.hours 3
    ++ leBytes (r.p.getD 0 0) 2 ++ leBytes (r.p.getD 1 0) 2 ++ leBytes (r.p.getD 2 0) 2 ++ leBytes r.flags 1
  body ++ leBytes (crc16 body) 2

/-- FT at which the first staged record that waits for a page was staged. -/
def firstStaged (recs : List EvRec) (now : Nat) : Nat :=
  match recs.head? with
  | some r => r.ft
  | none => now

/-- Queues an event page of the next staged records, at most `n` of them, with `extra` or-ed into their flags (R473). -/
def Dev.queueEventPage (d : Dev) (n extra : Nat) : Dev :=
  let recs := (d.rcd.staged.drop d.rcd.inFlight).take n
  if recs.isEmpty then d
  else
    let at_ := firstStaged (d.rcd.staged.drop (d.rcd.inFlight + recs.length)) d.now
    let d := { d with rcd := { d.rcd with inFlight := d.rcd.inFlight + recs.length, stagedAt := at_ } }
    d.queuePage 1 1 recs.length ((recs.map (fun r => ({ r with flags := r.flags ||| extra }).toBytes)).flatten)

/-- Writes forerunner pages while fourteen records wait (R474). -/
def Dev.queueForerunner (d : Dev) : Dev :=
  if 14 ≤ d.rcd.forerunner.length then
    let recs := d.rcd.forerunner.take 14
    let d := { d with rcd := { d.rcd with forerunner := d.rcd.forerunner.drop 14, frNext := d.rcd.frNext + 14 } }
    d.queuePage 2 2 14 ((recs.map FrRec.toBytes).flatten)
  else d

/-- The set of a histogram (R476, R478). -/
def histSet (h : Nat) : Nat := if h ≤ 8 then 0 else if h ≤ 10 then 1 else if h < 64 then 2 else 3

/-- A histogram as the bytes of its Kind 3 page (R477). -/
def Hist.toBytes (x : Hist) (h : Nat) : List Byte :=
  let bin (b : Nat) : Nat := match x.bins.find? (fun p => p.1 == b) with | some p => p.2 | none => 0
  leBytes h 2 ++ leBytes (histSet h) 1 ++ leBytes 0 1 ++ leBytes x.gen 4
    ++ ((List.range 32).map (fun b => leBytes (bin b) 4)).flatten
    ++ leBytes (unsx 32 x.minV) 4 ++ leBytes (unsx 32 x.maxV) 4 ++ leBytes x.minFt 8 ++ leBytes x.maxFt 8

/-- A histogram read back from a Kind 3 page. -/
def histOfBytes (bs : List Byte) : Hist :=
  let bins := ((List.range 32).map (fun b => (b, leAt bs (8 + 4 * b) 4))).filter (fun p => p.2 != 0)
  { bins := bins, minV := sx 32 (leAt bs 136 4), maxV := sx 32 (leAt bs 140 4), minFt := leAt bs 144 8
    maxFt := leAt bs 152 8, any := !bins.isEmpty, gen := leAt bs 4 4, changed := false, cleared := false, since := [] }

/-- Writes one histogram as a page when it has changed; its snapshot generation counts up (R477). -/
def Dev.writeHist (d : Dev) (h : Nat) : Dev :=
  let x := d.histo h
  if x.changed then
    let x := { x with gen := (x.gen + 1) % 2 ^ 32, changed := false, cleared := false, since := [] }
    let d := d.setHisto h x
    d.queuePage 3 3 1 (x.toBytes h)
  else d

/-- Writes every changed histogram (R477). -/
def Dev.writeHists (d : Dev) : Dev := d.rcd.hist.foldl (fun d p => d.writeHist p.1) d

/-- The safety flush block of R477: five pages of Kind 10. -/
def safetyBlock (d : Dev) : List Byte :=
  let cnt (h b : Nat) : Nat :=
    match (d.histo h).since.find? (fun p => p.1 == b) with | some p => min 65535 p.2 | none => 0
  let counts := ((List.range 11).map (fun h => ((List.range 32).map (fun b => leBytes (cnt h b) 2)).flatten)).flatten
  let ext := ((List.range 11).map (fun h =>
    let x := d.histo h
    leBytes (unsx 32 x.minV) 4 ++ leBytes (unsx 32 x.maxV) 4 ++ leBytes x.minFt 8 ++ leBytes x.maxFt 8)).flatten
  let gens := ((List.range 11).map (fun h => leBytes (d.histo h).gen 4)).flatten
  counts ++ ext ++ gens ++ List.replicate 108 0

/-- Queues the five pages of the safety flush block when a histogram of sets 0 and 1 has changed. -/
def Dev.queueSafetyBlock (d : Dev) : Dev :=
  if (List.range 11).any (fun h => (d.histo h).changed) then
    let b := safetyBlock d
    (List.range 5).foldl (fun d i => d.queuePage 3 10 1 ((b.drop (224 * i)).take 224)) d
  else d

/-- The entry of an account and layer (R483). -/
def Acct.toBytes (x : Acct) (key : Nat) : List Byte :=
  leBytes (key / 4 + 4096 * (key % 4)) 2 ++ leBytes x.flags 2 ++ leBytes x.actuations 4 ++ leBytes x.onTime 8
    ++ leBytes x.area 4 ++ leBytes x.newCells 4 ++ leBytes x.product 8

/-- An entry read back: its key and quantities. -/
def acctOfBytes (bs : List Byte) : Nat × Acct :=
  let al := leAt bs 0 2
  ((al % 4096) * 4 + (al / 4096) % 4,
    { flags := leAt bs 2 2, actuations := leAt bs 4 4, onTime := leAt bs 8 8, area := leAt bs 16 4
      newCells := leAt bs 20 4, product := leAt bs 24 8, changed := false })

/-- Whether an entry holds a nonzero quantity. -/
def Acct.used (x : Acct) : Bool :=
  x.actuations != 0 || x.onTime != 0 || x.area != 0 || x.newCells != 0 || x.product != 0

/-- Cuts a list into pieces of at most seven. -/
def sevens {α : Type} : Nat → List α → List (List α)
  | 0, _ => []
  | n + 1, xs => if xs.isEmpty then [] else xs.take 7 :: sevens n (xs.drop 7)

/-- Queues Kind 5 pages, seven entries to a page (R483, R484). -/
def Dev.queueEntries (d : Dev) (a : Nat) (es : List (Nat × Acct)) : Dev :=
  (sevens es.length es).foldl (fun d g => d.queuePage a 5 g.length ((g.map (fun p => p.2.toBytes p.1)).flatten)) d

/-- The period header (R483). -/
def periodHeader (d : Dev) (endWall closeFt count : Nat) : List Byte :=
  leBytes (d.rd Reg.MTR_PERIOD).toNat 4 ++ leBytes d.mtr.flags 2 ++ leBytes (d.ob Obj.CellSize) 2
    ++ leBytes d.mtr.startWall 8 ++ leBytes endWall 8 ++ leBytes d.mtr.startFt 8 ++ leBytes closeFt 8
    ++ leBytes d.mtr.stepBack 8 ++ leBytes d.mtr.stepForward 8 ++ leBytes count 4 ++ leBytes d.mtr.entriesLost 4
    ++ ((List.range 4).map (fun l => leBytes (d.rd64 (Reg.MTR_UNALLOC_LO l)) 8)).flatten ++ List.replicate 128 0

/-- Keys of the mirror's values that are no dictionary values: wake sources, boot attempts, latched discrepancies, and whether UtcOffset
has once been set (R482). -/
def mirrorWake : Nat := 0x900001
def mirrorBoot : Nat := 0x900002
def mirrorDisc : Nat := 0x900003
def mirrorWall : Nat := 0x900004

/-- What the porch holds for its mirror (R65). -/
def Dev.mirrorVals (d : Dev) : List (Nat × Nat) :=
  [(Obj.OperatingHours, d.opSeconds), (Obj.PowerCycleCount, d.porch.powerCycles), (mirrorWake, (d.rd Reg.WAKE_SRC).toNat),
    (mirrorBoot, d.porch.bootAttempts), (mirrorDisc, d.disc), (mirrorWall, b2n d.mtr.wallSet), (Obj.UtcOffset, d.ob Obj.UtcOffset)]

/-- A value of the mirror, 0 where none has been written. -/
def Dev.mirrored (d : Dev) (k : Nat) : Nat := ((d.nv.find? (fun p => p.1 == k)).getD (0, 0)).2

/-- Values of the mirror in the configuration partition. -/
def Dev.mirrorStore (d : Dev) (vs : List (Nat × Nat)) : Dev :=
  { d with nv := vs ++ d.nv.filter (fun p => !(vs.map (fun v => v.1)).contains p.1) }

/-- The porch mirror of R65: what the porch holds goes into the configuration partition. -/
def Dev.porchMirror (d : Dev) : Dev :=
  let d := d.mirrorStore d.mirrorVals
  { d with porch := { d.porch with mirrorAt := d.porch.ticks } }

/-- The mirror as a configuration journal page (R479), and the values back from one. Its bytes are no rule's: DESIGN CHOICE. -/
def mirrorPage (vs : List (Nat × Nat)) : List Byte := vs.flatMap (fun v => leBytes v.1 4 ++ leBytes v.2 8)
def mirrorOf (p : Page) : List (Nat × Nat) :=
  (List.range p.count).map (fun i => (leAt p.data (12 * i) 4, leAt p.data (12 * i + 4) 8))
def Dev.queueMirror (d : Dev) : Dev := d.queuePage 0 9 d.mirrorVals.length (mirrorPage d.mirrorVals)

/-- Event 0x9003 goes before the staged records that wait, into the page that carries it with six of them (R479); a full staging ring
does not drop it (R488). Its place in the page is open: DESIGN CHOICE. -/
def Dev.stageFail (d : Dev) (r : EvRec) : Dev :=
  let n := d.rcd.inFlight
  { d with rcd := { d.rcd with staged := d.rcd.staged.take n ++ r :: d.rcd.staged.drop n } }

/-- The power-failure flush in the order of R479. The records that reach flash before HoldupDeadline are decided by the page
programs that complete. -/
def Dev.powerFailFlush (d : Dev) (r : EvRec) : Dev :=
  let d := d.queueMirror
  let d := d.queueSafetyBlock
  let changed := d.mtr.accts.filter (fun p => p.2.changed)
  let d := d.queueEntries 4 (changed.take 14)
  let lost := changed.length - 14
  let d := { d with
    flash := { d.flash with lostEntries := lost } }
  let d := (d.setBit Reg.REC_STATUS 1 true).stageFail r
  let waiting := d.rcd.staged.length - d.rcd.inFlight
  let d := d.queueEventPage 7 2
  List.foldl (fun d _ => d.queueEventPage 7 2) d (List.range ((waiting - 7) / 7 + 1))

/-- A page program with its commit word completes (R466): the page is present, and what it held is no longer waiting. -/
def Dev.progDone (d : Dev) : Dev :=
  match d.flash.progArea, d.flash.progPage with
  | some a, some p =>
    let x := d.area a
    let d := d.setArea a { x with pages := p :: x.pages }
    let d := { d with flash := { d.flash with progPage := none, progArea := none } }
    let d :=
      if p.kind = 1 then
        { d with rcd := { d.rcd with staged := d.rcd.staged.drop p.count, inFlight := d.rcd.inFlight - p.count } }
      else d
    let d :=
      if d.rcd.fullEpisode && decide (d.rcd.staged.length < stagingRoom) then
        let n := d.rcd.epDropped
        let d := { d with rcd := { d.rcd with fullEpisode := false, epDropped := 0 } }
        d.event 1 0xB001 [.w n]
      else d
    let d := if p.kind = 4 then d.setBit Reg.MTR_STATUS 5 false else d
    let d := if p.kind = 9 then d.mirrorStore (mirrorOf p) else d
    d.progStart.nvStatus
  | _, _ => d

/-- Power failure is declared: an erase in progress is suspended at once (R464). -/
def Dev.suspendErase (d : Dev) : Dev := Dev.nvStatus { d with flash := { d.flash with suspended := d.flash.erase.isSome } }

/-- The power failure ends: page programs and the erase go on (R440, R464). -/
def Dev.resumeFlash (d : Dev) : Dev :=
  let d : Dev := { d with flash := { d.flash with barred := false, suspended := false, lostEntries := 0 } }
  (d.setBit Reg.REC_STATUS 1 false).progStart.eraseStart.nvStatus

/-- A block erase completes, unless it is suspended (R464); the next one starts. -/
def Dev.eraseDone (d : Dev) : Dev :=
  match d.flash.erase with
  | some _ => if d.flash.suspended then d else (Dev.eraseStart { d with flash := { d.flash with erase := none } }).progStart.nvStatus
  | none => d

/-- The flash loses power or is reset: a program under way leaves a torn page, and an erase under way or waiting has to be done again
(R464, R467, R469). -/
def Dev.flashCut (d : Dev) : Dev :=
  let d := match d.flash.progArea, d.flash.progPage with
    | some a, some p =>
      let x := d.area a
      Dev.bump (d.setArea a { x with torn := { page := p, seed := d.fresh } :: x.torn })
    | _, _ => d
  let now := match d.flash.erase with
    | some b => [b]
    | none => []
  { d with flash := { Flash.reset with
    areas := d.flash.areas, partErased := d.flash.partErased ++ now ++ d.flash.eraseQueue
    lostRecords := d.flash.lostRecords, lostEntries := d.flash.lostEntries } }

/-- Metering entries whose page has not been written: the flush's, when the hold-up ends early (R484). -/
def Flash.unwritten (f : Flash) : Nat :=
  let one (a : Option Nat) (p : Option Page) : Nat :=
    match a, p with
    | some a, some p => if a = 4 ∧ p.kind = 5 then p.count else 0
    | _, _ => 0
  f.progQueue.foldl (fun n q => n + one (some q.1) (some q.2)) (one f.progArea f.progPage)

/-- Every page that waits is written. -/
def Dev.flashDrain (d : Dev) : Dev :=
  (List.range (d.flash.progQueue.length + 1)).foldl (fun (d : Dev) _ => d.progDone) d

end Sys2Proof.Machine
end

