-- ==== Sys2Proof/Machine/IbBase.lean ====
section
/-! DEFINITION. The transmit queues of the implement-bus ports and the frames the device itself queues to nodes
(R316 to R319, R329, R335). -/
namespace Sys2Proof.Machine

/-- Entries of a port's transmit queue (R335). -/
def txRoom : Nat := 64

/-- The entry the queue gives up for a priority-0 or priority-1 frame: the newest of priority 2 or higher (R335). -/
def displaceTx (port : Nat) (tx : List TxFrame) : Option (List TxFrame) :=
  let rev := tx.reverse
  match rev.find? (fun f => f.port == port && decide (2 ≤ f.prio)) with
  | none => none
  | some v => some ((rev.eraseP (fun f => f == v)).reverse)

/-- Queues a frame, under the package's number of this instant; answers whether it was taken. A refusal records 0x7009 once per episode (R335). -/
def Dev.ibPush (d : Dev) (f : TxFrame) : Dev × Bool :=
  let f := { f with node := d.ob Obj.PackageNumber }
  let used := (d.ib.tx.filter (fun x => x.port == f.port)).length
  let ok (d : Dev) (tx : List TxFrame) : Dev × Bool :=
    ({ d with ib := { d.ib with tx := tx ++ [f], refused := d.ib.refused.filter (fun p => p != f.port) } }, true)
  let refuse (d : Dev) : Dev × Bool :=
    if d.ib.refused.contains f.port then (d, false)
    else
      let d := { d with ib := { d.ib with refused := f.port :: d.ib.refused } }
      (d.event 0 0x7009 [.h f.port, .h f.prio], false)
  if 2 ≤ f.prio then
    if txRoom - used ≤ 16 then refuse d else ok d d.ib.tx
  else if used < txRoom then ok d d.ib.tx
  else
    match displaceTx f.port d.ib.tx with
    | some tx => ok (d.addOb (Obj.TxDisplaced f.port) 1) tx
    | none => refuse d

/-- The next Seq of a stream this package sends (R319). -/
def Dev.ibSeq (d : Dev) (port fn stream : Nat) : Dev × Nat :=
  let key := port * 0x10000 + fn * 0x100 + stream
  let s := SMap.get (fun _ => 0) d.ib.txSeq key
  ({ d with ib := { d.ib with txSeq := SMap.set (fun _ => 0) d.ib.txSeq key ((s + 1) % 65536) } }, s)

/-- Identifier of R316. -/
def ibIdent (prio fn node stream : Nat) : Nat := prio * 2 ^ 26 + fn * 2 ^ 20 + node * 2 ^ 6 + stream

/-- A payload padded to the next valid CAN FD data length (R315). -/
def fdLen (n : Nat) : Nat :=
  if n ≤ 8 then n else if n ≤ 12 then 12 else if n ≤ 16 then 16 else if n ≤ 20 then 20 else if n ≤ 24 then 24
  else if n ≤ 32 then 32 else if n ≤ 48 then 48 else 64
def fdPad (bs : List Byte) : List Byte := bs ++ List.replicate (fdLen bs.length - bs.length) 0

/-- The unit is paired and its pair works on this bus (R448). -/
def Dev.pairedOn (d : Dev) (port : Nat) : Bool := d.ob Obj.PairRole != 0 && d.ob Obj.PairBus == port

/-- A unit in YIELDED or REJOINING builds its command streams without sending them (R453). -/
def Dev.muted (d : Dev) (port : Nat) : Bool := d.pairedOn port && decide (2 ≤ d.pair.state)

/-- A command frame joins the digest of an interval: CRC-32 over the identifier with NODE 0, then the payload (R451). -/
def Dev.digestFrame (d : Dev) (interval ident : Nat) (data : List Byte) : Dev :=
  let x := crc32 (leBytes ident 4 ++ data)
  let old := match d.pair.digests.find? (fun p => p.1 == interval) with | some p => p.2 | none => 0
  { d with pair := { d.pair with
      digests := (interval, old ^^^ x) :: (d.pair.digests.filter (fun p => p.1 != interval)).take 3 } }

/-- A node message of R329: header and entries; `iv` is the interval whose digest it joins, where there is one. -/
def Dev.nodeFrame (d : Dev) (port prio fn node count : Nat) (entries : List Byte) (refs : List (Nat × Nat)) (on : Bool)
    (iv : Option Nat) : Dev :=
  let (d, s) := d.ibSeq port fn node
  let data := fdPad (leBytes s 2 ++ leBytes count 1 ++ [0] ++ entries)
  let d : Dev := match iv with
    | some i => d.digestFrame i (ibIdent prio fn 0 node) data
    | none => d
  if d.muted port then d
  else (d.ibPush { port := port, prio := prio, fn := fn, stream := node, data := data, entries := refs, node := 0, on := on }).1

/-- NodeState of R342: 0 absent, 1 configured, 2 running, 3 lost, 4 window removed. -/
def Dev.nodeState (d : Dev) (bus node : Nat) : Nat := d.ob (Obj.NodeState bus node)
def Dev.setNodeState (d : Dev) (bus node st : Nat) : Dev := d.setOb (Obj.NodeState bus node) st

/-- The identities of R317: remote nodes, and packages. -/
def nodeIdent (who : Nat) : Bool := decide (0x3E00 ≤ who) && decide (who ≤ 0x3E3F)
def packageIdent (who : Nat) : Bool := decide (1 ≤ who) && decide (who ≤ 10000)

/-- An entry of WindowTable: the sender of window `j` on a bus (R321). -/
def Dev.windowOwner (d : Dev) (bus j : Nat) : Nat := leNat (d.dom (Obj.WindowTable bus) (2 * j) 2)

/-- RoundLength and OpenLength in ns. -/
def Dev.roundNs (d : Dev) : Nat := d.ob Obj.RoundLength * 1000000
def Dev.openNs (d : Dev) : Nat := d.ob Obj.OpenLength * 1000

/-- J of R321. -/
def Dev.windowCount (d : Dev) : Nat := min 63 ((d.roundNs - d.openNs) / 250000 - 1)

/-- The windows of a sender, within J (R321). -/
def Dev.windowList (d : Dev) (bus who : Nat) : List Nat :=
  (List.range 64).filter (fun j => decide (1 ≤ j) && decide (j ≤ d.windowCount) && d.windowOwner bus j == who)

/-- The windows of a sender as a bit map of 1 to 63 (R331). -/
def Dev.windowsOf (d : Dev) (bus who : Nat) : Nat := (d.windowList bus who).foldl (fun a j => a + 2 ^ j) 0

/-- A node that the package controls. -/
def Dev.ibNode (d : Dev) (bus node : Nat) : Option IbNode := d.ib.nodes.find? (fun n => n.port == bus && n.node == node)

/-- Changes what is held of a controlled node. -/
def Dev.withNode (d : Dev) (bus node : Nat) (g : IbNode → IbNode) : Dev :=
  { d with ib := { d.ib with nodes := d.ib.nodes.map (fun n => if n.port = bus ∧ n.node = node then g n else n) } }

/-- What a node configure message carries after its Seq (R331): the package is ControllerA, its partner ControllerB. SLEEP_OK follows RendezvousEnable, and RendezvousOffset is the
package's own: DEDUCED. -/
def Dev.configBody (d : Dev) (bus node : Nat) : List Byte :=
  let own := d.ob Obj.PackageNumber
  let partner := if d.ob Obj.PairRole = 0 then 0 else d.ob Obj.PairPartner
  let sleep := d.ob Obj.RendezvousEnable == 1
  let removed := match d.ibNode bus node with | some n => n.removed | none => false
  leBytes (b2n sleep) 1 ++ [0] ++ leBytes own 2 ++ leBytes partner 2
    ++ leBytes (if removed then 0 else d.windowsOf bus (0x3E00 + node)) 8 ++ leBytes (d.ob Obj.RoundLength) 2
    ++ leBytes (d.ob Obj.OpenLength) 2 ++ leBytes (d.ob Obj.NodeHoldTime) 2 ++ leBytes (d.ob Obj.RendezvousOffset) 2

/-- A node configure message (R331). -/
def Dev.nodeConfigure (d : Dev) (bus node : Nat) : Dev :=
  let (d, s) := d.ibSeq bus 0x0B node
  let sleep := d.ob Obj.RendezvousEnable == 1
  let data := leBytes s 2 ++ d.configBody bus node
  let d := if d.muted bus then d
    else (d.ibPush { port := bus, prio := 5, fn := 0x0B, stream := node, data := data, entries := [], node := 0, on := false }).1
  let now := d.now
  d.withNode bus node (fun (n : IbNode) => { n with configAt := now, sleepOk := sleep })

/-- Node configure for every node whose configuration is not what it was before a write (R331). -/
def Dev.nodesFollow (d was : Dev) : Dev :=
  d.ib.nodes.foldl (fun (d : Dev) n =>
    if d.configBody n.port n.node = was.configBody n.port n.node then d else d.nodeConfigure n.port n.node) d

/-- Builds and sends a schedule with one entry; a lost node gets none (R180, R329, R333). -/
def Dev.schedNow (d : Dev) (o : IbOff) (action : Nat) (iv : Option Nat) : Dev :=
  let bus := bitsOf o.out 13 12
  let node := bitsOf o.out 11 6
  if d.nodeState bus node = 3 then d else
  let body := leBytes (bitsOf o.out 5 0) 1 ++ leBytes action 1 ++ leBytes o.epoch 2 ++ leBytes o.level 2 ++ leBytes o.fireFt 8
    ++ leBytes o.handle 2 ++ leBytes o.old 2 ++ leBytes 0 2
  let d := d.nodeFrame bus (if action = 0 then 1 else 2) 0x08 node 1 body [(o.engine, o.handle)] (action != 0) iv
  match iv with
  | some i => { d with pair := { d.pair with built := (o.engine, o.handle, i) :: d.pair.built.filter (fun p => decide (i ≤ p.2.2 + 3)) } }
  | none => d

/-- Builds and sends a cancel for one handle (R180, R329). -/
def Dev.cancelNow (d : Dev) (out handle : Nat) (iv : Option Nat) : Dev :=
  let body := leBytes (bitsOf out 5 0) 1 ++ leBytes 0 1 ++ leBytes handle 2
  d.nodeFrame (bitsOf out 13 12) 1 0x09 (bitsOf out 11 6) 1 body [] false iv

/-- The pairing interval of an FT (R450). -/
def Dev.intervalOf (d : Dev) (t : Nat) : Nat := t / (d.ob Obj.RoundLength * 1000000)

/-- The interval in which the running shutter frame started. -/
def Dev.frameInterval (d : Dev) : Nat := d.intervalOf d.frame.start

/-- A repeated off is forgotten: replaced, cancelled or reported. -/
def Dev.offDone (d : Dev) (out handle : Nat) : Dev :=
  { d with ib := { d.ib with offs := d.ib.offs.filter (fun o => !(o.out == out && o.handle == handle)) } }

/-- The schedule of an accepted class N entry: sent at once, or, in a pair, ordered with the other entries of its shutter frame
(R180, R449). An off is repeated until it is reported. -/
def Dev.nodeSchedule (d : Dev) (out id engine handle oldHandle action epoch level fireFt : Nat) : Dev :=
  let o : IbOff :=
    { out := out, engine := engine, handle := handle, old := oldHandle, epoch := epoch, level := level, fireFt := fireFt }
  let d := if oldHandle = 0xFFFF then d else d.offDone out oldHandle
  let d : Dev := if action = 0 then { d with ib := { d.ib with offs := d.ib.offs ++ [o] } } else d
  if d.pairedOn (bitsOf out 13 12) then
    let x : PairItem :=
      { cancel := false, fireFt := fireFt, id := id, out := out, engine := engine, handle := handle, old := oldHandle
        action := action, epoch := epoch, level := level, interval := d.frameInterval }
    { d with pair := { d.pair with batch := d.pair.batch ++ [x] } }
  else d.schedNow o action none

/-- The cancel of a withdrawn class N entry. -/
def Dev.nodeCancel (d : Dev) (out id handle fireFt : Nat) : Dev :=
  let d := d.offDone out handle
  if d.pairedOn (bitsOf out 13 12) then
    let x : PairItem :=
      { cancel := true, fireFt := fireFt, id := id, out := out, engine := 0, handle := handle, old := 0xFFFF
        action := 0, epoch := 0, level := 0, interval := d.frameInterval }
    { d with pair := { d.pair with batch := d.pair.batch ++ [x] } }
  else d.cancelNow out handle none

/-- The order of a shutter frame's entries: by FireFt, then by endpoint ID (R449). -/
def PairItem.before (a b : PairItem) : Bool :=
  decide (a.fireFt < b.fireFt) || (a.fireFt == b.fireFt && decide (a.id ≤ b.id))

def insertItem (x : PairItem) : List PairItem → List PairItem
  | [] => [x]
  | y :: ys => if y.before x then y :: insertItem x ys else x :: y :: ys

/-- The frames of the entries gathered in a shutter frame are built (R449). -/
def Dev.pairFlush (d : Dev) : Dev :=
  let items := d.pair.batch.foldl (fun a x => insertItem x a) []
  let d : Dev := { d with pair := { d.pair with batch := [] } }
  items.foldl (fun (d : Dev) (x : PairItem) =>
    if x.cancel then d.cancelNow x.out x.handle (some x.interval)
    else
      let o : IbOff :=
        { out := x.out, engine := x.engine, handle := x.handle, old := x.old, epoch := x.epoch, level := x.level, fireFt := x.fireFt }
      d.schedNow o x.action (some x.interval)) d

/-- An epoch-set for one endpoint; it is repeated each round until the node reports the epoch (R140, R329). -/
def Dev.nodeEpochSet (d : Dev) (out epoch : Nat) : Dev :=
  let bus := bitsOf out 13 12
  let node := bitsOf out 11 6
  let ep := bitsOf out 5 0
  let body := leBytes ep 1 ++ leBytes 0 1 ++ leBytes epoch 2
  let d := d.nodeFrame bus 2 0x0A node 1 body [] false none
  d.withNode bus node (fun (n : IbNode) => { n with adopt := (ep, epoch) :: n.adopt.filter (fun p => p.1 != ep) })

/-! ## Receive objects of the device (R334) -/

/-- The device holds a receive object: 0 to 3, 255, or one taken for a node or a package. -/
def Dev.devObject (d : Dev) (p o : Nat) : Bool :=
  decide (o < 4) || o == 255 || d.ib.objects.any (fun x => x.port == p && x.obj == o)

/-- An object that neither the device nor firmware uses. -/
def Dev.objFree (d : Dev) (p o : Nat) : Bool := !d.devObject p o && !d.bit (Reg.IB_RFILT p o) 31

def Dev.freeObjects (d : Dev) (p : Nat) : Nat := ((List.range 255).filter (fun o => d.objFree p o)).length

/-- ReceiveObjectsFreeMin follows the free objects of a port (R519). -/
def Dev.objLeast (d : Dev) (p : Nat) : Dev :=
  d.setOb Obj.ReceiveObjectsFreeMin (min (d.ob Obj.ReceiveObjectsFreeMin) (d.freeObjects p))

/-- The device takes the next free object; with none free it uses object 255, once per episode recorded (R334). -/
def Dev.objTake (d : Dev) (p : Nat) (node : Bool) (who : Nat) : Dev :=
  if d.ib.objects.any (fun x => x.port == p && x.node == node && x.who == who) then d
  else match (List.range 255).find? (fun o => d.objFree p o) with
    | some o =>
      let x : DevObj := { port := p, obj := o, node := node, who := who, heardAt := d.now }
      Dev.objLeast { d with ib := { d.ib with objects := d.ib.objects ++ [x], catchAll := d.ib.catchAll.filter (fun q => q != p) } } p
    | none =>
      let d := d.setBit (Reg.IB_STATUS p) 29 true
      if d.ib.catchAll.contains p then d
      else (Dev.event { d with ib := { d.ib with catchAll := p :: d.ib.catchAll } } 0 0x7008 [.h p]).reach 2

def Dev.objDrop (d : Dev) (p : Nat) (node : Bool) (who : Nat) : Dev :=
  { d with ib := { d.ib with objects := d.ib.objects.filter (fun x => !(x.port == p && x.node == node && x.who == who)) } }

end Sys2Proof.Machine
end

