-- ==== Sys2Proof/Machine/Queue.lean ====
section
/-! DEFINITION. Endpoint records, the shutter queues' own operations and as-applied events (R117 to R122, R171 to R185): what
queueing, firing, remapping and freezing share. -/
namespace Sys2Proof.Machine

/-! ## Records (R119) -/

def recAddr (e s : Nat) : Nat := localBase e + 128 * s
def Dev.recGet (d : Dev) (e s off n : Nat) : Nat := d.ld (recAddr e s + off) n
def Dev.recSet (d : Dev) (e s off n v : Nat) : Dev := d.st (recAddr e s + off) n v

/-- STATE codes of IdWord (R121). -/
def epFree : Nat := 0
def epDisabled : Nat := 1
def epEnabled : Nat := 2
def epFaulted : Nat := 3

def Dev.epState (d : Dev) (e s : Nat) : Nat := bitsOf (d.recGet e s 0 4) 31 30
def Dev.epPending (d : Dev) (e s : Nat) : Bool := bitOf (d.recGet e s 0 4) 29
def Dev.epClass (d : Dev) (e s : Nat) : Nat := bitsOf (d.recGet e s 0 4) 22 20
def Dev.epIdOf (d : Dev) (e s : Nat) : Nat := bitsOf (d.recGet e s 0 4) 17 0
def Dev.epOut (d : Dev) (e s : Nat) : Nat := d.recGet e s 4 4
def Dev.epEpoch (d : Dev) (e s : Nat) : Nat := d.recGet e s 8 2
def Dev.epLateWindow (d : Dev) (e s : Nat) : Nat := d.recGet e s 10 2
def Dev.epAccount (d : Dev) (e s : Nat) : Nat := d.recGet e s 12 2

/-- HeaderCheck: CRC-16 over bytes 0 to 13 (R119, R122). -/
def Dev.headerOk (d : Dev) (e s : Nat) : Bool := crc16 (d.bytes (recAddr e s) 14) == d.recGet e s 14 2
def Dev.rewriteHeader (d : Dev) (e s : Nat) : Dev := d.recSet e s 14 2 (crc16 (d.bytes (recAddr e s) 14))

/-- Changes STATE and keeps HeaderCheck right. -/
def Dev.setEpState (d : Dev) (e s st : Nat) : Dev :=
  (d.recSet e s 0 4 (putBits (d.recGet e s 0 4) 31 30 st)).rewriteHeader e s

/-- A HeaderCheck mismatch makes the endpoint FAULTED (R122). -/
def Dev.faultHeader (d : Dev) (e s : Nat) : Dev :=
  let d := d.setEpState e s epFaulted
  let d := d.incOb Obj.HeaderCheckFaults
  d.event (dieOf e) 0x3005 [.w (d.epIdOf e s), .h e, .h s]

/-- MeasGen counts every update of bytes 60 to 95 (R119). -/
def Dev.measGen (d : Dev) (e s : Nat) : Dev := d.recSet e s 64 1 (d.recGet e s 64 1 + 1)

/-- Adds one to a saturating 16-bit counter of a record. -/
def Dev.recCount (d : Dev) (e s off : Nat) : Dev := (d.recSet e s off 2 (min 65535 (d.recGet e s off 2 + 1))).measGen e s

/-- An epoch mismatch is counted in the record and in StaleEpochCount and reported at most once per second (R139). -/
def Dev.staleSeen (d : Dev) (e s got : Nat) : Dev :=
  let d := d.recCount e s 92
  let d := d.incOb Obj.StaleEpochCount
  let n := d.own.staleSince + 1
  let d := { d with own := { d.own with staleSince := n } }
  let before := d.rcd.staged.length
  let d := d.eventEvery 1000000000 (dieOf e) 0x3002 0 [.w (d.epIdOf e s), .h (d.epEpoch e s), .h got, .w n]
  if before < d.rcd.staged.length then { d with own := { d.own with staleSince := 0 } } else d

/-- Epoch `a` is older than `b` (R137). -/
def epochOlder (a b : Nat) : Bool :=
  let x := (b + 65536 - a % 65536) % 65536
  decide (1 ≤ x) && decide (x ≤ 32768)

/-- How a received epoch stands to the receiver's own. -/
inductive EpochOrder where
  | equal
  | older
  | newer
  deriving DecidableEq, Repr

/-- The class of an epoch: every 16-bit value falls into one of the three, unfiltered and without a timeout (R137, R142). -/
def epochOrder (own got : Nat) : EpochOrder :=
  if own % 65536 = got % 65536 then .equal else if epochOlder got own then .older else .newer

/-- Whether an epoch equals the receiver's own (R139). -/
def epochMatches (own got : Nat) : Bool := epochOrder own got == .equal

/-! ## The ownership map (R132) -/

/-- The owner and slot of an ID, none for FREE. -/
def Dev.ownerOf (d : Dev) (id : Nat) : Option (Nat × Nat) :=
  let v := SMap.get (fun _ => 0) d.own.map id
  if v = 0 then none else some ((v - 1) / 256, (v - 1) % 256)

def Dev.remapOf (d : Dev) (id : Nat) : Option Remap := d.own.remaps.find? (fun r => r.id == id)

/-- The key of an output: class and linear output index (R118). -/
def outKey (cls out : Nat) : Nat := cls * 0x100000 + out

/-- The ID bound to an output. -/
def Dev.boundTo (d : Dev) (cls out : Nat) : Option Nat :=
  let v := SMap.get (fun _ => 0) d.own.binding (outKey cls out)
  if v = 0 then none else some (v - 1)

/-- An output whose endpoint is ENABLED. -/
def Dev.outEnabled (d : Dev) (cls out : Nat) : Bool :=
  match d.boundTo cls out with
  | none => false
  | some id =>
    match d.ownerOf id with
    | some (e, s) => d.epState e s == epEnabled
    | none => false

/-- The power die that drives an output: 0 left, 1 right, none for classes N and T (R27 table, R28). -/
def dieOfOutput (cls out : Nat) : Option Nat :=
  if cls = 0 then some (out / 32) else if cls = 1 then some (out / 12) else if cls = 2 then some (out / 16) else none

/-! ## Frames and instants (R147, R173) -/

/-- The first frame start after `t`. -/
def Dev.nextFrame (d : Dev) (t : Nat) : Nat :=
  let l := d.frame.len * 1000
  let n := (t / l + 1) * l
  if d.frame.nextLen = 0 then n
  else if d.frame.nextAt ≤ t then
    let l' := d.frame.nextLen * 1000
    (t / l' + 1) * l'
  else min n d.frame.nextAt

/-- The start of the frame in which now lies, and the length that runs in it. -/
def Dev.frameNow (d : Dev) : Nat × Nat :=
  let l := if d.frame.nextLen ≠ 0 ∧ d.frame.nextAt ≤ d.now then d.frame.nextLen * 1000 else d.frame.len * 1000
  (d.now / l * l, l)

/-- The first frame start at or after `t`. -/
def Dev.frameAtOrAfter (d : Dev) (t : Nat) : Nat := if t = 0 then 0 else d.nextFrame (t - 1)

/-- E₂: the start of frame k + 2 (R34, R172). -/
def Dev.e2 (d : Dev) : Nat := d.nextFrame (d.nextFrame d.now)

/-- Action resolution of a class, ns (R117). -/
def resolution (cls : Nat) : Nat := if cls = 4 then 100 else 1000

def roundUp (t n : Nat) : Nat := (t + n - 1) / n * n

/-- The earliest instant of a new write (R173). -/
def Dev.earliest (d : Dev) (cls : Nat) : Nat :=
  let e := roundUp d.e2 (resolution cls)
  if cls = 3 then max e (d.now + d.ob Obj.NodeLead * 1000000) else e

/-! ## Entries (R171) -/

def QEntry.handle (q : QEntry) : Nat := q.gen * 1024 + q.index

def Dev.queueOf (d : Dev) (e : Nat) : List QEntry := d.shq.queue.filter (fun q => q.engine == e)
def Dev.queuesEmpty (d : Dev) : Bool := d.shq.queue.isEmpty
def Dev.setQueue (d : Dev) (q : List QEntry) : Dev := { d with shq := { d.shq with queue := q } }

/-- The lowest entry index that is free. -/
def freeIndex (q : List QEntry) : Nat → Nat → Nat
  | 0, i => i
  | n + 1, i => if q.any (fun x => x.index == i) then freeIndex q n (i + 1) else i

/-- The generation for the next use of an entry, and the counter past it. -/
def Dev.takeGen (d : Dev) (e i : Nat) : Dev × Nat :=
  let k := e * 1024 + i
  let g := SMap.get (fun _ => 0) d.shq.gens k
  ({ d with shq := { d.shq with gens := SMap.set (fun _ => 0) d.shq.gens k ((g + 1) % 64) } }, g)

/-- OutState.ON_PENDING is 1 while an on or level entry for the slot is pending (R178). -/
def Dev.fixOnPending (d : Dev) (e s : Nat) : Dev :=
  let p := (d.queueOf e).any (fun q => q.slot == s && q.action != 0)
  if bitOf (d.recGet e s 88 1) 1 = p then d
  else (d.recSet e s 88 1 (putBits (d.recGet e s 88 1) 1 1 (b2n p))).measGen e s

/-- An entry is pending until its instant: from that cycle on it has fired (R193). -/
def Dev.pendingNow (d : Dev) (q : QEntry) : Bool := decide (cycleOf d.now < cycleOf q.fireFt)

/-- The entries of an engine that have not fired. -/
def Dev.liveQueue (d : Dev) (e : Nat) : List QEntry := (d.queueOf e).filter d.pendingNow

/-- SHQ_STATUS, QueueFillMax, QueueFreeMin and the low episode follow the fill (R179, R195). -/
def Dev.fixQueueStatus (d : Dev) (e : Nat) : Dev :=
  let fill := (d.liveQueue e).length
  let low := decide (1024 - fill ≤ d.ob Obj.QueueOffReserve)
  let d := d.setFM e Reg.SHQ_STATUS 10 0 fill
  let d := d.setBitM e Reg.SHQ_STATUS 16 low
  let d := if 1024 ≤ fill then d.setBitM e Reg.SHQ_STATUS 17 true else d
  let d := d.setOb Obj.QueueFillMax (max fill (d.ob Obj.QueueFillMax))
  let d := d.setOb Obj.QueueFreeMin (min (1024 - fill) (d.ob Obj.QueueFreeMin))
  let was := SMap.get (fun _ => false) d.shq.low e
  let d := { d with shq := { d.shq with low := SMap.set (fun _ => false) d.shq.low e low } }
  if low && !was then d.event (dieOf e) 0x3021 [.h e, .w (1024 - fill)] else d

/-- The reserve has changed: every queue that holds an entry is judged anew (R179). -/
def Dev.fixQueues (d : Dev) : Dev := (d.shq.queue.map (fun q => q.engine)).eraseDups.foldl Dev.fixQueueStatus d

/-- Takes entries out of an engine's queue whose place is taken in the same cycle: the status follows with the new entry. -/
def Dev.takeEntries (d : Dev) (e : Nat) (p : QEntry → Bool) : Dev :=
  let gone := (d.queueOf e).filter p
  let d := d.setQueue (d.shq.queue.filter (fun q => !(q.engine == e && p q)))
  gone.foldl (fun d q => d.fixOnPending e q.slot) d

/-- Takes entries out of an engine's queue. -/
def Dev.removeEntries (d : Dev) (e : Nat) (p : QEntry → Bool) : Dev :=
  let d' := d.takeEntries e p
  if (d.queueOf e).any p then d'.fixQueueStatus e else d'

/-! ## As-applied events (R184, R185) -/

/-- KIND codes of EventWord. -/
def kindMissed : Nat := 3
def kindDropped : Nat := 4

/-- KIND of an executed action: 0 on, 1 off, 2 level. -/
def kindOf (action : Nat) : Nat := if action = 0 then 1 else if action = 1 then 0 else 2

def eventWord (id cls kind : Nat) (measured conf weak stale late : Bool) : Nat :=
  id + cls * 2 ^ 20 + kind * 2 ^ 24 + b2n measured * 2 ^ 27 + b2n conf * 2 ^ 28 + b2n weak * 2 ^ 29
    + b2n stale * 2 ^ 30 + b2n late * 2 ^ 31

/-- Lateness in 10 µs, saturating (R171). -/
def late10 (ns : Nat) : Nat := min 65535 (ns / 10000)

/-- Address of the event with GenHead `g` in an engine's ring. -/
def aaAddr (e g : Nat) : Nat := dramBase + 0x7C000000 + 0x8000 * e + 32 * ((g + 1023) % 1024)

/-- Writes one event into the owner's ring, or drops it when the ring is full or its writer is frozen (R185, R423). -/
def Dev.aaWrite (d : Dev) (e : Nat) (word epoch account fireFt : Nat) (delay : Int) (level late : Nat) : Dev :=
  let wr := (d.rdM e Reg.AA_WR).toNat
  let rd := (d.rdM e Reg.AA_RD).toNat
  let dropped := SMap.get (fun _ => 0) d.shq.aaEpisode e
  if 1024 ≤ (wr + 2 ^ 32 - rd) % 2 ^ 32 || d.bit Reg.DB_FROZEN_DEV 10 then
    let d := d.incOb Obj.AaDroppedCount
    let d := d.setFM e Reg.AA_STATUS 31 16 (d.fM e Reg.AA_STATUS 31 16 + 1)
    let d := d.setBitM e Reg.AA_STATUS 0 true
    { d with shq := { d.shq with aaEpisode := SMap.set (fun _ => 0) d.shq.aaEpisode e (dropped + 1) } }
  else
    let g := (wr + 1) % 2 ^ 32
    let d := d.setBytes (aaAddr e g) (leBytes g 4 ++ leBytes word 4 ++ leBytes epoch 2 ++ leBytes account 2
      ++ leBytes fireFt 8 ++ leBytes (unsx 32 delay) 4 ++ leBytes level 2 ++ leBytes late 2 ++ leBytes g 4)
    let d := d.wrM e Reg.AA_WR (wd g)
    let d : Dev :=
      if g = 0 then { d with shq := { d.shq with aaTurned := SMap.set (fun _ => false) d.shq.aaTurned e true } } else d
    if dropped = 0 then d
    else
      let d := { d with shq := { d.shq with aaEpisode := SMap.set (fun _ => 0) d.shq.aaEpisode e 0 } }
      d.event (dieOf e) 0x3024 [.h e, .w dropped]

/-- Where the record of an entry's endpoint lies now (R134, R135). -/
def Dev.qPlace (d : Dev) (q : QEntry) : Nat × Nat := (d.ownerOf q.id).getD (q.engine, q.slot)
def Dev.qClass (d : Dev) (q : QEntry) : Nat := d.epClass (d.qPlace q).1 (d.qPlace q).2
def Dev.qOut (d : Dev) (q : QEntry) : Nat := d.epOut (d.qPlace q).1 (d.qPlace q).2

/-- The event of an entry that is dropped, with its cause (R184). -/
def Dev.dropEvent (d : Dev) (q : QEntry) (cause : Nat) : Dev :=
  let (e, s) := d.qPlace q
  let w := eventWord q.id (d.epClass e s) kindDropped false false false q.stale (decide (0 < q.late))
  d.aaWrite q.engine w q.epoch (d.epAccount e s) q.fireFt (cause : Int) q.level (late10 q.late)

/-- DropCount of the record (R176, R179). -/
def Dev.countDrop (d : Dev) (e s : Nat) : Dev := d.recCount e s 94

/-- 0x3022 at most once per second, with the number of actions discarded since (R176). -/
def Dev.reportDrop (d : Dev) (id cause : Nat) : Dev :=
  let n := d.shq.droppedSince + 1
  let d := { d with shq := { d.shq with droppedSince := n } }
  let before := d.rcd.staged.length
  let d := d.eventEvery 1000000000 1 0x3022 0 [.w id, .h cause, .w n]
  if before < d.rcd.staged.length then { d with shq := { d.shq with droppedSince := 0 } } else d

/-- Sends the cancel of a class N entry that is taken out (R135, R180, R421). -/
def Dev.cancelIfNode (d : Dev) (q : QEntry) : Dev :=
  if d.qClass q = 3 then d.nodeCancel (d.qOut q) q.id q.handle q.fireFt else d

/-- Sill links (R295). -/
def Dev.link (d : Dev) (n : Nat) : SillLink := SMap.get (fun _ => SillLink.reset) d.sill n
def Dev.setLink (d : Dev) (n : Nat) (x : SillLink) : Dev :=
  { d with sill := SMap.set (fun _ => SillLink.reset) d.sill n x }

/-- A tile as its link knows it. -/
def Dev.tile (d : Dev) (n t : Nat) : SillTile := SMap.get (fun _ => SillTile.reset) (d.link n).tiles t
def Dev.setTile (d : Dev) (n t : Nat) (x : SillTile) : Dev :=
  let l := d.link n
  d.setLink n { l with tiles := SMap.set (fun _ => SillTile.reset) l.tiles t x }

/-- An off for a dot at the head of its link's next transmission (R305). -/
def Dev.sillOff (d : Dev) (out fireFt : Nat) : Dev :=
  let n := out / 16384
  let l := d.link n
  let o : SillOff := { tile := out / 1024 % 16, dot := out % 1024, fireFt := fireFt, carried := false }
  d.setLink n { l with offs := o :: l.offs }

/-- What follows outside the package when an entry leaves the queue unfired: class N sends a cancel, a class T on or level that
has been sent is countered by an off at the same FireFt (R135, R180, R305, R421). -/
def Dev.uncommand (d : Dev) (q : QEntry) : Dev :=
  let d := d.cancelIfNode q
  if d.qClass q = 4 ∧ q.sent ∧ q.action ≠ 0 then d.sillOff (d.qOut q) q.fireFt else d

/-- A pending on or level that is discarded: counted, its event written, and out of the queue (R176, R184, R421). -/
def Dev.dropEntry (d : Dev) (q : QEntry) (cause : Nat) : Dev :=
  let (e, s) := d.qPlace q
  let d := d.countDrop e s
  let d := d.incOb Obj.FiringDropCount
  let d := d.dropEvent q cause
  d.removeEntries q.engine (fun x => x.handle == q.handle)

end Sys2Proof.Machine
end

