-- ==== Sys2Proof/Machine/Deadbolt.lean ====
section
/-! DEFINITION. Engines as masters, the access windows and Deadbolt (R22, R393, R417 to R425): which accesses a master may make,
and what happens when it makes another. -/
namespace Sys2Proof.Machine

/-! ## Engines -/

def Dev.engine (d : Dev) (e : Nat) : Eng := SMap.get (fun _ => Eng.reset) d.eng e
def Dev.setEngine (d : Dev) (e : Nat) (x : Eng) : Dev := { d with eng := SMap.set (fun _ => Eng.reset) d.eng e x }

/-- The number of engines (R15). -/
def engines : Nat := 1024

/-- Whether a cluster's domain is on (R444, PWR_DOM of R460). -/
def Dev.clusterOn (d : Dev) (c : Nat) : Bool := d.bit (Reg.PWR_DOM (c / 32)) (c % 32)
def Dev.fabOn (d : Dev) (r : Nat) : Bool := d.bit (Reg.PWR_DOM 2) r

/-- Whether a debug session holds a cluster (R426). -/
def Dev.halted (d : Dev) (c : Nat) : Bool := d.sec.halts.any (fun p => p.1 == c)

/-- Whether a master is frozen (R420, DB_FROZEN of R436). -/
def Dev.frozen (d : Dev) (m : Nat) : Bool :=
  if m < 1024 then d.bit (Reg.DB_FROZEN (m / 32)) (m % 32)
  else if m < 0x408 then d.bit Reg.DB_FROZEN_DEV (m - 0x400)
  else if m < 0x418 then d.bit Reg.DB_FROZEN_DEV (m - 0x408)
  else d.bit Reg.DB_FROZEN_DEV 16

def Dev.dieClkOf (d : Dev) (die : Nat) : DieClk := SMap.get (fun _ => DieClk.reset) d.dieClk die
def Dev.setDieClk (d : Dev) (die : Nat) (x : DieClk) : Dev := { d with dieClk := SMap.set (fun _ => DieClk.reset) d.dieClk die x }

/-- The clock of an engine die now: 200 MHz, 100 MHz while it is halved, none while it is stopped (R26, R447). -/
def Dev.dieTicks (d : Dev) (die : Nat) : Nat :=
  let x := d.dieClkOf die
  let rate := if bitOf d.dieStopped die then 0 else if d.bit Reg.PWR_STATUS (10 + die) then 1 else 2
  x.ticks + rate * (d.now - x.at_)

/-- The clock of a die is counted up to now, before its rate changes. -/
def Dev.dieCount (d : Dev) (die : Nat) : Dev := d.setDieClk die { d.dieClkOf die with ticks := d.dieTicks die, at_ := d.now }

/-- Whether an engine can run at all: powered, released, not frozen, halted or stopped, its die clocked (R20, R21, R420, R447). -/
def Dev.alive (d : Dev) (e : Nat) : Bool :=
  decide (e < engines) && d.clusterOn (clusterOf e) && (d.engine e).running && !d.frozen e && !d.halted (clusterOf e)
    && !(d.engine e).stopped && !bitOf d.dieStopped (dieOf e)

/-- Whether a receive object that an engine selected holds a new frame (R405 bit 11). -/
def Dev.irqIbRx (d : Dev) (e : Nat) : Bool :=
  (List.range 4).any (fun p => d.bitM e Reg.ENG_RXSEL p &&
    (List.range 256).any (fun i => d.bit (Reg.IB_RSTAT p i) 31 && d.bit (Reg.IB_RFILT p i) 29))

/-- IRQ_PEND of an engine: its stored edges and the level sources as they stand (R405). -/
def Dev.irqPend (d : Dev) (e : Nat) : Nat :=
  let edges := d.fM e Reg.IRQ_PEND 6 0 + d.fM e Reg.IRQ_PEND 13 13 * 2 ^ 13
  edges + b2n (d.bitM e Reg.SHQ_STATUS 16) * 2 ^ 7 + b2n (d.rdM e Reg.AA_WR != d.rdM e Reg.AA_RD) * 2 ^ 8
    + b2n (d.rd Reg.TGT_WR != d.rd Reg.TGT_RD) * 2 ^ 9 + b2n (d.rd Reg.PIN_WR != d.rd Reg.PIN_RD) * 2 ^ 10
    + b2n (d.irqIbRx e) * 2 ^ 11 + b2n (d.dict.fw.isSome && d.dict.dictEngine == e) * 2 ^ 12

/-- The enabled sources that are pending (R406). -/
def Dev.irqNow (d : Dev) (e : Nat) : Nat := d.irqPend e &&& d.fM e Reg.IRQ_EN 13 0

/-- An edge source is set (R405). -/
def Dev.raise (d : Dev) (e bit : Nat) : Dev := d.setBitM e Reg.IRQ_PEND bit true

/-- Whether an engine issues instructions now: alive and not clock-gated, or woken by an enabled source (R407). -/
def Dev.runs (d : Dev) (e : Nat) : Bool := d.alive e && (!(d.engine e).gated || d.irqNow e != 0)

/-! ## Windows -/

/-- Granted windows of an engine (R418): window `w` covers register address `a`. -/
def Dev.granted (d : Dev) (e a : Nat) (write : Bool) : Bool :=
  (List.range 8).any (fun w =>
    let b := d.rdM e (Reg.WIN_BASE w)
    let l := d.rdM e (Reg.WIN_LIM w)
    fbit b 0 && (if write then fbit b 2 else fbit b 1) && decide (fld b 31 8 ≤ a / 256) && decide (a / 256 ≤ fld l 31 8))

/-- CACHE_EN of a cluster (PC_CTRL of its region, R168). -/
def Dev.cacheEn (d : Dev) (c : Nat) : Bool := d.bitM (128 * (c / 8)) Reg.PC_CTRL (c % 8)

/-- Firmware data areas of a cluster's shared memory, as offsets in it (R157). -/
def Dev.fwData (d : Dev) (c o : Nat) : Bool :=
  decide (o < 0x10000) || (decide (0x10000 ≤ o) && decide (o < 0x58000) && !d.cacheEn c)
    || (decide (0x58000 ≤ o) && decide (o < 0x5F800)) || (decide (0x5FC00 ≤ o) && decide (o < 0x5FE00))

/-- Whether a record byte is withheld from firmware (R120): bytes 0 to 15 and 60 to 95. -/
def recWithheld (a : Nat) : Bool :=
  let o := a % 128
  decide (o < 16) || (decide (60 ≤ o) && decide (o < 96))

/-- A device register address (R7). -/
def isRegAddr (a : Nat) : Bool := decide (0x40000000 ≤ a) && decide (a < 0x40130000)

/-- DRAM offset of an address in the DRAM window (R394). -/
def Dev.dramOff (d : Dev) (e a : Nat) : Nat := d.fM e Reg.ENG_CTRL 3 0 * 0x10000000 + (a - 0x10000000)

/-- A Louvre register may be written only by engines of the cluster that the module is assigned to (R224). -/
def Dev.louvreBarred (d : Dev) (e a : Nat) : Bool :=
  if 0x40060000 ≤ a ∧ a < 0x40061000 then
    d.f (Reg.LV_CTRL ((a - 0x40060000) / 0x100)) 6 0 != clusterOf e
  else false

/-- A write to a module of another cluster sets its WRONG_OWNER (R224, R239). -/
def Dev.louvreWrong (d : Dev) (e a : Nat) : Dev :=
  if d.louvreBarred e a then
    let n := (a - 0x40060000) / 0x100
    let was := d.bit (Reg.LV_STATUS n) 30
    let d := d.setBit (Reg.LV_STATUS n) 30 true
    if was then d else d.event (2 + n / 8) 0x5088 [.h n, .h e]
  else d

/-- Whether an engine's read of `n` bytes at `a` lies in its windows (R393). -/
def Dev.mayRead (d : Dev) (e a : Nat) : Bool :=
  if a < 0x10000 then true
  else if 0x100000 ≤ a ∧ a < 0x180000 then true
  else if 0x1000000 ≤ a ∧ a < 0x1400000 then true
  else if 0x10000000 ≤ a ∧ a < 0x20000000 then decide (d.dramOff e a < 0xFFC00000)
  else if 0x40000C00 ≤ a ∧ a < 0x40001400 then d.dict.dictEngine == e
  else if 0x40000000 ≤ a ∧ a < 0x40020000 then true
  else if 0x400E0000 ≤ a ∧ a < 0x400F0000 then true
  else d.granted e a false

/-- Whether an engine's write of `n` bytes at `a` lies in its windows (R393, R120, R157, R224). -/
def Dev.mayWrite (d : Dev) (e a n : Nat) : Bool :=
  if a < 0x8000 then !((List.range n).any (fun i => recWithheld (a + i)))
  else if a < 0x10000 then true
  else if 0x100000 ≤ a ∧ a < 0x180000 then d.fwData (clusterOf e) (a - 0x100000)
  else if 0x1000000 ≤ a ∧ a < 0x1400000 then d.fwData (8 * regionOf e + (a - 0x1000000) / 0x80000) ((a - 0x1000000) % 0x80000)
  else if 0x10000000 ≤ a ∧ a < 0x20000000 then decide (d.dramOff e a < 0x78000000)
  else if 0x40000C00 ≤ a ∧ a < 0x40001400 then d.dict.dictEngine == e
  else if 0x40000000 ≤ a ∧ a < 0x40020000 then true
  else if 0x400E0000 ≤ a ∧ a < 0x400F0000 then true
  else d.granted e a true && !d.louvreBarred e a

/-! ## Kick block (R422) -/

/-- Whether a power die drives an output bound to an endpoint that a frozen engine owns, or the unit has yielded (R453). -/
def Dev.kickBlocked (d : Dev) (die : Nat) : Bool :=
  (d.ob Obj.PairRole != 0 && decide (2 ≤ d.pair.state)) || d.own.map.any (fun p =>
    let e := (p.2 - 1) / 256
    let s := (p.2 - 1) % 256
    d.frozen e && decide (dieOfOutput (d.epClass e s) (d.epOut e s) = some die))

/-- DB_KICKBLOCK follows the frozen engines' endpoints; each change records 0x8003 (R422, R437). -/
def Dev.fixKickBlock (d : Dev) : Dev :=
  [0, 1].foldl (fun d die =>
    let b := d.kickBlocked die
    if b = d.bit Reg.DB_KICKBLOCK die then d
    else (d.setBit Reg.DB_KICKBLOCK die b).event (2 + die) 0x8003 [.h die]) d

/-! ## Freezes -/

/-- The origin of a freeze for histogram 10 (R476). -/
def freezeOrigin (m : Nat) : Nat :=
  if m < 1024 then regionOf m else if m < 0x408 then 8 else if m < 0x418 then 9 else 10

/-- Sets a master's frozen bit. -/
def Dev.setFrozen (d : Dev) (m : Nat) (b : Bool) : Dev :=
  if m < 1024 then d.setBit (Reg.DB_FROZEN (m / 32)) (m % 32) b
  else if m < 0x408 then d.setBit Reg.DB_FROZEN_DEV (m - 0x400) b
  else if m < 0x418 then d.setBit Reg.DB_FROZEN_DEV (m - 0x408) b
  else d.setBit Reg.DB_FROZEN_DEV 16 b

/-- Writes a log entry; the newest of 64 overwrites the oldest (R425). -/
def Dev.logFreeze (d : Dev) (m cause addr epc : Nat) (kick : Bool) : Dev :=
  let x : DbEntry :=
    { ft := d.now, master := m, cause := cause, flags := if kick then 2 else 0, addr := addr, epc := epc, releaseFt := 0 }
  { d with sec := { d.sec with log := (x :: d.sec.log).take 64 } }

/-- A queue entry discarded at the freeze of its engine (R421). -/
def Dev.freezeEntry (d : Dev) (q : QEntry) : Dev :=
  if q.action = 0 then d else (d.uncommand q).dropEntry q 4

/-- Whether an engine owns an endpoint bound to an output of a power die, so that its freeze blocks that die's kicks (R422). -/
def Dev.blocksKick (d : Dev) (m : Nat) : Bool :=
  d.own.map.any (fun p =>
    let e := (p.2 - 1) / 256
    let s := (p.2 - 1) % 256
    e == m && (dieOfOutput (d.epClass e s) (d.epOut e s)).isSome)

/-- A master is frozen (R420 to R425). A master that is frozen already is not frozen again (R435). -/
def Dev.freeze (d : Dev) (m cause addr epc : Nat) : Dev :=
  if d.frozen m then d
  else
    let d := d.setFrozen m true
    let d := d.wr Reg.DB_COUNT (d.rd Reg.DB_COUNT + 1)
    let d := d.incOb (Obj.DeadboltCauseCount (cause - 1))
    let d := d.histFeed 9 0 1 cause m
    let d := d.histFeed 10 0 1 (freezeOrigin m) m
    let d := if m < 1024 then (d.queueOf m).foldl Dev.freezeEntry d else d
    let d := d.logFreeze m cause addr epc (d.blocksKick m)
    let d := d.event (if m < 1024 then dieOf m else 1) 0x8001 [.w m, .h cause, .w addr]
    d.fixKickBlock

/-- A freeze ends by the given means: 1 DeadboltRelease, 2 package reset, 3 domain off (R424). -/
def Dev.release (d : Dev) (m means : Nat) : Dev :=
  if d.frozen m then
    let d := d.setFrozen m false
    let log := d.sec.log.map (fun x =>
      if x.master = m ∧ x.releaseFt = 0 ∧ x.flags % 2 = 0 then { x with flags := x.flags + 1, releaseFt := d.now } else x)
    let d := { d with sec := { d.sec with log := log } }
    (d.event 1 0x8002 [.w m, .h means]).fixKickBlock
  else d

/-- What an access attempt by a master comes to: its effect where the master may act and the address lies in its windows, nothing
where the master cannot act, a freeze where it may not (R22, R420). A master above 0x3FF has fixed windows that its commands keep to. -/
def Dev.byMaster (d : Dev) (m a : Nat) (write : Bool) (k : Dev → Dev) : Dev :=
  let b := busAddr a
  if m < engines then
    if d.runs m then
      if (if write then d.mayWrite m b 4 else d.mayRead m b) then k d
      else (if write then d.louvreWrong m b else d).freeze m (if write then 2 else 1) b (d.engine m).pc
    else d
  else if d.frozen m then d
  else k d

end Sys2Proof.Machine
end

