-- ==== Sys2Proof/Machine/RegCore.lean ====
section
/-! DEFINITION. What every register write and read has in common (R7, R8, R391, R392): reserved bits, reserved encodings with
their CFG_REJECT bits and events, write-one-to-clear bits, and the two halves of a 64-bit register. -/
namespace Sys2Proof.Machine

/-- The status bit that a reserved encoding sets, and the event code and its origin where the block's chapter has one. -/
structure Reject where
  reg : Nat
  bit : Nat
  code : Nat
  origin : Nat
  deriving DecidableEq, Repr

/-- CFG_REJECT of the block that holds an address, for a write by master `m` (R8 and the register tables). -/
def rejectOf (m a : Nat) : Reject :=
  let o := a % 0x10000
  let here := if m < 1024 then dieOf m else 0
  match a / 0x10000 with
  | 0x4000 =>
    if 0x800 ≤ o ∧ o < 0x900 then ⟨Reg.OWN_STATUS, 15, 0x3034, here⟩
    else if 0x900 ≤ o ∧ o < 0xB00 then ⟨Reg.FRM_STATUS, 15, 0x3034, here⟩
    else ⟨Reg.ENG_STATUS, 31, 0x3034, here⟩
  | 0x4001 => ⟨Reg.SHQ_STATUS, 31, 0x3034, here⟩
  | 0x4002 => ⟨Reg.FT_STATUS, 15, 0, 0⟩
  | 0x4003 => ⟨Reg.GB_STATUS, 15, 0x2006, 0⟩
  | 0x4004 => ⟨Reg.SPD_STATUS, 31, 0, 0⟩
  | 0x4005 =>
    if 0x1000 ≤ o then ⟨Reg.SOL_STATUS ((o - 0x1000) / 64), 31, 0x4012, 2 + (o - 0x1000) / 64 / 32⟩
    else if o < 0x400 then ⟨Reg.SOL_DIE_STATUS (o / 0x100), 31, 0x4012, 2 + o / 0x100⟩
    else ⟨Reg.SOL_DIE_STATUS 0, 31, 0x4012, 2⟩
  | 0x4006 => ⟨Reg.LV_STATUS (o / 0x100 % 16), 31, 0x5087, 2 + o / 0x100 % 16 / 8⟩
  | 0x4007 => ⟨Reg.HG_STATUS (o / 0x8000), 31, 0x5006, 2 + o / 0x8000⟩
  | 0x4008 =>
    if 0x1000 ≤ o then ⟨Reg.LS_STATUS ((o - 0x1000) / 32), 31, 0x6053, 2 + (o - 0x1000) / 32 / 12⟩
    else ⟨Reg.LS_STATUS (12 * (o / 0x100)), 31, 0x6053, 2 + o / 0x100⟩
  | 0x4009 =>
    if 0x1000 ≤ o then ⟨Reg.DIO_STATUS ((o - 0x1000) / 32), 31, 0x6053, 2 + (o - 0x1000) / 32 / 16⟩
    else ⟨Reg.DIO_STATUS 0, 31, 0x6053, 2⟩
  | 0x400A =>
    if 0x1000 ≤ o then ⟨Reg.AI_STATUS ((o - 0x1000) / 32), 31, 0x6053, 2 + (o - 0x1000) / 32 / 8⟩
    else ⟨Reg.AI_DIE_STATUS (o / 0x100), 31, 0x6053, 2 + o / 0x100⟩
  | 0x400B => ⟨Reg.IB_STATUS (o / 0x8000), 31, 0x700F, 0⟩
  | 0x500C => ⟨Reg.IB_STATUS (2 + o / 0x8000), 31, 0x700F, 0⟩
  | 0x400C => ⟨Reg.TR_STATUS, 31, 0x7017, 0⟩
  | 0x400D => ⟨Reg.SL_STATUS (o % 0x1000 / 0x100), 31, 0xC007, 0⟩
  | 0x400E => ⟨Reg.WIN_STATUS, 31, 0x8033, here⟩
  | 0x400F => ⟨Reg.PWR_STATUS, 31, 0x9035, 0⟩
  | 0x4010 => ⟨Reg.REC_STATUS, 31, 0xB00A, 1⟩
  | _ => ⟨Reg.REC_STATUS, 31, 0xB00A, 1⟩

/-- Events of a rejected encoding that their table records once per episode: those of the valve drive, the Louvre modules and the loads.
The episode lasts while CFG_REJECT stands (DEDUCED: R222, R241, R294). -/
def rejectOnce (code : Nat) : Bool := code == 0x4012 || code == 0x5087 || code == 0x6053

/-- A reserved encoding, or a write that its chapter treats as one, is rejected (R8). -/
def Dev.reject (d : Dev) (m a : Nat) : Dev :=
  let r := rejectOf m a
  let was := d.bitM m r.reg r.bit
  let d := d.setBitM m r.reg r.bit true
  let d := if a / 0x10000 = 0x4007 ∧ a % 0x8000 < 0x1000 ∧ 0x100 ≤ a % 0x8000 then
      d.setBit (Reg.HG_SSTATUS (a % 0x10000 / 0x8000) ((a % 0x8000 - 0x100) / 0x80)) 31 true
    else d
  if r.code = 0 ∨ (was ∧ rejectOnce r.code) then d
  else if r.code = 0x6053 then d.event r.origin r.code [.h (a / 0x10000), .w (a % 0x10000)]
  else d.event r.origin r.code [.w (if a / 0x10000 = 0x500C then 0x10000 + a % 0x10000 else a % 0x10000)]

/-- Whether a field accepts an encoding. -/
def RegField.accepts (f : RegField) (v : Nat) : Bool :=
  f.legal.isEmpty || f.legal.any (fun p => decide (p.1 ≤ v) && decide (v ≤ p.2))

/-- The word that a write leaves, and whether a field was rejected. Bits outside writable fields keep their value (R7). -/
def RegRow.merge (r : RegRow) (cur w : Word) : Word × Bool :=
  r.fields.foldl (fun p f =>
    let v := fld w f.hi f.lo
    if f.accepts v then (putFld p.1 f.hi f.lo v, p.2) else (p.1, true)) (cur, false)

/-- Every field of `w` is one that the register accepts. -/
def RegRow.legalWord (r : RegRow) (w : Word) : Bool := r.fields.all (fun f => f.accepts (fld w f.hi f.lo))

/-- The bits of a word that a register's fields hold; its reserved bits read 0 (R7). -/
def RegRow.held (r : RegRow) (w : Word) : Word := r.fields.foldl (fun v f => putFld v f.hi f.lo (fld w f.hi f.lo)) 0

/-- A word without the bits that the register at `a` reserves. -/
def heldBits (a : Nat) (w : Word) : Word :=
  match regRow a with
  | some r => r.held w
  | none => 0

/-- An ordinary register write: fields, write-one-to-clear bits, reserved encodings (R7, R8). -/
def Dev.regStore (d : Dev) (m a : Nat) (w : Word) : Dev :=
  match regRow a with
  | none => d
  | some r =>
    if r.wo then d
    else
      let cur := d.rdM m a
      let p := r.merge cur w
      let v := p.1 &&& ~~~(w &&& wd r.w1c)
      let d := d.wrM m a v
      if p.2 then d.reject m a else d

/-- A 64-bit register that is RW and not staged holds its low word until the high word is written (R392). -/
def heldRegs (a : Nat) : Bool :=
  a == Reg.ENG_TMR_LO || a == Reg.ENG_TMR_HI || (decide (0x40020040 ≤ a) && decide (a < 0x40020060))

def holdKey (m a : Nat) : Nat := m * 0x100000000 + a

/-- A write of one half of such a register. -/
def Dev.heldStore (d : Dev) (m a : Nat) (w : Word) : Dev :=
  if a / 4 % 2 = 0 then { d with lowHeld := SMap.set (fun _ => 0) d.lowHeld (holdKey m a) w }
  else
    let low := SMap.get (fun _ => 0) d.lowHeld (holdKey m (a - 4))
    (d.regStore m (a - 4) low).regStore m a w

/-- The read shadow that a master uses now (R391). -/
def Dev.shadow (d : Dev) (m : Nat) : Word :=
  if m < engines then
    if d.bitM m Reg.ENG_STATUS 1 then (d.engine m).shadowH else (d.engine m).shadowT
  else SMap.get (fun _ => 0) d.shadows m

def Dev.setShadow (d : Dev) (m : Nat) (w : Word) : Dev :=
  if m < engines then
    let x := d.engine m
    d.setEngine m (if d.bitM m Reg.ENG_STATUS 1 then { x with shadowH := w } else { x with shadowT := w })
  else { d with shadows := SMap.set (fun _ => 0) d.shadows m w }

/-- Which half of a 64-bit register an address is: 1 low, 2 high, 0 neither. -/
def halfOf (a : Nat) : Nat :=
  match regRow a with
  | some r => r.half
  | none => 0

end Sys2Proof.Machine
end

