-- ==== Sys2Proof/Machine/DictCore.lean ====
section
/-! DEFINITION. The dictionary server's own part of every request: levels and tokens, the general checks in their order, kept
responses, staged values, ranges of values and the journal (R356, R358 to R361, R367 to R380, R387). -/
namespace Sys2Proof.Machine

/-! ## Clients and levels -/

def transportNum : Transport → Nat
  | .hc0 => 0 | .hc1 => 1 | .he0 => 2 | .he1 => 3 | .hg0 => 4 | .keyhole => 5 | .firmware => 6

/-- A client: the source of a request on its transport (R356). -/
def clientOf (r : Req) : Nat := transportNum r.transport * 2 ^ 52 + r.client % 2 ^ 52 + 1

/-- A session that is open. -/
def Sess.open_ (x : Sess) : Bool := x.endedAt.isNone

def Sess.of (x : Sess) (r : Req) : Bool := decide (x.transport = r.transport) && x.client == r.client

/-- A session that still serves: open, and neither its idle time nor its life has run out, whether or not its end has been recorded
yet (R432). -/
def Dev.live (d : Dev) (x : Sess) : Bool :=
  x.open_ && decide (d.now < x.lastAt + d.ob Obj.SessionIdleTimeout * 1000000000)
    && decide (d.now < x.openedAt + d.ob Obj.SessionLifetime * 1000000000)

/-- The session that a request's token names, for its own client (R375). -/
def Dev.session (d : Dev) (r : Req) : Option Sess :=
  if r.token = 0 then none else d.sec.sessions.find? (fun x => x.token == r.token && d.live x && x.of r)

/-- 24 h in ns. -/
def dayNs : Nat := 86400000000000

/-- The refusal of a token: 0x0502 for a session of this client ended less than 24 h ago, 0x0501 for any other token that names no
session open for this client, 0 where the token is good or absent (R375, R432). -/
def Dev.tokenCode (d : Dev) (r : Req) : Nat :=
  if r.token = 0 || (d.session r).isSome then 0
  else if d.sec.sessions.any (fun x => x.token == r.token && x.of r &&
      (match x.endedAt with | some t => decide (d.now < t + dayNs) | none => true)) then 0x0502
  else 0x0501

/-- The level of a request (R375). -/
def Dev.levelOf (d : Dev) (r : Req) : Nat :=
  match d.session r with
  | some x => x.level
  | none => if r.transport = .keyhole then 0 else 1

/-- The key of a client's staged values: its session's, or its own without one (R376). -/
def Dev.stageKey (d : Dev) (r : Req) : Nat :=
  match d.session r with
  | some x => 2 ^ 60 + x.token
  | none => clientOf r

/-! ## Responses -/

/-- What identifies a request's content for R356. -/
def reqContent (op idx sub off token : Nat) (data : List Byte) : List Nat :=
  [op, idx, sub, off, token] ++ data.map (fun b => b.toNat)

/-- A response PDU (R356). -/
def responsePdu (r : Req) (status code idx sub off : Nat) (more : Bool) (data : List Byte) : List Byte :=
  leBytes status 1 ++ leBytes (b2n more) 1 ++ leBytes r.tid 2 ++ leBytes idx 2 ++ leBytes sub 1 ++ [0] ++ leBytes code 4
    ++ leBytes off 4 ++ data

/-- A request PDU (R356). -/
def requestPdu (r : Req) (op idx sub off : Nat) (data : List Byte) : List Byte :=
  leBytes op 1 ++ [0] ++ leBytes r.tid 2 ++ leBytes idx 2 ++ leBytes sub 1 ++ [0] ++ leBytes r.token 4 ++ leBytes off 4 ++ data

/-- The identifier of a response's frames on HC0 or HC1 (R357). -/
def Dev.canReplyId (d : Dev) (port client : Nat) : Nat := 0x18EF0000 + 256 * (client % 256) + d.objVal 0 0x1111 (port + 1)

/-- What the frames of a host CAN port carry at most (R353). -/
def Dev.canRoom (d : Dev) (port : Nat) : Nat := if d.objVal 0 0x1110 (port + 1) = 1 then 8 else 64

/-- A frame of the dictionary transport, padded as CAN FD pads (R315, R357). -/
def Dev.canOut (d : Dev) (port client : Nat) (b : List Byte) : Out :=
  ⟨.can, port, d.canReplyId port client, natsOf (if d.canRoom port = 8 then b else fdPad b)⟩

/-- A response on a host CAN port: one single frame, or a first frame and the rest of a transfer (R357). -/
def Dev.canReply (d : Dev) (port client tid : Nat) (pdu : List Byte) : Dev × List Out :=
  let room := d.canRoom port
  if room = 64 ∧ pdu.length ≤ 61 then (d, [d.canOut port client (leBytes 0 1 ++ leBytes 0xD7 1 ++ leBytes pdu.length 1 ++ pdu)])
  else
    let n := room - 6
    let x : CanTx := { port := port, client := client, tid := tid, rest := pdu.drop n, seq := 1, lastAt := d.now }
    let others := d.dict.txs.filter (fun y => !(y.port == port && y.client == client && y.tid == tid))
    ({ d with dict := { d.dict with txs := others ++ [x] } },
      [d.canOut port client (leBytes 0x40 1 ++ leBytes 0xD7 1 ++ leBytes pdu.length 4 ++ pdu.take n)])

/-- What the host die sends of a response: the PDU on its transport, on a host CAN port in frames. -/
def Dev.replyOuts (d : Dev) (r : Req) (pdu : List Byte) : Dev × List Out :=
  let whole : Out := ⟨.dict, transportNum r.transport, r.client, natsOf pdu⟩
  match r.transport with
  | .hc0 => let x := d.canReply 0 r.client r.tid pdu; (x.1, whole :: x.2)
  | .hc1 => let x := d.canReply 1 r.client r.tid pdu; (x.1, whole :: x.2)
  | _ => (d, [whole])

/-- The host die sends a response PDU itself (R356). -/
def Dev.sendHere (d : Dev) (r : Req) (status code idx sub off : Nat) (more : Bool) (data : List Byte) : Dev :=
  let x := d.replyOuts r (responsePdu r status code idx sub off more data)
  x.1.emitAll x.2

/-- Indices that the host die answers while the TRF domain is off (R359). -/
def servedByHost (idx : Nat) : Bool :=
  (decide (0x1000 ≤ idx) && decide (idx ≤ 0x12FF)) || (decide (0x2000 ≤ idx) && decide (idx ≤ 0x20FF))

/-- A request of this index goes to the field side, and its response comes back from there (R347); the host die serves its own indices
(R359), and keeps serving HostStop, which needs no lane (R349): DEDUCED. -/
def Dev.crosses (d : Dev) (r : Req) (idx : Nat) : Bool :=
  d.fabricOn && d.pstate != .standby && !d.frozen 0x420 && decide (r.transport ≠ .firmware) && !servedByHost idx

/-- Sends a response PDU (R356): of the field side as a message of kind 2. Where that queue is full the host side answers 0x0601 in its
place (R348). -/
def Dev.sendResponse (d : Dev) (r : Req) (status code idx sub off : Nat) (more : Bool) (data : List Byte) : Dev :=
  if d.crosses r idx then
    let pdu := responsePdu r status code idx sub off more data
    if d.crossFull 2 false then
      (d.transomDrop 0 2 (Config.cause 0x7010 5)).sendHere r 1 0x0601 idx sub off false []
    else
      let x := d.replyOuts r pdu
      x.1.crossOut (x.1.fieldMsg 2 0 pdu x.2)
  else d.sendHere r status code idx sub off more data

/-- Keeps a response: the last 16 Tids of a client, for 2 s (R356). -/
def Dev.keepResponse (d : Dev) (r : Req) (content : List Nat) (status code : Nat) (data : List Byte) (more : Bool) : Dev :=
  let k : Kept :=
    { client := clientOf r, tid := r.tid, content := content, status := status, code := code, data := data, more := more, at_ := d.now }
  let mine := ((d.dict.kept.filter (fun x => x.client == clientOf r && x.tid != r.tid)).take 15)
  let rest := d.dict.kept.filter (fun x => x.client != clientOf r)
  { d with dict := { d.dict with kept := k :: mine ++ rest } }

/-- The end of a request: counted, and its answer kept. -/
def Dev.settle (d : Dev) (r : Req) (op idx sub off code : Nat) (sent reply : List Byte) (more : Bool) : Dev :=
  let d := if code = 0 then d.incOb Obj.DictRequests else d.incOb Obj.DictAborts
  d.keepResponse r (reqContent op idx sub off r.token sent) (if code = 0 then 0 else 1) code reply more

/-- Ends a request: counts it, answers it and keeps the answer. Flags bit 0 is MORE. -/
def Dev.answer (d : Dev) (r : Req) (op idx sub off code : Nat) (sent : List Byte) (reply : List Byte) (more : Bool) : Dev :=
  (d.settle r op idx sub off code sent reply more).sendResponse r (if code = 0 then 0 else 1) code idx sub off more reply

/-- The same where the host die answers by itself. -/
def Dev.refuseHere (d : Dev) (r : Req) (op idx sub off code : Nat) (sent : List Byte) : Dev :=
  (d.settle r op idx sub off code sent [] false).sendHere r 1 code idx sub off false []

/-- A request whose work goes on is answered Status 2 (R356). -/
def Dev.answerPending (d : Dev) (r : Req) (op idx sub off : Nat) (sent : List Byte) : Dev :=
  let d := d.keepResponse r (reqContent op idx sub off r.token sent) 2 0 [] false
  d.sendResponse r 2 0 idx sub off false []

/-- A request that is accepted and whose response waits, so that a repeat of it is answered Status 2 (R364). -/
def Dev.holdRequest (d : Dev) (r : Req) (op idx sub off : Nat) (sent : List Byte) : Dev :=
  d.keepResponse r (reqContent op idx sub off r.token sent) 2 0 [] false

/-! ## The general checks (R361) -/

/-- Writes that Doorstop serves (R498). -/
def doorstopWrite (idx sub : Nat) : Bool :=
  (decide (0x2100 ≤ idx) && decide (idx ≤ 0x22FF)) || objKey 0 idx sub == Obj.RecorderClear
    || objKey 0 idx sub == Obj.AccountsClear

/-- The session-opening objects (R355, R431). -/
def sessionObject (idx sub : Nat) : Bool := idx == 0x2120 && decide (1 ≤ sub) && decide (sub ≤ 4)

/-- Whether a session of level 1 or higher has been opened through the Keyhole and is open (R355). -/
def Dev.keyholeOpen (d : Dev) : Bool :=
  d.sec.sessions.any (fun x => decide (x.transport = .keyhole) && d.live x && decide (1 ≤ x.level))

/-- What an object is, for the general checks. -/
structure ObjInfo where
  acc : Acc
  level : Nat
  ty : OTy
  size : Nat
  restricted : Bool
  deriving DecidableEq, Repr

/-- The declaration of a firmware-defined object (R412). -/
def Dev.fwObj (d : Dev) (idx sub : Nat) : Option FwObj := d.dict.fwObjs.find? (fun o => o.idx == idx && o.sub == sub)

/-- An object's declaration: the device's, a firmware-defined one, or the supplied subindex 0x00 (R368). -/
def Dev.objInfo (d : Dev) (idx sub : Nat) : Option ObjInfo :=
  match objRow idx sub with
  | some r => some ⟨r.acc, r.level, r.ty, r.size, false⟩
  | none =>
    match d.fwObj idx sub with
    | some o => some ⟨o.acc, o.level, o.ty, o.size, bitOf o.flags 2⟩
    | none =>
      if sub = 0 ∧ (objIndexKnown idx ∨ d.dict.fwObjs.any (fun o => o.idx == idx)) then some ⟨.ro, 0, .u8, 1, false⟩
      else none

/-- Whether any object has the index (R367). -/
def Dev.indexKnown (d : Dev) (idx : Nat) : Bool := objIndexKnown idx || d.dict.fwObjs.any (fun o => o.idx == idx)

/-- The size in bytes that a write's data must have; none where the type has no fixed size. -/
def writeSizeOk (i : ObjInfo) (n : Nat) : Bool :=
  match i.ty with
  | .dom => decide (0 < n)
  | .str => decide (n ≤ i.size)
  | ty => n == ty.bytes

/-- The refusal of a request that the package's state does not serve (R359, R387, R498, and R423 for the frozen unit). -/
def Dev.unserved (d : Dev) (write : Bool) (idx sub : Nat) : Nat :=
  if (d.pstate = .standby || (d.frozen 0x420 && objKey 0 idx sub != Obj.PackageReset)) && !servedByHost idx then 0x0401
  else if d.pstate = .doorstop && write && !doorstopWrite idx sub then 0x0401
  else 0

/-- What a request asks of an object: Op 1, 2 or 3; another Op is malformed (R356). -/
inductive Ask where
  | read | write | cancel | other
  deriving DecidableEq, Repr

/-- The Keyhole's own check, before a session of level 1 opened through it: reads at level 0 and the session-opening objects (R355). -/
def Dev.keyholeBars (d : Dev) (r : Req) (ask : Ask) (idx sub : Nat) : Bool :=
  decide (r.transport = .keyhole) && !d.keyholeOpen && !(sessionObject idx sub)
    && (decide (ask ≠ .read) || (match d.objInfo idx sub with | some i => i.restricted | none => false))

/-- Access and form of a request of an object that there is: 0x0201, 0x0202 or 0x0203, then 0x0302. -/
def ObjInfo.formCode (i : ObjInfo) (lv : Nat) (ask : Ask) (off : Nat) (data : List Byte) : Nat :=
  match ask with
  | .write =>
    if (i.acc = .rw ∨ i.acc = .wo) ∧ lv < i.level then 0x0201
    else if i.acc = .ro ∨ i.acc = .const then 0x0202
    else if off ≠ 0 ∧ i.ty ≠ .dom then 0x0302
    else if !writeSizeOk i data.length then 0x0302
    else 0
  | .read =>
    if i.restricted ∧ lv < i.level then 0x0201
    else if i.acc = .wo then 0x0203
    else if off ≠ 0 ∧ i.ty ≠ .dom then 0x0302
    else if i.ty = .dom ∧ data.length ≠ 4 then 0x0302
    else 0
  | .cancel => if off ≠ 0 ∧ i.ty ≠ .dom then 0x0302 else 0
  | .other => 0x0302

/-- The general checks in the order of R361, the Keyhole's check of R355 among them; then the package's state (R361: 0x0401 after
them, DEDUCED). -/
def Dev.askCode (d : Dev) (r : Req) (ask : Ask) (idx sub off : Nat) (data : List Byte) : Nat :=
  let tok := d.tokenCode r
  if tok ≠ 0 then tok
  else if d.keyholeBars r ask idx sub then 0x0501
  else if !d.indexKnown idx then 0x0101
  else
    match d.objInfo idx sub with
    | none => 0x0102
    | some i =>
      let c := i.formCode (d.levelOf r) ask off data
      if c ≠ 0 then c else d.unserved (decide (ask = .write)) idx sub

def Dev.generalCode (d : Dev) (r : Req) (write : Bool) (idx sub off : Nat) (data : List Byte) : Nat :=
  d.askCode r (if write then .write else .read) idx sub off data

/-! ## Values -/

/-- A value a write carries, as a signed number where the type is signed. -/
def valueOf (ty : OTy) (v : Nat) : Int := if ty.signed then sx (8 * ty.bytes) v else (v : Int)

/-- An F32 pattern that is a number (R371). -/
def f32Finite (v : Nat) : Bool := bitsOf v 30 23 != 255

/-- Whether a value is one its type and its object permit (R9, R370, R371). -/
def rowAccepts (r : ObjRow) (v : Nat) (data : List Byte) : Bool :=
  let typed : Bool :=
    match r.ty with
    | .f32 => f32Finite v
    | .bf24 => bitsOf v 31 30 == 0
    | .str => utf8Ok data 0 0
    | _ => true
  typed && (r.legal.isEmpty || r.legal.any (fun p =>
    decide (p.1 ≤ valueOf r.ty v) && decide (valueOf r.ty v ≤ p.2.1)
      && (p.2.2 ≤ 1 || decide ((valueOf r.ty v - p.1) % (p.2.2 : Int) = 0))))

/-- A DOM range that lies within the object (R372). -/
def domRangeOk (size off n : Nat) : Bool := decide (off < size) && decide (off + n ≤ size)

/-- The outcome of an owner's part: an abort code, 0 for done, and the device. -/
abbrev WRes := Nat × Dev

/-- An owner's refusal. -/
def Dev.no (d : Dev) (code : Nat) : WRes := (code, d)
def Dev.yes (d : Dev) : WRes := (0, d)

/-- Writes a value into the place of an object, past every check: a STR keeps its length as its value. -/
def Dev.storeObj (d : Dev) (key idx sub off : Nat) (ty : OTy) (data : List Byte) : Dev :=
  match ty with
  | .dom => d.setDom (objKey 0 idx sub) off data
  | .str => (d.setDom (objKey 0 idx sub) 0 data).setObjVal key idx sub data.length
  | _ => d.setObjVal key idx sub (leNat data)

/-- Objects that the look-ahead parameter block publishes (R148). -/
def policyObj (idx sub : Nat) : Bool :=
  idx == 0x6001 || idx == 0x6002 || (idx == 0x6003 && decide (sub ≤ 2)) || (decide (0x6010 ≤ idx) && decide (idx ≤ 0x6013))
    || (idx == 0x6020 && decide (3 ≤ sub) && decide (sub ≤ 5))

/-- A write of such an object keeps what it held before this fabric cycle: a frame start of the cycle publishes that (R168). -/
def Dev.policyMark (d : Dev) (idx sub : Nat) : Dev :=
  let k := objKey 0 idx sub
  let now := cycleOf d.now
  let kept := d.frame.policyWas.filter (fun p => p.1 == now)
  if !policyObj idx sub || kept.any (fun p => p.2.1 == k) then d
  else { d with frame := { d.frame with policyWas := (now, k, d.ob k) :: kept } }

/-- The plain write of an object with no rule of its own: range, then the bar in Field (R9, R361, and the chapters' own lines). -/
def Dev.plainWrite (d : Dev) (key idx sub off : Nat) (data : List Byte) : WRes :=
  match objRow idx sub with
  | none => d.no 0x0102
  | some r =>
    if r.ty = .dom ∧ !domRangeOk r.size off data.length then d.no 0x0301
    else if !rowAccepts r (leNat data) data then d.no 0x0301
    else if r.noField && d.inField then d.no 0x0401
    else ((d.policyMark idx sub).storeObj key idx sub off r.ty data).yes

/-! ## The journal (R378, R379) -/

/-- Whether an accepted write is journalled: a persistent object of the device or of the image. -/
def Dev.persistent (d : Dev) (idx sub : Nat) : Bool :=
  match objRow idx sub with
  | some r => r.persistent
  | none => match d.fwObj idx sub with | some o => bitOf o.flags 0 | none => false

/-- The stored fail-safe states are held outside the journal (R279, R378). -/
def failsafeObj (idx : Nat) : Bool := idx == 0x4225 || idx == 0x4226 || idx == 0x4227

/-- An accepted write of the object is journalled. -/
def Dev.journalled (d : Dev) (idx sub : Nat) : Bool := d.persistent idx sub && !failsafeObj idx

/-- The CRC-32 of a journal entry: index, subindex, Offset and value (R379). -/
def entryCrc (idx sub off val : Nat) (bytes : List Byte) : Nat :=
  crc32 (leBytes idx 2 ++ leBytes sub 1 ++ leBytes off 4 ++ (if bytes.isEmpty then leBytes val 8 else bytes))

/-- Queues the journal entry of an accepted write; the response waits for its commit. -/
def Dev.journalWrite (d before : Dev) (r : Req) (idx sub off : Nat) (data : List Byte) : Dev :=
  let isDom : Bool :=
    match objRow idx sub with
    | some o => decide (o.ty = .dom) || decide (o.ty = .str)
    | none => false
  let n := if isDom then data.length else 0
  let j : Journal :=
    { req := r, idx := idx, sub := sub, off := off
      newVal := d.objVal 0 idx sub, oldVal := before.objVal 0 idx sub
      newBytes := if isDom then data else []
      oldBytes := if isDom then before.dom (objKey 0 idx sub) off n else []
      data := data
      crc := entryCrc idx sub off (d.objVal 0 idx sub) (if isDom then data else []) }
  { d with dict := { d.dict with journal := d.dict.journal ++ [j] } }

/-! ## Requests -/

/-- A client's request refreshes its staged values, its own beside those of its session, and its session (R376, R432). -/
def Dev.touch (d : Dev) (r : Req) : Dev :=
  let key := d.stageKey r
  let own := clientOf r
  let keys := if key != own && d.dict.lastAt.any (fun p => p.1 == own) then [key, own] else [key]
  { d with
    dict := { d.dict with lastAt := keys.map (fun k => (k, d.now)) ++ d.dict.lastAt.filter (fun p => !keys.contains p.1) }
    sec := { d.sec with sessions := d.sec.sessions.map (fun x =>
      if x.token == r.token && d.live x && x.of r && r.token != 0 then { x with lastAt := d.now } else x) } }

/-- Whether a staging key's values are still held: a session's while it is open, a client's own for 60 s after its last request (R376). -/
def Dev.stageHeld (d : Dev) (key at_ : Nat) : Bool :=
  if 2 ^ 60 ≤ key then d.sec.sessions.any (fun x => x.open_ && 2 ^ 60 + x.token == key) else decide (d.now < at_ + 60000000000)

/-- Staged values are discarded with their session, or 60 s after their client's last request (R376). -/
def Dev.expireStaged (d : Dev) : Dev :=
  let old := (d.dict.lastAt.filter (fun p => !d.stageHeld p.1 p.2)).map (fun p => p.1)
  { d with
    objs := SMap.keep (fun k => k / 0x1000000 == 0 || !old.contains (k / 0x1000000)) d.objs
    dict := { d.dict with lastAt := d.dict.lastAt.filter (fun p => !old.contains p.1) } }

/-- The kept response of a Tid of this client: one less than 2 s old, or one of a request that is still pending (R356, R364). -/
def Dev.keptFor (d : Dev) (r : Req) : Option Kept :=
  d.dict.kept.find? (fun k => k.client == clientOf r && k.tid == r.tid && (k.status == 2 || decide (d.now ≤ k.at_ + 2000000000)))

/-- The requests that the host side holds for the Transom: those without a lane, and those on their way (R345). -/
def Dev.requestsFull (d : Dev) : Bool :=
  decide (64 ≤ d.dict.crossing.length + (d.inFlight.filter (fun p => p.1 == trQueue 1 true)).length)

/-- A request for the field side that does not reach it now: no lane is up, or the queue is full. -/
def Dev.mustWait (d : Dev) (r : Req) (idx : Nat) : Bool := d.crosses r idx && (d.requestsFull || !d.anyLane)

/-- A request waits for a lane among at most 64; a further one is refused on the host side (R348). -/
def Dev.waitToCross (d : Dev) (r : Req) (op idx sub off : Nat) (data : List Byte) : Dev :=
  if d.requestsFull then (d.transomDrop 0 1 (Config.cause 0x7010 5)).refuseHere r op idx sub off 0x0601 data
  else
    let w : Waiting := { req := r, op := op, idx := idx, sub := sub, off := off, data := data, since := d.now }
    ({ d with dict := { d.dict with crossing := d.dict.crossing ++ [w] } } : Dev).holdRequest r op idx sub off data

/-- The device as the server begins on a request: one for the field side has crossed in a frame of kind 1 (R347), and its client has been
heard. -/
def Dev.letThrough (d : Dev) (r : Req) (op idx sub off : Nat) (data : List Byte) : Dev :=
  let crossed : Dev :=
    if d.crosses r idx then d.crossNow (d.hostMsg 1 0 0 (requestPdu r op idx sub off data)) ((d.laneFor 0).getD 0) else d
  crossed.expireStaged.touch r

/-- A request arrives. A repeated Tid gets its kept response, or 0x0302 for other content; a host die without power does not
answer (R356, R387). -/
def Dev.withRequest (d : Dev) (r : Req) (op idx sub off : Nat) (data : List Byte) (k : Dev → Dev) : Dev :=
  if !d.hostOn then d
  else
    match d.keptFor r with
    | some x =>
      if x.content = reqContent op idx sub off r.token data then d.sendHere r x.status x.code idx sub off x.more x.data
      else (d.incOb Obj.DictAborts).sendHere r 1 0x0302 idx sub off false []
    | none => if d.mustWait r idx then d.waitToCross r op idx sub off data else k (d.letThrough r op idx sub off data)

/-- A write request whose owner's part is `own`, which gets the device after the general checks. A persistent write during
compaction waits (R380). -/
def Dev.dictWriteWith (d : Dev) (r : Req) (idx sub off : Nat) (data : List Byte) (own : Dev → WRes) : Dev :=
  d.withRequest r 2 idx sub off data (fun d =>
    let code := d.generalCode r true idx sub off data
    if code ≠ 0 then d.answer r 2 idx sub off code data [] false
    else if d.journalled idx sub && d.dict.compacting then
      let w : Waiting := { req := r, op := 2, idx := idx, sub := sub, off := off, data := data, since := d.now }
      let d := { d with dict := { d.dict with deferred := d.dict.deferred ++ [w] } }
      d.answerPending r 2 idx sub off data
    else
      let res := own d
      if res.1 ≠ 0 then res.2.answer r 2 idx sub off res.1 data [] false
      else if d.journalled idx sub then
        (res.2.journalWrite d r idx sub off data).holdRequest r 2 idx sub off data
      else res.2.answer r 2 idx sub off 0 data [] false)

/-- A write request of an object with one value of `n` bytes. -/
def Dev.dictVal (d : Dev) (r : Req) (idx sub n v : Nat) (own : Dev → WRes) : Dev :=
  d.dictWriteWith r idx sub 0 (leBytes v n) own

/-- A read request whose owner's part gives the bytes, and whether more follow (R356, R372). -/
def Dev.dictReadWith (d : Dev) (r : Req) (idx sub off : Nat) (data : List Byte)
    (own : Dev → Nat × Dev × List Byte × Bool) : Dev :=
  d.withRequest r 1 idx sub off data (fun d =>
    let code := d.generalCode r false idx sub off data
    if code ≠ 0 then d.answer r 1 idx sub off code data [] false
    else
      let res := own d
      res.2.1.answer r 1 idx sub off res.1 data res.2.2.1 res.2.2.2)

end Sys2Proof.Machine
end

