-- ==== Sys2Proof/Machine/QueueOps.lean ====
section
/-! DEFINITION. The three commands of a shutter queue (R172 to R175, R179, R180) and the completion of executed actions by
measurement or by the end of their window (R182, R184, R480). -/
namespace Sys2Proof.Machine

/-! ## Metering of on-time (R480) -/

def Dev.acct (d : Dev) (k : Nat) : Acct := SMap.get (fun _ => Acct.reset) d.mtr.accts k
def Dev.setAcct (d : Dev) (k : Nat) (x : Acct) : Dev :=
  { d with mtr := { d.mtr with accts := SMap.set (fun _ => Acct.reset) d.mtr.accts k x } }

/-- The metering key of an AccountWord: account · 4 + layer (R119). -/
def acctKey (word : Nat) : Nat := bitsOf word 11 0 * 4 + bitsOf word 13 12

/-- UNMEASURED of an entry of R483. -/
def acctUnmeasured : Nat := 1

/-- The on-time of a period that an off ends, in µs (R480). -/
def Dev.meterOff (d : Dev) (word openAt closeAt : Nat) (measured : Bool) : Dev :=
  if openAt = 0 then d
  else
    let k := acctKey word
    let a := d.acct k
    d.setAcct k { a with
      onTime := (a.onTime + (closeAt - (openAt - 1)) / 1000) % 2 ^ 64
      flags := if measured then a.flags else a.flags ||| acctUnmeasured
      changed := true }

/-! ## Completion (R182, R184) -/

/-- A measured delay in 10 µs: nearest, halves upwards, 0 before FireFt, saturating at 0xFFFE (R182). -/
def meas10 (instant fireFt : Nat) : Nat := min 0xFFFE ((instant - fireFt + 5000) / 10000)

/-- The place of an ID's record now. -/
def Dev.placeOf (d : Dev) (a : Actuation) : Nat × Nat := (d.ownerOf a.id).getD (a.engine, a.slot)

/-- Takes an actuation out of those that wait. -/
def Dev.forgetAct (d : Dev) (a : Actuation) : Dev :=
  { d with shq := { d.shq with acts := d.shq.acts.filter (fun x => !(x == a)) } }

def unmeasuredDelay : Int := -2147483648

/-- The window of an actuation closes without a measurement: its event carries the commanded instant (R182, R184, R35). -/
def Dev.closeAct (d : Dev) (a : Actuation) : Dev :=
  let d := d.forgetAct a
  let d := d.incOb Obj.UnmeasuredActuations
  let w := eventWord a.id a.cls (kindOf a.action) false false false a.stale (decide (0 < a.late))
  let d := d.aaWrite a.engine w a.epoch a.account a.fireFt unmeasuredDelay a.level (late10 a.late)
  if a.action = 0 then d.meterOff a.account a.openAt a.fireFt false else d

/-- A measurement is accepted for an actuation: the record's fields in one cycle, then the event (R182, R184). -/
def Dev.acceptAct (d : Dev) (a : Actuation) (instant : Nat) (conf weak : Bool) : Dev :=
  let d := d.forgetAct a
  let d := d.incOb Obj.MeasuredActuations
  let (e, s) := d.placeOf a
  let m := meas10 instant a.fireFt
  let fl := d.recGet e s 65 1
  let d :=
    if a.opening then
      let d := d.recSet e s 60 2 m
      d.recSet e s 65 1 (putBits (putBits fl 0 0 (b2n conf)) 2 2 (b2n weak))
    else
      let d := d.recSet e s 62 2 m
      d.recSet e s 65 1 (putBits fl 1 1 (b2n conf))
  let d := d.recSet e s 68 4 (d.recGet e s 68 4 + 1)
  let d := d.measGen e s
  let d :=
    if a.cls = 0 then
      let model := d.recGet e s (if a.opening then 44 else 46) 2
      let x : Int := (m : Int) - model
      d.histFeed (if a.opening then 17 else 18) (-150) 10 x x
    else d
  let w := eventWord a.id a.cls (kindOf a.action) true conf weak a.stale (decide (0 < a.late))
  let delay : Int := (instant : Int) - a.fireFt
  let d := d.aaWrite a.engine w a.epoch a.account a.fireFt delay a.level (late10 a.late)
  if a.action = 0 then d.meterOff a.account a.openAt instant a.openMeas
  else if a.opening then
    let on := SMap.get (fun _ => 0) d.shq.onSince a.id
    if on ≠ a.fireFt + 1 then d
    else
      { d with shq := { d.shq with
          onSince := SMap.set (fun _ => 0) d.shq.onSince a.id (instant + 1)
          onMeas := SMap.set (fun _ => false) d.shq.onMeas a.id true } }
  else d

/-- The measuring window, ns (R182). -/
def measureWindow : Nat := 1000000000

/-- The actuation that a measurement arriving now belongs to: the endpoint's last executed action, where it waits, may be measured, and
fired no more than 1,000 ms ago; a report of a node names it by its handle (R180, R182). -/
def Dev.awaited (d : Dev) (id : Nat) (opening : Bool) (handle : Option Nat) : Option Actuation :=
  d.shq.acts.find? (fun a => a.id == id && a.opening == opening && a.measurable && decide (d.now ≤ a.fireFt + measureWindow)
    && (handle.isNone || handle == some a.handle))

/-- Whether a report repeats one for the endpoint's last executed action, whose window is open: such a report is not late, and there is
nothing left to measure by it. One that names another action by its handle is none (R182). -/
def Dev.measuredAgain (d : Dev) (id e s last : Nat) (opening : Bool) : Bool :=
  bitOf (d.recGet e s 88 1) 0 == opening && decide (d.now ≤ last + measureWindow)
    && !d.shq.acts.any (fun a => a.id == id && a.opening == opening && a.measurable)

/-- A measured instant arrives for an endpoint; one that arrives after the endpoint's next executed action, or after the window, is late
(R182). -/
def Dev.measure (d : Dev) (id instant : Nat) (opening conf weak : Bool) (handle : Option Nat) : Dev :=
  match d.awaited id opening handle with
  | some a => d.acceptAct a instant conf weak
  | none =>
    let (e, s) := (d.ownerOf id).getD (id / 256 % 1024, id % 256)
    let last := if opening then d.recGet e s 72 8 else d.recGet e s 80 8
    if d.measuredAgain id e s last opening then d
    else (d.incOb Obj.LateReportCount).event (dieOf e) 0x3025 [.w id, .w ((instant - last) / 1000000)]

/-! ## SHQ_RESULT (R194) -/

def qResult (code handle : Nat) (stale late displaced : Bool) : Word :=
  wd (2 ^ 31 + b2n stale * 2 ^ 30 + b2n late * 2 ^ 29 + b2n displaced * 2 ^ 28 + code * 2 ^ 20 + handle)

def Dev.qRefuse (d : Dev) (e code : Nat) : Dev := d.wrM e Reg.SHQ_RESULT (qResult code 0 false false false)

/-- CODE 9 (R179). -/
def Dev.qFull (d : Dev) (e : Nat) : Dev := (d.incOb Obj.QueueFullCount).qRefuse e 9

/-! ## A new write (R172 to R174, R179) -/

/-- 0x3020 at most once per second, with the number missed since (R174). -/
def Dev.reportMissed (d : Dev) (e id late : Nat) : Dev :=
  let n := d.shq.missedSince + 1
  let d := { d with shq := { d.shq with missedSince := n } }
  let before := d.rcd.staged.length
  let d := d.eventEvery 1000000000 (dieOf e) 0x3020 0 [.w id, .w (late / 1000000), .w n]
  if before < d.rcd.staged.length then { d with shq := { d.shq with missedSince := 0 } } else d

/-- An on or level later than LateWindow is discarded as MISSED (R174). -/
def Dev.missed (d : Dev) (e s epoch level reqFt late : Nat) : Dev :=
  let id := d.epIdOf e s
  let d := d.recCount e s 90
  let d := d.incOb Obj.MissedOnCount
  let w := eventWord id (d.epClass e s) kindMissed false false false false true
  let d := d.aaWrite e w epoch (d.epAccount e s) reqFt unmeasuredDelay level (late10 late)
  d.reportMissed e id late

/-- The entry that a full queue gives up for an off: the pending, uncommitted on or level with the latest FireFt, the one accepted
last among several (R179). -/
def displaceable (q : List QEntry) : Option QEntry :=
  q.foldl (fun best x =>
    if x.action = 0 || x.committed then best
    else
      match best with
      | none => some x
      | some b => if b.fireFt ≤ x.fireFt then some x else some b) none

/-- An entry gives way to an off (R179). -/
def Dev.displace (d : Dev) (q : QEntry) : Dev :=
  let d := d.uncommand q
  let (e, s) := d.qPlace q
  let d := d.countDrop e s
  let d := d.incOb Obj.QueueDisplacedCount
  let d := d.dropEvent q 6
  d.takeEntries q.engine (fun x => x.handle == q.handle)

/-- A late off is counted (R174, R476). -/
def Dev.countLateOff (d : Dev) (late : Nat) : Dev :=
  let d := d.incOb Obj.LateOffCount
  let d := d.setOb Obj.LateOffMax (max (d.ob Obj.LateOffMax) (min 0xFFFFFFFF (late / 1000)))
  d.histFeed 19 1 100 (late / 10000) (late / 10000)

/-- Check 11 of R172: the entry is written, its schedule sent where the class is N, and the result reported. `old` is the entry that
a replacement frees. No node hears of an on while the package applies no product (R33). -/
def Dev.qAccept (d : Dev) (e s action epoch level reqFt fire : Nat) (stale displaced : Bool) (old : Option QEntry) : Dev :=
  let d := match old with
    | some o => d.takeEntries e (fun x => x.handle == o.handle)
    | none => d
  let i := match old with
    | some o => o.index
    | none => freeIndex (d.liveQueue e) 1024 0
  let (d, g) := d.takeGen e i
  let cls := d.epClass e s
  let late := fire - reqFt
  let lead := d.ob Obj.NodeLead * 1000000
  let q : QEntry :=
    { engine := e, index := i, gen := g, fireFt := fire, slot := s, id := d.epIdOf e s, action := action, epoch := epoch
      level := if action = 0 then 0 else level, late := late, stale := stale
      committed := decide (cls = 3 ∧ fire ≤ d.now + lead), sent := false, undeliv := false }
  let d := d.setQueue (d.shq.queue ++ [q])
  let d := if stale then d.staleSeen e s epoch else d
  let d := if action = 0 ∧ 0 < late then d.countLateOff late else d
  let out := d.epOut e s
  let tellNone := action != 0 && d.ib.dupNumber
  let d := match old with
    | some o =>
      let same := decide (d.qClass o = 3) && decide (cls = 3) && decide (d.qOut o / 64 = out / 64)
      let d := if same ∧ !tellNone then d else d.cancelIfNode o
      if cls = 3 ∧ !tellNone then d.nodeSchedule out q.id e q.handle (if same then o.handle else 0xFFFF) action epoch q.level fire else d
    | none => if cls = 3 ∧ !tellNone then d.nodeSchedule out q.id e q.handle 0xFFFF action epoch q.level fire else d
  let d := d.fixOnPending e s
  let d := d.fixQueueStatus e
  let d := d.wr64M e Reg.SHQ_FIRE_LO fire
  d.wrM e Reg.SHQ_RESULT (qResult (if late = 0 then 0 else 1) q.handle stale (decide (0 < late)) displaced)

/-- A committed entry: at the start `F` of the running frame its FireFt lay before F + 2 × FrameLength, or, for class N, its FireFt is
no more than NodeLead away (R175). -/
def Dev.committed (d : Dev) (q : QEntry) : Bool :=
  let (f, l) := d.frameNow
  q.committed || (d.fabricOn && (decide (q.fireFt < f + 2 * l)
    || (d.qClass q == 3 && decide (q.fireFt ≤ d.now + d.ob Obj.NodeLead * 1000000))))

/-- Check 10 of R172 and what follows it: room under R179; an entry that fires in this cycle has freed its place (R193). -/
def Dev.qRoom (d : Dev) (e s action epoch level reqFt fire : Nat) (stale : Bool) (old : Option QEntry) : Dev :=
  let free := 1024 - (d.liveQueue e).length + b2n old.isSome
  if action ≠ 0 then
    if free ≤ d.ob Obj.QueueOffReserve then d.qFull e
    else d.qAccept e s action epoch level reqFt fire stale false old
  else if 0 < free then d.qAccept e s action epoch level reqFt fire stale false old
  else
    match displaceable ((d.liveQueue e).filter (fun q => !d.committed q)) with
    | none => d.qFull e
    | some v => (d.displace v).qAccept e s action epoch level reqFt fire stale true old

/-- The ordered checks of R172 on a write for slot `s` of engine `e`. -/
def Dev.qWrite (d : Dev) (e s action epoch level reqFt : Nat) (old : Option QEntry) : Dev :=
  let on := action != 0
  let cls := d.epClass e s
  if d.epState e s = epFree then d.freeze e 3 s (d.engine e).pc
  else if action = 3 || (on && level == 0) then (d.reject e Reg.SHQ_ARG).qRefuse e 10
  else if reqFt % resolution cls ≠ 0 then d.qRefuse e 7
  else if d.now + 10000000000 < reqFt then d.qRefuse e 8
  else if on && !epochMatches (d.epEpoch e s) epoch then (d.staleSeen e s epoch).qRefuse e 3
  else if on && d.epState e s != epEnabled then d.qRefuse e 4
  else if on && !d.headerOk e s then (d.faultHeader e s).qRefuse e 5
  else if on && d.epPending e s &&
      (match d.remapOf (d.epIdOf e s) with | some r => decide (r.switchAt ≤ reqFt) | none => false) then d.qRefuse e 6
  else
    let fire := max reqFt (d.earliest cls)
    let late := fire - reqFt
    if on && decide (d.epLateWindow e s * 1000000 < late) then
      (d.missed e s epoch level reqFt late).qRefuse e 2
    else d.qRoom e s action epoch level reqFt fire (decide (epoch ≠ d.epEpoch e s)) old

/-- OP 1 with the staged registers (R172). -/
def Dev.shqQueue (d : Dev) (e : Nat) (old : Option QEntry) : Dev :=
  let arg := d.rdM e Reg.SHQ_ARG
  d.qWrite e (fld arg 15 8) (fld arg 1 0) (d.fM e Reg.SHQ_EPOCH 15 0) (fld arg 31 16) (d.rd64M e Reg.SHQ_FT_LO) old

/-- The pending entry that SHQ_HANDLE names: one that fires in this cycle is none (R193). -/
def Dev.namedEntry (d : Dev) (e : Nat) : Option QEntry :=
  let h := d.fM e Reg.SHQ_HANDLE 15 0
  (d.liveQueue e).find? (fun q => q.handle == h)

/-- OP 2 (R175). -/
def Dev.shqWithdraw (d : Dev) (e : Nat) : Dev :=
  match d.namedEntry e with
  | none => d.qRefuse e 11
  | some q =>
    if d.committed q then d.qRefuse e 12
    else ((d.uncommand q).removeEntries e (fun x => x.handle == q.handle)).qRefuse e 0

/-- OP 3 (R175). -/
def Dev.shqReplace (d : Dev) (e : Nat) : Dev :=
  match d.namedEntry e with
  | none => d.qRefuse e 11
  | some q => if d.committed q then d.qRefuse e 12 else d.shqQueue e (some q)

/-- SHQ_CMD (R194). -/
def Dev.shqCmd (d : Dev) (e op : Nat) : Dev :=
  if op = 1 then d.shqQueue e none
  else if op = 2 then d.shqWithdraw e
  else if op = 3 then d.shqReplace e
  else d

/-- AA_RD moves forward within what has been written (R185). -/
def Dev.aaRead (d : Dev) (e v : Nat) : Dev :=
  let rd := (d.rdM e Reg.AA_RD).toNat
  let wr := (d.rdM e Reg.AA_WR).toNat
  if (v + 2 ^ 32 - rd) % 2 ^ 32 ≤ (wr + 2 ^ 32 - rd) % 2 ^ 32 then d.wrM e Reg.AA_RD (wd v)
  else d.setBitM e Reg.SHQ_STATUS 31 true

end Sys2Proof.Machine
end

