-- ==== Sys2Proof/Machine/EndpointOps.lean ====
section
/-! DEFINITION. The ownership unit: binding, states, remaps, ranges and held writes (R117 to R144). Each operation answers an
abort code of R360, 0 for done, with the device it leaves. -/
namespace Sys2Proof.Machine

/-! ## Outputs (R117, R118, R223) -/

/-- Whether an output address lies in its class's range (R117). -/
def outInRange (cls out : Nat) : Bool :=
  match cls with
  | 0 => decide (out < 64)
  | 1 => decide (out < 24)
  | 2 => decide (out < 32)
  | 3 => decide (out < 16384)
  | 4 => decide (out < 262144)
  | _ => false

/-- The channel that a route code names on a die: class and output index (LV_ROUTE of R239). -/
def routeTarget (die code : Nat) : Option (Nat × Nat) :=
  if 1 ≤ code ∧ code ≤ 12 then some (1, 12 * die + code - 1)
  else if 16 ≤ code ∧ code ≤ 31 then some (2, 16 * die + code - 16)
  else none

/-- The route code of output `k` of a module: A0, B0, A1, B1. -/
def Dev.routeCode (d : Dev) (n k : Nat) : Nat := bitsOf (d.rd (Reg.LV_ROUTE n)).toNat (8 * k + 4) (8 * k)

/-- The module and output that a channel is routed to (R223). -/
def Dev.routedBy (d : Dev) (cls out : Nat) : Option (Nat × Nat) :=
  ((List.range 16).flatMap (fun n => (List.range 4).map (fun k => (n, k)))).find?
    (fun p => routeTarget (p.1 / 8) (d.routeCode p.1 p.2) == some (cls, out))

/-- MODE of a digital channel (R273). -/
def Dev.dioMode (d : Dev) (c : Nat) : Nat := d.f (Reg.DIO_CTRL c) 31 30

/-- Whether an output exists now and may be bound (R117, R118, R223, R300). -/
def Dev.outPresent (d : Dev) (cls out : Nat) : Bool :=
  (d.routedBy cls out).isNone &&
  (match cls with
  | 2 => !(d.dioMode out == 1 || d.dioMode out == 3)
  | 4 =>
    let t := d.tile (out / 16384) (out / 1024 % 16)
    t.present && !t.lost && decide (out / 1024 % 16 < d.f (Reg.SL_STATUS (out / 16384)) 12 8) && decide (out % 1024 < t.dots)
  | _ => true)

/-! ## What forces outputs (R265) -/

/-- STATE of a die's watchdog: 0 DISARMED, 1 ARMED, 2 EXPIRED (R277). -/
def Dev.wdgState (d : Dev) (i : Nat) : Nat := d.f (Reg.WDG_STATUS i) 1 0
def Dev.wdgHold (d : Dev) (i : Nat) : Bool := d.bit (Reg.WDG_CTRL i) 31

/-- The die's outputs are at their stored fail-safe states: DISARMED, or EXPIRED without hold (R265). -/
def Dev.forcing (d : Dev) (i : Nat) : Bool := d.wdgState i == 0 || (d.wdgState i == 2 && !d.wdgHold i)

/-! ## Placement (R127) -/

def Dev.slotFree (d : Dev) (e s : Nat) : Bool :=
  d.epState e s == epFree && !(d.own.remaps.any (fun r => r.engine == e && r.slot == s))

/-- The lowest slot that passes, searched from slot `i` over `n` slots. -/
def slotBy (p : Nat → Bool) : Nat → Nat → Option Nat
  | 0, _ => none
  | n + 1, i => if p i then some i else slotBy p n (i + 1)

/-- The lowest free slot of an engine, searched from slot `i` over `n` slots. -/
def Dev.freeSlot (d : Dev) (e n i : Nat) : Option Nat := slotBy (d.slotFree e) n i

/-- The endpoints bound in this fabric cycle. -/
def Dev.boundNow (d : Dev) : List Nat := (d.own.boundNow.filter (fun p => p.1 == cycleOf d.now)).map (·.2)

/-- A slot that a remap may take: a free one, or one that a bind of this very cycle took (R143). -/
def Dev.slotOpen (d : Dev) (e s : Nat) : Bool :=
  d.slotFree e s || (d.epState e s != epFree && d.boundNow.contains (d.epIdOf e s))

/-! ## Counts (R144) -/

def Dev.boundCount (d : Dev) (cls : Nat) (up : Bool) : Dev :=
  let k := Obj.BoundS + cls
  let d := d.setOb k (if up then d.ob k + 1 else d.ob k - 1)
  let d := d.setOb Obj.EndpointsBound (if up then d.ob Obj.EndpointsBound + 1 else d.ob Obj.EndpointsBound - 1)
  d.setOb Obj.EndpointsFree (262144 - d.ob Obj.EndpointsBound)

/-! ## Bind and unbind (R125, R127) -/

/-- Puts an endpoint into a slot. `fields` are bytes 16 to 59 before the model fields. -/
def Dev.placeRecord (d : Dev) (e s id cls out late account st : Nat) (fields : List Byte) : Dev :=
  let d := d.setBytes (recAddr e s) (List.replicate 128 0)
  let d := d.setBytes (recAddr e s + 16) fields
  let d := d.recSet e s 0 4 (st * 2 ^ 30 + cls * 2 ^ 20 + id)
  let d := d.recSet e s 4 4 out
  let d := d.recSet e s 8 2 (d.ob Obj.StartEpoch)
  let d := d.recSet e s 10 2 late
  let d := d.recSet e s 12 2 account
  let d := d.recSet e s 44 2 (d.recGet e s 40 2)
  let d := d.recSet e s 46 2 (d.recGet e s 42 2)
  let d := d.recSet e s 48 2 (d.recGet e s 40 2 / 8)
  let d := d.recSet e s 50 2 (d.recGet e s 42 2 / 8)
  let d := d.recSet e s 58 1 0
  let d := d.recSet e s 59 1 3
  let d := d.recSet e s 60 4 0xFFFFFFFF
  d.rewriteHeader e s

/-- The node of a class N output becomes one that this package controls; its first bind sends node configure (R331). -/
def Dev.nodeBound (d : Dev) (out : Nat) : Dev :=
  let bus := bitsOf out 13 12
  let node := bitsOf out 11 6
  if d.ib.nodes.any (fun n => n.port == bus && n.node == node) then d
  else
    let n : IbNode :=
      { port := bus, node := node, heardAt := d.now, heard := false, drift := 0, flags := 0, before := 0, intrusions := []
        removedAt := 0, removed := false, adopt := [], configAt := d.now, sleepOk := false }
    let d := { d with ib := { d.ib with nodes := d.ib.nodes ++ [n] } }
    ((d.objTake bus true node).setNodeState bus node 1).nodeConfigure bus node

/-- After an unbind: no epoch is awaited for the endpoint any longer (R140); a node without a bound endpoint is no longer controlled, and
its receive object is free (R331, R334). -/
def Dev.nodeUnbound (d : Dev) (out : Nat) : Dev :=
  let bus := bitsOf out 13 12
  let node := bitsOf out 11 6
  if (List.range 64).any (fun ep => (d.boundTo 3 (out / 64 * 64 + ep)).isSome) then
    d.withNode bus node (fun (n : IbNode) => { n with adopt := n.adopt.filter (fun a => a.1 != bitsOf out 5 0) })
  else
    let d : Dev := { d with ib := { d.ib with
      nodes := d.ib.nodes.filter (fun n => !(n.port == bus && n.node == node))
      offs := d.ib.offs.filter (fun o => !(o.out / 64 == out / 64)) } }
    (d.objDrop bus true node).setNodeState bus node 0

/-- What R265 asks of a 24 V output is `on` from now: a change ends OUT_LOW and OUT_HIGH, and their 1 ms starts anew (R276). -/
def Dev.dioAskedNow (d : Dev) (n : Nat) (on : Bool) : Dev :=
  let x := SMap.get (fun _ => DioAsk.reset) d.dioAsk n
  if x.on = on then d
  else
    let d : Dev := { d with dioAsk := SMap.set (fun _ => DioAsk.reset) d.dioAsk n { on := on, since := d.now } }
    (d.setBit (Reg.DIO_STATUS n) 16 false).setBit (Reg.DIO_STATUS n) 15 false

/-- A channel whose command source changes asks for nothing until its new source commands it (DESIGN CHOICE: R265 names the source, not
the state that it starts from). Where it is not forced, an on ends with the flags that tell of it (R271, R276). -/
def Dev.sourceNew (d : Dev) (cls out : Nat) : Dev :=
  if cls = 0 then { d with sol := SMap.set (fun _ => SolChan.reset) d.sol out { SMap.get (fun _ => SolChan.reset) d.sol out with want := 0 } }
  else if cls = 1 then
    let c := SMap.get (fun _ => LsChan.reset) d.ls out
    let ends := !d.forcing (out / 12)
    let c := { c with level := 0, cond := if ends && c.cond == 1 then 0 else c.cond }
    let d : Dev := { d with ls := SMap.set (fun _ => LsChan.reset) d.ls out c }
    if ends then d.setBit (Reg.LS_STATUS out) 19 false else d
  else if cls = 2 then
    let d : Dev := { d with dioOn := SMap.set (fun _ => false) d.dioOn out false }
    if d.forcing (out / 16) then d else d.dioAskedNow out false
  else d

/-- A bind (R125, R127). -/
def Dev.bind (d : Dev) (id cls out late account st : Nat) (fields : List Byte) : WRes :=
  let e := id / 256
  if !outInRange cls out || decide (262144 ≤ id) then d.no 0x0301
  else if (d.boundTo cls out).isSome || !d.outPresent cls out then d.no 0x0401
  else if (d.ownerOf id).isSome then d.no 0x0401
  else if !d.clusterOn (clusterOf e) then d.no 0x0401
  else
    let slot := if d.slotFree e (id % 256) then some (id % 256) else d.freeSlot e 256 0
    match slot with
    | none => ((d.event (dieOf e) 0x3008 [.w id, .h e]).reach 5).no 0x0701
    | some s =>
      let d := d.placeRecord e s id cls out late account st fields
      let d := { d with own := { d.own with
        map := SMap.set (fun _ => 0) d.own.map id (e * 256 + s + 1)
        binding := SMap.set (fun _ => 0) d.own.binding (outKey cls out) (id + 1)
        boundNow := (cycleOf d.now, id) :: d.own.boundNow.filter (fun p => p.1 == cycleOf d.now) } }
      let d := d.boundCount cls true
      let d := if cls = 3 then d.nodeBound out else d.sourceNew cls out
      (d.event 1 0x3001 [.w id, .h cls, .w out]).yes

/-- An endpoint leaves its slot; held writes for it are dropped (R124, R125). -/
def Dev.unbindAt (d : Dev) (id e s : Nat) : Dev :=
  let cls := d.epClass e s
  let out := d.epOut e s
  let d := d.setBytes (recAddr e s) (List.replicate 128 0)
  let d := { d with own := { d.own with
    map := SMap.set (fun _ => 0) d.own.map id 0
    binding := SMap.set (fun _ => 0) d.own.binding (outKey cls out) 0
    held := d.own.held.filter (fun h => h.id != id)
    accounts := d.own.accounts.filter (fun p => p.1 != id)
    remaps := d.own.remaps.filter (fun r => r.id != id) } }
  let d := d.boundCount cls false
  let d := d.event 1 0x3001 [.w id, .h cls, .w out]
  let d := if cls = 3 then d.nodeUnbound out else d.sourceNew cls out
  d.fixKickBlock

/-- EpCommand 2 (R125). -/
def Dev.unbind (d : Dev) (id : Nat) : WRes :=
  match d.ownerOf id with
  | none => d.no 0x0401
  | some (e, s) =>
    if d.epState e s ≠ epDisabled then d.no 0x0401
    else if (d.queueOf e).any (fun q => q.slot == s) then d.no 0x0401
    else if d.epPending e s then d.no 0x0601
    else (d.unbindAt id e s).yes

/-- Enable or disable (R125, R126). -/
def Dev.setEnabled (d : Dev) (id : Nat) (on : Bool) : WRes :=
  match d.ownerOf id with
  | none => d.no 0x0401
  | some (e, s) =>
    let st := d.epState e s
    if st ≠ epDisabled ∧ st ≠ epEnabled then d.no 0x0401
    else if d.epPending e s then d.no 0x0601
    else (d.setEpState e s (if on then epEnabled else epDisabled)).yes

/-- EpCommand 5: applies from the next frame start (R128). -/
def Dev.setAccount (d : Dev) (id word : Nat) : WRes :=
  match d.ownerOf id with
  | none => d.no 0x0401
  | some _ =>
    let l := (id, word) :: d.own.accounts.filter (fun p => p.1 != id)
    Dev.yes { d with own := { d.own with accounts := l } }

/-- EpCommand 6 and OWN_CMD op 4 (R128). -/
def Dev.setLate (d : Dev) (id ms : Nat) : WRes :=
  if 1000 < ms then d.no 0x0301
  else
    match d.ownerOf id with
    | none => d.no 0x0401
    | some (e, s) => ((d.recSet e s 10 2 ms).rewriteHeader e s).yes

/-- EpCommand 7 (R125). -/
def Dev.clearFault (d : Dev) (id : Nat) : WRes :=
  match d.ownerOf id with
  | none => d.no 0x0401
  | some (e, s) => if d.epState e s = epFaulted then (d.setEpState e s epDisabled).yes else d.no 0x0401

/-! ## Remaps (R133 to R136, R143) -/

/-- Whether the epoch guard refuses (R141): none is applied to a FREE ID. -/
def Dev.guardFails (d : Dev) (id : Nat) : Bool :=
  let g := d.ob Obj.EpGuardEpoch
  match d.ownerOf id with
  | none => false
  | some (e, s) => bitOf g 16 && !epochMatches (d.epEpoch e s) g

/-- The switch instant that a request names; none where R134 finds none in range. -/
def Dev.switchInstant (d : Dev) (at_ : Nat) : Option Nat :=
  if at_ = 0 then some d.e2
  else
    let f := d.frameAtOrAfter at_
    if f < d.e2 ∨ d.now + 10000000000 < f then none else some f

/-- The endpoint bound in this cycle gives its slot up to a remap: it takes the next free one, or is not bound after all (R143). -/
def Dev.giveWay (d : Dev) (e s : Nat) : Dev :=
  if d.slotFree e s then d
  else
    let id := d.epIdOf e s
    match slotBy (fun x => x != s && d.slotFree e x) 256 0 with
    | none => (d.unbindAt id e s).event (dieOf e) 0x3008 [.w id, .h e]
    | some x =>
      let img := d.bytes (recAddr e s) 128
      let d := (d.setBytes (recAddr e s) (List.replicate 128 0)).setBytes (recAddr e x) img
      { d with own := { d.own with map := SMap.set (fun _ => 0) d.own.map id (e * 256 + x + 1) } }

/-- RemapState of a session is that of its own last request (R144). -/
def Dev.setRemapState (d : Dev) (r : Remap) (v : Nat) : Dev :=
  if SMap.get (fun _ => 0) d.own.asked r.client = r.id + 1 then d.setObC r.client Obj.RemapState v else d

/-- A remap request after the check of the requester (R133). `slot` none asks for any slot. -/
def Dev.remapRequest (d : Dev) (client id target : Nat) (slot : Option Nat) (at_ : Nat) (guard : Bool) : WRes :=
  if guard && d.guardFails id then d.no 0x0801
  else if decide (engines ≤ target) || decide (256 ≤ slot.getD 0) then d.no 0x0301
  else
    match d.switchInstant at_ with
    | none => d.no 0x0301
    | some f =>
      match (if d.frozen 0x415 then none else d.ownerOf id) with
      | none => d.no 0x0401
      | some (e, s) =>
        if d.epPending e s then d.no 0x0601
        else if !d.clusterOn (clusterOf target) || d.frozen target then d.no 0x0401
        else if (match slot with | some x => !d.slotOpen target x | none => false) then d.no 0x0401
        else
          match (match slot with | some x => some x | none => slotBy (d.slotOpen target) 256 0) with
          | none => d.no 0x0701
          | some x =>
            let r : Remap :=
              { id := id, srcEngine := e, srcSlot := s, engine := target, slot := x, switchAt := f, client := client }
            let d := d.giveWay target x
            let d := d.recSet e s 0 4 (putBits (d.recGet e s 0 4) 29 29 1)
            let d := d.rewriteHeader e s
            let d := { d with own := { d.own with
              remaps := d.own.remaps ++ [r], asked := SMap.set (fun _ => 0) d.own.asked client (id + 1) } }
            let d := d.setObC client Obj.RemapState 1
            let d := d.setObC client Obj.RemapSwitchFt f
            (d.setObC client Obj.RemapNewSlot x).yes

/-- Clears REMAP_PENDING and frees the reserved slot. -/
def Dev.remapDrop (d : Dev) (r : Remap) : Dev :=
  let d := d.recSet r.srcEngine r.srcSlot 0 4 (putBits (d.recGet r.srcEngine r.srcSlot 0 4) 29 29 0)
  let d := d.rewriteHeader r.srcEngine r.srcSlot
  { d with own := { d.own with remaps := d.own.remaps.filter (fun x => x.id != r.id) } }

/-- A withdrawal, until the switch: in the switch's own cycle the switch stands (R136, R143). -/
def Dev.remapWithdraw (d : Dev) (id : Nat) (guard : Bool) : WRes :=
  if guard && d.guardFails id then d.no 0x0801
  else
    match d.remapOf id with
    | none => d.no 0x0401
    | some r =>
      if cycleOf r.switchAt ≤ cycleOf d.now || d.frozen 0x415 then d.no 0x0401
      else
      let d := (d.remapDrop r).setRemapState r 4
      (d.event 1 0x3004 [.w id, .h 1]).yes

/-- A remap whose target is frozen or halted is abandoned at its switch (R143). -/
def Dev.remapAbandon (d : Dev) (r : Remap) (cause : Nat) : Dev :=
  let d := (d.remapDrop r).setRemapState r 3
  d.event 1 0x3004 [.w r.id, .h cause]

/-- On and level entries of a switched endpoint at or after the switch are discarded (R135). -/
def Dev.remapDiscard (d : Dev) (q : QEntry) (e s : Nat) : Dev :=
  let d := d.uncommand q
  let d := d.countDrop e s
  let d := d.incOb Obj.RemapDropCount
  let d := d.dropEvent q 8
  d.removeEntries q.engine (fun x => x.handle == q.handle)

/-- The record moves to the target slot under the next epoch, and the map follows (R134). -/
def Dev.remapMove (d : Dev) (r : Remap) (ep : Nat) : Dev :=
  let img := d.bytes (recAddr r.srcEngine r.srcSlot) 128
  let d := d.setBytes (recAddr r.srcEngine r.srcSlot) (List.replicate 128 0)
  let d := d.setBytes (recAddr r.engine r.slot) img
  let d := d.recSet r.engine r.slot 8 2 ep
  let d := d.recSet r.engine r.slot 0 4 (putBits (d.recGet r.engine r.slot 0 4) 29 29 0)
  let d := d.rewriteHeader r.engine r.slot
  { d with own := { d.own with
    map := SMap.set (fun _ => 0) d.own.map r.id (r.engine * 256 + r.slot + 1)
    remaps := d.own.remaps.filter (fun x => x.id != r.id) } }

/-- What a switch tells others (R134, R138, R140, R405). -/
def Dev.remapTell (d : Dev) (r : Remap) (ep : Nat) : Dev :=
  let start := d.ob Obj.StartEpoch
  let d := if ep = (start + 0x4000) % 65536 then d.event 1 0x3009 [.w r.id, .h ep] else d
  let d := if d.epClass r.engine r.slot = 3 then d.nodeEpochSet (d.epOut r.engine r.slot) ep else d
  let d := d.setBitM r.srcEngine Reg.IRQ_PEND 13 true
  (d.setBitM r.engine Reg.IRQ_PEND 13 true).fixKickBlock

/-- The switch itself (R134, R135). -/
def Dev.remapSwitch (d : Dev) (r : Remap) : Dev :=
  if d.frozen r.engine then d.remapAbandon r 2
  else if d.halted (clusterOf r.engine) then d.remapAbandon r 3
  else
    let gone := (d.queueOf r.srcEngine).filter (fun q => q.slot == r.srcSlot && q.id == r.id && q.action != 0)
    let ep := (d.epEpoch r.srcEngine r.srcSlot + 1) % 65536
    let d := d.remapMove r ep
    let d := d.incOb Obj.RemapCount
    let d := d.setRemapState r 2
    let d := d.event 1 0x3003 [.w r.id, .h r.srcEngine, .h r.engine, .h ep]
    let d := gone.foldl (fun d q => d.remapDiscard q r.engine r.slot) d
    let d := d.fixOnPending r.engine r.slot
    let d := if gone.isEmpty then d else d.event 1 0x3006 [.w r.id, .w gone.length]
    d.remapTell r ep

/-- Every remap whose switch instant has come, in the order of acceptance; a frozen ownership unit makes none (R423). -/
def Dev.remapSwitches (d : Dev) : Dev :=
  if d.frozen 0x415 then d else
  (d.own.remaps.filter (fun r => decide (r.switchAt ≤ d.now))).foldl Dev.remapSwitch d

/-! ## Held writes and accounts at a frame start (R124, R128) -/

def Dev.applyHeld (d : Dev) : Dev :=
  let d := d.own.held.reverse.foldl (fun d h =>
    match d.ownerOf h.id with
    | some (e, s) => d.setBytes (recAddr e s + h.off) h.data
    | none => d) d
  { d with own := { d.own with held := [] } }

def Dev.applyAccounts (d : Dev) : Dev :=
  let d := d.own.accounts.foldl (fun d p =>
    match d.ownerOf p.1 with
    | some (e, s) => (d.recSet e s 12 2 p.2).rewriteHeader e s
    | none => d) d
  { d with own := { d.own with accounts := [] } }

/-- Cuts a byte range into the parts that lie in one record: ID, offset in it, bytes. -/
def cutRecords : Nat → Nat → List Byte → List (Nat × Nat × List Byte)
  | 0, _, _ => []
  | n + 1, off, bs =>
    if bs.isEmpty then []
    else
      let room := 128 - off % 128
      (off / 128, off % 128, bs.take room) :: cutRecords n (off + room) (bs.drop room)

/-- The fields of bytes 16 to 59 that R119 gives a range: place, width and the values it admits. -/
def configRanges : List (Nat × Nat × (Nat → Bool)) :=
  [(16, 1, fun v => decide (v % 128 < 4)), (18, 2, fun v => decide (v = 0)), (36, 2, fun v => decide (v ≤ 1000)),
    (38, 2, fun v => decide (v ≤ 1000)), (58, 1, fun v => decide (v < 8))]

/-- Bytes over others, from `off` on. -/
def overlay (b : List Byte) (off : Nat) (new : List Byte) : List Byte := b.take off ++ new ++ b.drop (off + new.length)

/-- The record of an ID with the writes held for it. -/
def Dev.recordSoon (d : Dev) (id e s : Nat) : List Byte :=
  (d.own.held.reverse.filter (fun h => h.id == id)).foldl (fun (b : List Byte) h => overlay b h.off h.data) (d.bytes (recAddr e s) 128)

/-- Whether every field that a part of a write touches is in its range (R119, R9); a FREE record reads 0. -/
def Dev.configPartOk (d : Dev) (p : Nat × Nat × List Byte) : Bool :=
    let was := match d.ownerOf p.1 with
      | some (e, s) => d.recordSoon p.1 e s
      | none => List.replicate 128 0
    let b := overlay was p.2.1 p.2.2
    configRanges.all (fun f => decide (f.1 + f.2.1 ≤ p.2.1) || decide (p.2.1 + p.2.2.length ≤ f.1) || f.2.2 (leAt b f.1 f.2.1))

/-- A write of EndpointConfig (R124, R144): a field out of its range 0x0301, outside bytes 16 to 59 or in FREE 0x0401, under a pending
remap 0x0601, in the order of R361. -/
def Dev.writeEndpointConfig (d : Dev) (off : Nat) (data : List Byte) : WRes :=
  if !domRangeOk (262144 * 128) off data.length then d.no 0x0301
  else
    let parts := cutRecords (data.length / 128 + 2) off data
    let bad := parts.any (fun p => decide (p.2.1 < 16) || decide (60 < p.2.1 + p.2.2.length) || (d.ownerOf p.1).isNone)
    let pend := parts.any (fun p => match d.ownerOf p.1 with | some (e, s) => d.epPending e s | none => false)
    if !parts.all d.configPartOk then d.no 0x0301
    else if bad then d.no 0x0401
    else if pend then d.no 0x0601
    else
      let held := parts.map (fun p => ({ id := p.1, off := p.2.1, data := p.2.2 } : HeldWrite))
      Dev.yes { d with own := { d.own with held := held.reverse ++ d.own.held } }

/-- What EndpointTable and EndpointConfig read (R144). -/
def Dev.readRecords (d : Dev) (off n : Nat) : List Byte :=
  (List.range n).map (fun i =>
    match d.ownerOf ((off + i) / 128) with
    | some (e, s) => d.byte (recAddr e s + (off + i) % 128)
    | none => 0)

/-! ## Ranges (R129 to R131) -/

/-- The 64 bytes of a descriptor in EndpointRanges. -/
def Dev.rangeBytes (d : Dev) (i : Nat) : List Byte := d.dom Obj.EndpointRanges (64 * i) 64

/-- The output of endpoint `j` of a range. -/
def rangeOut (b : List Byte) (j : Nat) : Nat := leAt b 8 4 + j * leAt b 16 2

/-- Whether a descriptor's fields lie in their ranges (R129, R130). -/
def rangeValid (b : List Byte) : Bool :=
  let id := leAt b 0 4
  let n := leAt b 4 4
  let stride := leAt b 16 2
  decide (id < 262144) && decide (1 ≤ n) && decide (id + n ≤ 262144) && decide (byteAt b 12 ≤ 4)
    && decide (byteAt b 15 ≤ 1) && decide (1 ≤ stride) && decide (stride ≤ 1024) && decide (leAt b 18 2 ≤ 1000)
    && decide (leAt b 20 2 < 0x4000) && decide (leAt b 22 2 = 0) && decide (leAt b 44 2 ≤ 1000)
    && decide (leAt b 46 2 ≤ 1000) && decide (leAt b 62 2 = 0) && decide (byteAt b 13 % 128 < 4)
    && outInRange (byteAt b 12) (rangeOut b (n - 1))

/-- Whether two descriptors share an ID or an output (R130). -/
def rangesClash (a b : List Byte) : Bool :=
  let ia := leAt a 0 4
  let ib := leAt b 0 4
  let na := leAt a 4 4
  let nb := leAt b 4 4
  let ids := decide (ia < ib + nb) && decide (ib < ia + na)
  let outs := byteAt a 12 == byteAt b 12 && (List.range na).any (fun j =>
    let o := rangeOut a j
    decide (leAt b 8 4 ≤ o) && decide (o ≤ rangeOut b (nb - 1)) && decide ((o - leAt b 8 4) % leAt b 16 2 = 0))
  ids || outs

/-- RangeCommand 1 (R130). -/
def Dev.rangeStore (d : Dev) : WRes :=
  let n := d.ob Obj.RangeCount
  let bs := (List.range n).map d.rangeBytes
  let fail (d : Dev) (i code : Nat) : WRes := ((d.setOb Obj.RangeState 2).setOb Obj.RangeFailIndex i).no code
  let valid := fun (i : Nat) => rangeValid (bs.getD i [])
  let clash := fun (i : Nat) => (List.range i).any (fun j => rangesClash (bs.getD j []) (bs.getD i []))
  match (List.range n).find? (fun i => !valid i || clash i) with
  | some i => fail d i (if valid i then 0x0401 else 0x0301)
  | none =>
    let d := d.setOb Obj.RangeState 0
    let keep := d.nvDom.filter (fun p => p.1 / 0x10000000 != Obj.EndpointRanges)
    let img := d.dom Obj.EndpointRanges 0 (64 * n)
    let d := { d with
      nvDom := SMap.setList (fun _ => 0) keep (domKey Obj.EndpointRanges 0) img
      nv := (Obj.RangeCount, n) :: d.nv.filter (fun p => p.1 != Obj.RangeCount) }
    (d.event 1 0x3007 [.w n, .w 0, .w 0]).yes

/-- Bytes 16 to 59 of endpoint `j` of a range (R129, R119). -/
def rangeFields (b : List Byte) (j : Nat) : List Byte :=
  let posA := sx 32 (leAt b 24 4) + j * sx 32 (leAt b 36 4)
  let posB := sx 32 (leAt b 28 4) + j * sx 32 (leAt b 40 4)
  leBytes (byteAt b 13) 1 ++ leBytes (byteAt b 14) 1 ++ [0, 0] ++ leBytes (unsx 32 posA) 4 ++ leBytes (unsx 32 posB) 4
    ++ leBytes (leAt b 32 4) 4 ++ leBytes (leAt b 48 2) 2 ++ leBytes (leAt b 50 2) 2 ++ leBytes (leAt b 44 2) 2
    ++ leBytes (leAt b 46 2) 2 ++ leBytes (leAt b 52 2) 2 ++ leBytes (leAt b 54 2) 2 ++ List.replicate 8 0
    ++ leBytes (leAt b 56 2) 2 ++ leBytes (leAt b 58 2) 2 ++ leBytes (leAt b 60 2) 2 ++ [0, 3]

/-- Binds the endpoints of one stored range; answers the device and how many were bound and skipped (R131). -/
def Dev.rangeBind (d : Dev) (b : List Byte) : Dev × Nat × Nat :=
  (List.range (leAt b 4 4)).foldl (fun (p : Dev × Nat × Nat) j =>
    let st := if byteAt b 15 = 1 then epEnabled else epDisabled
    let r := p.1.bind (leAt b 0 4 + j) (byteAt b 12) (rangeOut b j) (leAt b 18 2) (leAt b 20 2) st (rangeFields b j)
    if r.1 = 0 then (r.2, p.2.1 + 1, p.2.2) else (r.2, p.2.1, p.2.2 + 1)) (d, 0, 0)

/-- The stored set of descriptors. -/
def Dev.storedRanges (d : Dev) : List (List Byte) :=
  let n := match d.nv.find? (fun p => p.1 == Obj.RangeCount) with | some p => p.2 | none => 0
  (List.range n).map (fun i => SMap.getList (fun _ => 0) d.nvDom (domKey Obj.EndpointRanges (64 * i)) 64)

/-- A table load: StartEpoch advances and every stored range is bound in order (R131, R138). -/
def Dev.rangeLoad (d : Dev) : Dev :=
  let d := d.setOb Obj.StartEpoch ((d.ob Obj.StartEpoch + 0x4000) % 65536)
  let rs := d.storedRanges
  let p := rs.foldl (fun (p : Dev × Nat × Nat) b =>
    let q := p.1.rangeBind b
    (q.1, p.2.1 + q.2.1, p.2.2 + q.2.2)) (d, 0, 0)
  p.1.event 1 0x3007 [.w rs.length, .w p.2.1, .w p.2.2]

end Sys2Proof.Machine
end

