-- ==== Sys2Proof/Machine/Endpoints.lean ====
section
/-! DEFINITION. The commands of the ownership unit: EpCommand, RemapCommand, RangeCommand and OWN_CMD (R125 to R144). -/
namespace Sys2Proof.Machine

/-! ## The dictionary's doors -/

/-- One byte of a command object. -/
def byte1 (v : Nat) : List Byte := [BitVec.ofNat 8 v]

/-- The guard of an EpCommand or RemapCommand, then the command (R141, R361). While the ownership unit is frozen it executes none
(R423; 0x0401: DESIGN CHOICE). -/
def Dev.guarded (d : Dev) (id : Nat) (k : WRes) : WRes :=
  if d.guardFails id then d.no 0x0801 else if d.frozen 0x415 then d.no 0x0401 else k

/-- A command of EpCommand by its number (R144): 1, 2 and 7 need Service level. -/
def Dev.epCommand (d : Dev) (r : Req) (v : Nat) : WRes :=
  let key := d.stageKey r
  let id := d.obC key Obj.EpId
  if (v = 1 ∨ v = 2 ∨ v = 7) ∧ d.levelOf r < 2 then d.no 0x0201
  else
    match v with
    | 1 => d.guarded id (d.bind id (d.ob Obj.EpClass) (d.ob Obj.EpOutput) (d.ob Obj.EpLateWindow) (d.ob Obj.EpAccount) epDisabled
        (List.replicate 44 0))
    | 2 => d.guarded id (d.unbind id)
    | 3 => d.guarded id (d.setEnabled id true)
    | 4 => d.guarded id (d.setEnabled id false)
    | 5 => d.guarded id (d.setAccount id (d.ob Obj.EpAccount))
    | 6 => d.guarded id (d.setLate id (d.ob Obj.EpLateWindow))
    | 7 => d.guarded id (d.clearFault id)
    | _ => d.no 0x0301

/-- RemapCommand (R133, R136, R144). -/
def Dev.remapCommand (d : Dev) (r : Req) (v : Nat) : WRes :=
  let key := d.stageKey r
  let id := d.obC key Obj.RemapId
  let slot := d.obC key Obj.RemapSlot
  match v with
  | 1 =>
    d.remapRequest key id (d.obC key Obj.RemapEngine) (if slot = 0xFFFF then none else some slot) (d.obC key Obj.RemapAt) true
  | 2 => d.remapWithdraw id true
  | _ => d.no 0x0301

def Dev.epCmdReq (d : Dev) (r : Req) (v : Nat) : Dev :=
  d.dictWriteWith r 0x4001 0x07 0 (byte1 v) (fun d => d.epCommand r v)
def Dev.remapCmdReq (d : Dev) (r : Req) (v : Nat) : Dev :=
  d.dictWriteWith r 0x4002 0x05 0 (byte1 v) (fun d => d.remapCommand r v)

/-! ## OWN_CMD (R133, R143) -/

/-- Whether an engine may command an endpoint through block ENG (R133). -/
def Dev.ownPermits (d : Dev) (m id : Nat) : Bool :=
  d.ob Obj.EndpointCoordinator == m ||
    (match d.ownerOf id with
     | some (e, _) => e == m
     | none => false)

/-- The lookup registers (R143, R144). -/
def Dev.ownLookup (d : Dev) (m id : Nat) : Dev :=
  match d.ownerOf id with
  | some (e, s) =>
    let w := d.epState e s * 2 ^ 30 + b2n (d.epPending e s) * 2 ^ 29 + e * 2 ^ 16 + s
    (d.wrM m Reg.OWN_LOOKUP0 (wd w)).wrM m Reg.OWN_LOOKUP1 (wd (d.epEpoch e s))
  | none => (d.wrM m Reg.OWN_LOOKUP0 (wd (id / 256 * 2 ^ 16 + id % 256))).wrM m Reg.OWN_LOOKUP1 0

/-- The outcome of an OWN_CMD goes to OWN_RESULT. -/
def Dev.ownResult (r : WRes) (m : Nat) : Dev := r.2.wrM m Reg.OWN_RESULT (wd (2 ^ 31 + r.1))

/-- OWN_CMD with operation `op` on the staged registers of master `m`. -/
def Dev.ownCmd (d : Dev) (m op : Nat) : Dev :=
  let id := d.fM m Reg.OWN_ID 17 0
  let arg := d.rdM m Reg.OWN_ARG
  let allowed (k : WRes) : Dev := Dev.ownResult (if d.ownPermits m id then k else d.no 0x0201) m
  match op with
  | 0 => d
  | 1 =>
    allowed (d.remapRequest 0 id (fld arg 9 0) (if fbit arg 31 then none else some (fld arg 23 16))
      (d.rd64M m Reg.OWN_AT_LO) false)
  | 2 => allowed (d.remapWithdraw id false)
  | 3 => allowed (d.setEnabled id (fbit arg 0))
  | 4 => allowed (d.setLate id (fld arg 15 0))
  | 5 => Dev.ownResult (d.ownLookup m id).yes m
  | _ => d.reject m Reg.OWN_CMD

/-- OWN_CMD as a register write. -/
def Dev.ownCmdBy (d : Dev) (m op : Nat) : Dev := d.byMaster m Reg.OWN_CMD true (fun d => d.ownCmd m op)

/-! ## Meanings -/


def execEpUnbind (t : Nat) (r : Req) (s : State) : Host.Outcome State Fault Refusal :=
  s.put ((s.dev.advance t).epCmdReq r 2)

def execEpEnable (t : Nat) (via : Via) (s : State) : Host.Outcome State Fault Refusal :=
  match via with
  | .reg m => s.put ((s.dev.advance t).ownCmdBy m 3)
  | .dict r => s.put ((s.dev.advance t).epCmdReq r 3)

def execEpDisable (t : Nat) (via : Via) (s : State) : Host.Outcome State Fault Refusal :=
  match via with
  | .reg m => s.put ((s.dev.advance t).ownCmdBy m 3)
  | .dict r => s.put ((s.dev.advance t).epCmdReq r 4)

def execEpSetAccount (t : Nat) (r : Req) (s : State) : Host.Outcome State Fault Refusal :=
  s.put ((s.dev.advance t).epCmdReq r 5)

def execEpSetLateWindow (t : Nat) (via : Via) (s : State) : Host.Outcome State Fault Refusal :=
  match via with
  | .reg m => s.put ((s.dev.advance t).ownCmdBy m 4)
  | .dict r => s.put ((s.dev.advance t).epCmdReq r 6)

def execEpClearFault (t : Nat) (r : Req) (s : State) : Host.Outcome State Fault Refusal :=
  s.put ((s.dev.advance t).epCmdReq r 7)

def execRemapRequest (t : Nat) (via : Via) (s : State) : Host.Outcome State Fault Refusal :=
  match via with
  | .reg m => s.put ((s.dev.advance t).ownCmdBy m 1)
  | .dict r => s.put ((s.dev.advance t).remapCmdReq r 1)

def execRemapWithdraw (t : Nat) (via : Via) (s : State) : Host.Outcome State Fault Refusal :=
  match via with
  | .reg m => s.put ((s.dev.advance t).ownCmdBy m 2)
  | .dict r => s.put ((s.dev.advance t).remapCmdReq r 2)

def execOwnLookup (t : Nat) (m : Nat) (s : State) : Host.Outcome State Fault Refusal :=
  s.put ((s.dev.advance t).ownCmdBy m 5)

end Sys2Proof.Machine
end

