-- ==== Sys2Proof/Machine/Crypto.lean ====
section
/-! DEFINITION. The published functions of the security block (R12): SHA-256 of FIPS 180-4, HMAC-SHA-256 of FIPS 198-1 and the
verification of ECDSA P-256 signatures of FIPS 186-5. -/
namespace Sys2Proof.Machine

/-- The big-endian bytes of a number. -/
def beBytes (v n : Nat) : List Byte := (leBytes v n).reverse

/-- The number that big-endian bytes spell. -/
def beNat (bs : List Byte) : Nat := bs.foldl (fun a b => 256 * a + b.toNat) 0

/-! ## SHA-256 (FIPS 180-4, sections 4 to 6) -/

/-- Whether `n` is prime. -/
def isPrime (n : Nat) : Bool := decide (2 ≤ n) && (List.range n).all (fun k => decide (k < 2) || n % k != 0)

/-- The first 64 primes, the last of which is 311. -/
def shaPrimes : List Nat := (List.range 312).filter isPrime

/-- The largest `r` below `2 ^ n` over `r` with `r ^ k ≤ v`, found bit by bit. -/
def rootBits (k v : Nat) : Nat → Nat → Nat
  | 0, r => r
  | n + 1, r => rootBits k v n (if (r + 2 ^ n) ^ k ≤ v then r + 2 ^ n else r)

/-- The first 32 bits of the fraction of the `k`-th root of a number below 1,024. -/
def rootFraction (k p : Nat) : Nat := rootBits k (p * 2 ^ (32 * k)) 37 0 % 2 ^ 32

/-- The constants of the 64 rounds: of the cube roots of the first 64 primes (section 4.2.2). -/
def shaK : List Nat := shaPrimes.map (rootFraction 3)

/-- The eight words of the hash, a to h. -/
structure ShaState where
  a : Word
  b : Word
  c : Word
  d : Word
  e : Word
  f : Word
  g : Word
  h : Word
  deriving DecidableEq, Repr

/-- The hash before the first block: of the square roots of the first eight primes (section 5.3.3). -/
def ShaState.init : ShaState :=
  let h (i : Nat) : Word := wd (rootFraction 2 (shaPrimes.getD i 0))
  ⟨h 0, h 1, h 2, h 3, h 4, h 5, h 6, h 7⟩

/-- One round, with its constant and its word of the schedule. -/
def shaRound (s : ShaState) (p : Nat × Word) : ShaState :=
  let s1 := s.e.rotateRight 6 ^^^ s.e.rotateRight 11 ^^^ s.e.rotateRight 25
  let ch := (s.e &&& s.f) ^^^ (~~~s.e &&& s.g)
  let t1 := s.h + s1 + ch + wd p.1 + p.2
  let s0 := s.a.rotateRight 2 ^^^ s.a.rotateRight 13 ^^^ s.a.rotateRight 22
  let maj := (s.a &&& s.b) ^^^ (s.a &&& s.c) ^^^ (s.b &&& s.c)
  ⟨t1 + s0 + maj, s.a, s.b, s.c, s.d + t1, s.e, s.f, s.g⟩

/-- `n` further words of the message schedule, kept newest first. -/
def shaExtend : Nat → List Word → List Word
  | 0, ws => ws
  | n + 1, ws =>
    let x := ws.getD 14 0
    let y := ws.getD 1 0
    let s0 := x.rotateRight 7 ^^^ x.rotateRight 18 ^^^ (x >>> 3)
    let s1 := y.rotateRight 17 ^^^ y.rotateRight 19 ^^^ (y >>> 10)
    shaExtend n ((s1 + ws.getD 6 0 + s0 + ws.getD 15 0) :: ws)

/-- `n` big-endian words at the head of a list of bytes. -/
def beWords : Nat → List Byte → List Word
  | 0, _ => []
  | n + 1, bs => wd (beNat (bs.take 4)) :: beWords n (bs.drop 4)

/-- One block of 64 bytes taken into the hash. -/
def shaBlock (s : ShaState) (bs : List Byte) : ShaState :=
  let w := (shaExtend 48 (beWords 16 bs).reverse).reverse
  let r := (shaK.zip w).foldl shaRound s
  ⟨s.a + r.a, s.b + r.b, s.c + r.c, s.d + r.d, s.e + r.e, s.f + r.f, s.g + r.g, s.h + r.h⟩

/-- `n` blocks taken in turn. -/
def shaBlocks : Nat → ShaState → List Byte → ShaState
  | 0, s, _ => s
  | n + 1, s, bs => shaBlocks n (shaBlock s (bs.take 64)) (bs.drop 64)

/-- A message padded to whole blocks: a one bit, zeros, and its length in bits. -/
def shaPad (m : List Byte) : List Byte :=
  m ++ 0x80 :: List.replicate ((119 - m.length % 64) % 64) 0 ++ beBytes (8 * m.length) 8

/-- SHA-256 of a message. -/
def sha256 (m : List Byte) : List Byte :=
  let p := shaPad m
  let s := shaBlocks (p.length / 64) ShaState.init p
  [s.a, s.b, s.c, s.d, s.e, s.f, s.g, s.h].foldl (fun bs w => bs ++ beBytes w.toNat 4) []

/-! ## HMAC (FIPS 198-1) -/

/-- The key as one block of 64 bytes. -/
def hmacKey (k : List Byte) : List Byte :=
  let k := if 64 < k.length then sha256 k else k
  k ++ List.replicate (64 - k.length) 0

/-- HMAC-SHA-256 under a key. -/
def hmac (k m : List Byte) : List Byte :=
  let pad (c : Byte) := (hmacKey k).map (fun b => b ^^^ c)
  sha256 (pad 0x5C ++ sha256 (pad 0x36 ++ m))

/-! ## ECDSA over P-256 (FIPS 186-5) -/

/-- The prime, the order, the coefficient b and the base point of P-256. -/
def p256 : Nat := 0xffffffff00000001000000000000000000000000ffffffffffffffffffffffff
def p256n : Nat := 0xffffffff00000000ffffffffffffffffbce6faada7179e84f3b9cac2fc632551
def p256b : Nat := 0x5ac635d8aa3a93e7b3ebbd55769886bc651d06b0cc53b0f63bce3c3e27d2604b
def p256G : Option (Nat × Nat) :=
  some (0x6b17d1f2e12c4247f8bce6e563a440f277037d812deb33a0f4a13945d898c296,
    0x4fe342e2fe1a7f9b8ee7eb4a7c0f9e162bce33576b315ececbb6406837bf51f5)

/-- `b` to the power `e`, of at most `n` bits, modulo `m`. -/
def powMod (m b : Nat) : Nat → Nat → Nat
  | 0, _ => 1
  | n + 1, e =>
    let r := powMod m b n (e / 2)
    let s := r * r % m
    if e % 2 = 1 then s * b % m else s

/-- The inverse modulo a prime of 256 bits. -/
def invMod (m a : Nat) : Nat := powMod m a 256 (m - 2)

/-- The third point of a chord or a tangent of slope `l` through `p` and a point with abscissa `x2`, mirrored. -/
def ecThird (l : Nat) (p : Nat × Nat) (x2 : Nat) : Nat × Nat :=
  let x := (l * l + 2 * p256 - p.1 - x2) % p256
  (x, (l * (p.1 + p256 - x) + p256 - p.2) % p256)

/-- Addition on the curve; none is the point at infinity. -/
def ecAdd : Option (Nat × Nat) → Option (Nat × Nat) → Option (Nat × Nat)
  | none, q => q
  | some p, none => some p
  | some p, some q =>
    if p.1 = q.1 then
      if (p.2 + q.2) % p256 = 0 then none
      else some (ecThird ((3 * p.1 * p.1 + p256 - 3) * invMod p256 (2 * p.2 % p256) % p256) p q.1)
    else some (ecThird ((q.2 + p256 - p.2) * invMod p256 ((q.1 + p256 - p.1) % p256) % p256) p q.1)

/-- A multiple of a point by a number of at most `n` bits. -/
def ecMul (q : Option (Nat × Nat)) : Nat → Nat → Option (Nat × Nat)
  | 0, _ => none
  | n + 1, e =>
    let r := ecMul q n (e / 2)
    let s := ecAdd r r
    if e % 2 = 1 then ecAdd s q else s

/-- A point of the curve with both coordinates in the field. -/
def onCurve (q : Nat × Nat) : Bool :=
  decide (q.1 < p256) && decide (q.2 < p256) && (q.2 * q.2 % p256 == (q.1 * q.1 * q.1 + (p256 - 3) * q.1 + p256b) % p256)

/-- Verification of a signature `r`, `s` of a digest under the public key `q`. -/
def ecdsaVerify (q : Nat × Nat) (digest r s : Nat) : Bool :=
  if onCurve q && decide (1 ≤ r) && decide (r < p256n) && decide (1 ≤ s) && decide (s < p256n) then
    let w := invMod p256n s
    match ecAdd (ecMul p256G 256 (digest * w % p256n)) (ecMul (some q) 256 (r * w % p256n)) with
    | none => false
    | some p => p.1 % p256n == r
  else false

/-- The same over bytes. R409 gives the signature as `r` then `s`, big-endian; the public key of 64 bytes is read as its abscissa then its
ordinate, big-endian (PRESUMED, as in the standard's own encoding). -/
def ecdsaOk (key digest sig : List Byte) : Bool :=
  ecdsaVerify (beNat (key.take 32), beNat ((key.drop 32).take 32)) (beNat (digest.take 32)) (beNat (sig.take 32))
    (beNat ((sig.drop 32).take 32))

end Sys2Proof.Machine
end

