-- ==== Sys2Proof/Machine/F32.lean ====
section
/-! DEFINITION. IEEE 754 single precision on bit patterns: every operation is exact on rationals and rounded once, to nearest with
ties to even (PRESUMED, assumption log). A result that is not a number carries an open payload. -/
namespace Sys2Proof.Machine

def fNeg (w : Word) : Bool := fbit w 31
def fExp (w : Word) : Nat := fld w 30 23
def fMan (w : Word) : Nat := fld w 22 0
def fNan (w : Word) : Bool := fExp w == 255 && fMan w != 0
def fInf (w : Word) : Bool := fExp w == 255 && fMan w == 0
def fZero (w : Word) : Bool := fExp w == 0 && fMan w == 0
def fFinite (w : Word) : Bool := fExp w != 255

/-- Magnitude of a finite pattern as `m · 2^(e − 149)`. -/
def fMag (w : Word) : Nat × Nat := if fExp w = 0 then (fMan w, 0) else (fMan w + 2 ^ 23, fExp w - 1)

/-- A finite pattern as an integer of 2^−149. -/
def fInt (w : Word) : Int :=
  let p := fMag w
  let v : Nat := p.1 * 2 ^ p.2
  if fNeg w then -(v : Int) else v

def signBit (neg : Bool) : Nat := if neg then 2 ^ 31 else 0

/-- A result that is not a number, delivered for operands `a` and `b`. -/
def mkNan (a b : Word) : Word := wd (0x7FC00000 + (Config.nanPayload (a.toNat + 2 ^ 32 * b.toNat)).toNat)

def mkInf (neg : Bool) : Word := wd (signBit neg + 0x7F800000)
def mkZero (neg : Bool) : Word := wd (signBit neg)

/-- Rounds `num / den · 2^−149` to F32. -/
def roundF (neg : Bool) (num den : Nat) : Word :=
  if num = 0 then mkZero neg
  else
    let lb := Nat.log2 num - Nat.log2 den - 24
    let k := if num / (den * 2 ^ lb) < 2 ^ 24 then lb else lb + 1
    let dd := den * 2 ^ k
    let q := num / dd
    let r := num % dd
    let q := if dd < 2 * r ∨ (dd = 2 * r ∧ q % 2 = 1) then q + 1 else q
    let k' := if q = 2 ^ 24 then k + 1 else k
    let q := if q = 2 ^ 24 then 2 ^ 23 else q
    if q < 2 ^ 23 then wd (signBit neg + q)
    else if 254 < k' + 1 then mkInf neg
    else wd (signBit neg + (k' + 1) * 2 ^ 23 + (q - 2 ^ 23))

/-- F32 of a rational. -/
def fOfRat (i : Int) (den : Nat) : Word := roundF (decide (i < 0)) (i.natAbs * 2 ^ 149) den

def fOfInt (i : Int) : Word := fOfRat i 1

/-- A rational of 2^−149 with the sign rule of sums: an exact 0 is +0 unless both are −0. -/
def fOfSum (a b : Word) (i : Int) : Word :=
  if i = 0 then mkZero (fNeg a && fNeg b) else roundF (decide (i < 0)) i.natAbs 1

def fAdd (a b : Word) : Word :=
  if fNan a || fNan b then mkNan a b
  else if fInf a && fInf b then (if fNeg a = fNeg b then a else mkNan a b)
  else if fInf a then a
  else if fInf b then b
  else fOfSum a b (fInt a + fInt b)

def fNegate (a : Word) : Word := wd (a.toNat ^^^ 2 ^ 31)
def fSub (a b : Word) : Word := if fNan b then mkNan a b else fAdd a (fNegate b)

def fMul (a b : Word) : Word :=
  let neg := fNeg a != fNeg b
  if fNan a || fNan b then mkNan a b
  else if fInf a || fInf b then (if fZero a || fZero b then mkNan a b else mkInf neg)
  else roundF neg ((fInt a).natAbs * (fInt b).natAbs) (2 ^ 149)

def fDiv (a b : Word) : Word :=
  let neg := fNeg a != fNeg b
  if fNan a || fNan b then mkNan a b
  else if fInf a then (if fInf b then mkNan a b else mkInf neg)
  else if fInf b then mkZero neg
  else if fZero b then (if fZero a then mkNan a b else mkInf neg)
  else roundF neg ((fInt a).natAbs * 2 ^ 149) (fInt b).natAbs

def fSqrt (a : Word) : Word :=
  if fNan a then mkNan a a
  else if fZero a then a
  else if fNeg a then mkNan a a
  else if fInf a then a
  else
    let v := (fInt a).natAbs
    let r := isqrtBits (v * 2 ^ 149 * 2 ^ 60) 256 0
    let sticky := if r * r = v * 2 ^ 149 * 2 ^ 60 then 0 else 1
    roundF false (2 * r + sticky) (2 ^ 31)

/-- a · b + c, rounded once or twice (R398 does not say). -/
def fMulAdd (a b c : Word) : Word :=
  if Config.fmaFused 0 && fFinite a && fFinite b && fFinite c then
    let p : Int := fInt a * fInt b
    let s : Int := p + fInt c * 2 ^ 149
    if s = 0 then mkZero ((fNeg a != fNeg b) && fNeg c) else roundF (decide (s < 0)) s.natAbs (2 ^ 149)
  else fAdd (fMul a b) c

def fLt (a b : Word) : Bool :=
  if fNan a || fNan b then false
  else if fInf a then fNeg a && !(fInf b && fNeg b)
  else if fInf b then !fNeg b
  else decide (fInt a < fInt b)

def fEq (a b : Word) : Bool :=
  if fNan a || fNan b then false
  else if fInf a || fInf b then a == b
  else decide (fInt a = fInt b)

def fLe (a b : Word) : Bool := fLt a b || fEq a b

/-- The lesser of two; with an operand that is not a number, an open value. -/
def fMin (a b : Word) : Word := if fNan a || fNan b then Config.minMaxNan 0 a b else if fLt b a then b else a
def fMax (a b : Word) : Word := if fNan a || fNan b then Config.minMaxNan 1 a b else if fLt a b then b else a

def fAbs (a : Word) : Word := wd (a.toNat % 2 ^ 31)

/-- clamp(x, lo, hi). -/
def fClamp (x lo hi : Word) : Word := if fLt x lo then lo else if fLt hi x then hi else x

/-- Nearest integer to `i / d`, ties to even. -/
def rteDiv (i : Int) (d : Nat) : Int :=
  let q := i / (d : Int)
  let r := i % (d : Int)
  if (d : Int) < 2 * r ∨ ((d : Int) = 2 * r ∧ q % 2 = 1) then q + 1 else q

/-- Nearest integer to `i / d`, halves away from zero. -/
def rhaDiv (i : Int) (d : Nat) : Int := if i < 0 then -(roundDiv (-i) d) else roundDiv i d

/-- A finite F32 to the nearest signed 32-bit integer, ties to even, saturating; `none` for what is not a number. -/
def fToInt (a : Word) : Option Int :=
  if fNan a then none
  else if fInf a then some (if fNeg a then -2147483648 else 2147483647)
  else some (clampI (-2147483648) 2147483647 (rteDiv (fInt a) (2 ^ 149)))

/-- A finite or infinite F32 rounded to a natural number within bounds; `none` for what is not a number. -/
def fToNat (a : Word) (lo hi : Nat) : Option Nat :=
  if fNan a then none
  else if fInf a then some (if fNeg a then lo else hi)
  else some (clampI lo hi (rhaDiv (fInt a) (2 ^ 149))).toNat

def f1 : Word := 0x3F800000

/-- A mantissa `m` of a stage with exponent `x`: m · 2^(x − 23) (R248). -/
def fOfStage (m x : Int) : Word :=
  let k := x - 23
  if 0 ≤ k then fOfInt (m * 2 ^ k.toNat) else fOfRat m (2 ^ (-k).toNat)

end Sys2Proof.Machine
end

