-- ==== Sys2Proof/Machine/Detect.lean ====
section
/-! DEFINITION. The armature detectors: the opening dip of R208 and the closing kink of R209, over a channel's samples, one a microsecond. -/
namespace Sys2Proof.Machine

/-- A sample as the detectors see it: corrected current in mA, applied voltage in mV, switching edge. -/
structure CoilPoint where
  mA : Int
  mV : Nat
  edge : Bool

/-- The samples of a slope: the newest, the ten before it, and the two µs in which no edge may lie before those (DEDUCED: a detector that
follows the samples cannot look ahead). -/
def slopeWindow (w : List CoilPoint) : Bool := decide (11 ≤ w.length) && w.all (fun p => !p.edge)

/-- The current of the sample `k` µs before the newest. -/
def mAAt (w : List CoilPoint) (k : Nat) : ℚ := match w[k]? with | some p => (p.mA : ℚ) | none => 0

/-- A detector of either kind: the last valid slope and the rail it was driven from, the last figure, its reference (the running maximum, or the mean), the extreme since it was armed,
and the sample of the instant found. -/
structure DetState where
  win : List CoilPoint
  n : Nat
  slope : Option ℚ
  rail : Nat
  value : Option ℚ
  ref : Option ℚ
  count : Nat
  low : Option ℚ
  found : Option Nat

def DetState.start : DetState := { win := [], n := 0, slope := none, rail := 0, value := none, ref := none, count := 0, low := none, found := none }

/-- Steps 4 and 5 of R208, 3 and 4 of R209: armed at (1 − ratio) of the reference, found at the midpoint after the minimum. -/
def DetState.judge (x : DetState) (ratio : ℚ) : DetState :=
  match x.found, x.value, x.ref, x.low with
  | none, some s, some r, none => if s ≤ (1 - ratio) * r then { x with low := some s } else x
  | none, some s, some r, some l =>
    if s < l then { x with low := some s } else if (l + r) / 2 ≤ s then { x with found := some x.n } else x
  | _, _, _, _ => x

/-- The next sample enters the window of 13. -/
def DetState.take (x : DetState) (p : CoilPoint) : List CoilPoint := (p :: x.win).take 13

/-- The slope of R208, step 1: all 11 samples in one drive interval. -/
def driveSlope (w : List CoilPoint) : Option ℚ :=
  if slopeWindow w && (w.take 11).all (fun p => p.mV != 0) then some ((mAAt w 0 - mAAt w 10) / 10) else none

/-- The normalised slope of R208, step 2, with the coil resistance in mΩ. -/
def normSlope (g rho : ℚ) (mV : Nat) (mA : Int) : Option ℚ :=
  let u : ℚ := (mV : ℚ) - (mA : ℚ) * rho / 1000
  if u = 0 then none else some (g / u)

/-- One sample of the opening detector: between drive intervals slope and rail are carried, and the present current counts (DEDUCED: the
rail voltage is that of the rail which drives, not the 0 V of a freewheel); s_max runs from 100 µs after the profile start. -/
def openStep (rho ratio : ℚ) (x : DetState) (p : CoilPoint) : DetState :=
  let w := x.take p
  let g := (driveSlope w).orElse (fun _ => x.slope)
  let rail := if p.mV = 0 then x.rail else p.mV
  let s := (g.bind (fun v => normSlope v rho rail p.mA)).orElse (fun _ => x.value)
  let ref := if x.n < 100 then none else match x.ref, s with
    | some r, some v => some (max r v)
    | none, v => v
    | r, none => r
  let y := { x with win := w, slope := g, rail := rail, value := s, ref := ref }
  { y.judge ratio with n := x.n + 1 }

/-- The decay rate of R209, step 1, in freewheel intervals only. -/
def decayRate (w : List CoilPoint) : Option ℚ :=
  if slopeWindow w && (w.take 11).all (fun p => p.mV == 0) && decide (mAAt w 5 ≠ 0) then
    some (-(mAAt w 0 - mAAt w 10) / (10 * mAAt w 5))
  else none

/-- One sample of the closing detector; q_ref is the mean over the first 200 µs. -/
def closeStep (ratio : ℚ) (x : DetState) (p : CoilPoint) : DetState :=
  let w := x.take p
  let q := (decayRate w).orElse (fun _ => x.value)
  let y := { x with win := w, value := q }
  if x.n < 200 then
    match q with
    | none => { y with n := x.n + 1 }
    | some v =>
      let k : ℚ := x.count
      { y with n := x.n + 1, count := x.count + 1, ref := some (((x.ref.getD 0) * k + v) / (k + 1)) }
  else { y.judge ratio with n := x.n + 1 }

/-- What a detector answers: the sample of the instant, and whether the extreme passed twice the ratio. -/
def DetState.answer (x : DetState) (ratio : ℚ) : Option (Nat × Bool) :=
  match x.found, x.ref, x.low with
  | some n, some r, some l => some (n, decide (l ≤ (1 - 2 * ratio) * r))
  | _, _, _ => none

/-- A ratio in %. -/
def percent (n : Nat) : ℚ := (n : ℚ) / 100

/-- The opening in the samples since the profile start (R208). -/
def openingIn (rho : ℚ) (dip : Nat) (ps : List CoilPoint) : Option (Nat × Bool) :=
  (ps.foldl (openStep rho (percent dip)) DetState.start).answer (percent dip)

/-- The closing in the samples since slow recovery began (R209). -/
def closingIn (kink : Nat) (ps : List CoilPoint) : Option (Nat × Bool) :=
  (ps.foldl (closeStep (percent kink)) DetState.start).answer (percent kink)

end Sys2Proof.Machine
end

