-- ==== Sys2Proof/Machine/PaneOps.lean ====
section
/-! DEFINITION. Panes, pane fetches and target sources (R153 to R158, R163 to R165), and the coverage ledger with its exchange
(R186 to R192). -/
namespace Sys2Proof.Machine

/-! ## Panes -/

def Dev.pane (d : Dev) (x y : Int) : Option Pane := d.look.panes.find? (fun p => p.x == x && p.y == y)

/-- Memory address of a pane's byte (R154). -/
def paneAddr (slot off : Nat) : Nat := dramBase + 0x80000000 + slot * 0x100000 + off

/-- A byte of a pane: memory holds it combined with the fill. -/
def Dev.paneByte (d : Dev) (p : Pane) (off : Nat) : Nat := (d.byte (paneAddr p.slot off)).toNat ^^^ p.fill
def Dev.setPaneByte (d : Dev) (p : Pane) (off v : Nat) : Dev :=
  d.setByte (paneAddr p.slot off) (BitVec.ofNat 8 (v ^^^ p.fill))

/-- Panes the store holds (R154). -/
def paneRoom : Nat := 2040

/-- The lowest slot that no pane uses. -/
def freePaneSlot (ps : List Pane) : Nat → Nat → Nat
  | 0, i => i
  | n + 1, i => if ps.any (fun p => p.slot == i) then freePaneSlot ps n (i + 1) else i

/-- Signed value as the 2 bytes of an I16 event parameter. -/
def i16 (x : Int) : Nat := unsx 16 x

/-- Creates a pane filled with PaneMissingFill; the caller has checked room (R154). -/
def Dev.addPane (d : Dev) (x y : Int) : Dev :=
  let p : Pane :=
    { x := x, y := y, slot := freePaneSlot d.look.panes paneRoom 0, fill := d.ob Obj.PaneMissingFill, version := 0 }
  let d := d.clearMem (paneAddr p.slot 0) 0x100000
  let d := { d with look := { d.look with panes := d.look.panes ++ [p] } }
  d.setOb Obj.PaneCount d.look.panes.length

/-- Whether two ranges of cells meet. -/
def rangesMeet (a0 a1 b0 b1 : Int) : Bool := decide (a0 < b1) && decide (b0 < a1)

/-- Whether a fetch reads one of the `n` bytes of a pane from offset `off` on. -/
def Fetch.reads (f : Fetch) (p : Pane) (off n : Nat) : Bool :=
  (List.range f.h).any (fun (j : Nat) =>
    let y := f.y + (j : Int)
    let lo := max f.x (p.x * 512)
    let hi := min (f.x + (f.w : Int)) (p.x * 512 + 512)
    let row : Nat := f.layer * 262144 + (y % 512).toNat * 512
    decide (y / 512 = p.y) && decide (lo < hi)
      && rangesMeet ((row : Int) + (lo - p.x * 512)) ((row : Int) + (hi - p.x * 512)) (off : Int) ((off + n : Nat) : Int))

/-- Whether a cache line holds one of the `n` bytes of a pane from offset `off` on. -/
def CacheLine.holds (l : CacheLine) (p : Pane) (off n : Nat) : Bool :=
  let at_ : Nat := l.layer * 262144 + l.row * 512 + l.col * 64
  decide (l.x = p.x) && decide (l.y = p.y) && decide (at_ < off + n) && decide (off < at_ + 64)

/-- A pane write over the `n` bytes from offset `off` on sets CHANGED of every outstanding fetch that reads one of them and invalidates
the lines that hold one, in all caches (R156, R158). -/
def Dev.touchPane (d : Dev) (p : Pane) (off n : Nat) : Dev :=
  { d with look := { d.look with
      cache := d.look.cache.filter (fun l => !l.holds p off n)
      fetches := d.look.fetches.map (fun f => if f.reads p off n then { f with changed := true } else f) } }

/-- Bytes of a pane. -/
def paneSize : Nat := 0x100000

/-- The byte of a global cell, and whether its pane is missing (R153, R154). -/
def Dev.cell (d : Dev) (cx cy : Int) (layer : Nat) : Nat × Bool :=
  match d.pane (cx / 512) (cy / 512) with
  | some p => (d.paneByte p (layer * 262144 + (cy % 512).toNat * 512 + (cx % 512).toNat), false)
  | none => (d.ob Obj.PaneMissingFill, true)

/-- PaneCommand 1 (R154). -/
def Dev.paneCreate (d : Dev) (x y : Int) : WRes :=
  if (d.pane x y).isSome then d.no 0x0401
  else if paneRoom ≤ d.look.panes.length then (d.event 1 0x3013 [.h (i16 x), .h (i16 y)]).no 0x0701
  else ((d.addPane x y).event 1 0x3012 [.h (i16 x), .h (i16 y), .h 1]).yes

/-- PaneCommand 2 (R155). -/
def Dev.paneDelete (d : Dev) (x y : Int) : WRes :=
  if d.inField then d.no 0x0401
  else
    match d.pane x y with
    | none => d.no 0x0401
    | some p =>
      let d := d.touchPane p 0 paneSize
      let d := d.clearMem (paneAddr p.slot 0) 0x100000
      let d := { d with look := { d.look with panes := d.look.panes.filter (fun q => !(q.x == x && q.y == y)) } }
      let d := d.setOb Obj.PaneCount d.look.panes.length
      (d.event 1 0x3012 [.h (i16 x), .h (i16 y), .h 2]).yes

/-- Sets the COVERAGE bits of every cell of a pane to 0; unlisted bytes are those that equal the fill. -/
def Dev.clearCoverage (d : Dev) (p : Pane) : Dev :=
  if p.fill / 64 = 0 then
    let base := paneAddr p.slot 0
    let inside := d.mem.filter (fun c => decide (base ≤ c.1) && decide (c.1 < base + 0x100000))
    inside.foldl (fun d c => d.setPaneByte p (c.1 - base) (d.paneByte p (c.1 - base) % 64)) d
  else
    (List.range 0x100000).foldl (fun d o => d.setPaneByte p o (d.paneByte p o % 64)) d

/-- PaneCommand 3 (R155). -/
def Dev.paneClear (d : Dev) (x y : Int) : WRes :=
  if d.inField then d.no 0x0401
  else
    match d.pane x y with
    | none => d.no 0x0401
    | some p => (((d.touchPane p 0 paneSize).clearCoverage p).event 1 0x3012 [.h (i16 x), .h (i16 y), .h 3]).yes

/-- Counts a pane's version up. -/
def Dev.bumpVersion (d : Dev) (p : Pane) : Dev :=
  { d with look := { d.look with panes := d.look.panes.map (fun q =>
      if q.x = p.x ∧ q.y = p.y then { q with version := (q.version + 1) % 2 ^ 32 } else q) } }

/-- Stores bytes at successive offsets of a pane: zone bits alone, or whole bytes (R155). -/
def Dev.putPane (d : Dev) (p : Pane) (full : Bool) : Nat → List Byte → Dev
  | _, [] => d
  | off, b :: bs =>
    let v := if full then b.toNat else d.paneByte p off / 64 * 64 + b.toNat % 64
    (d.setPaneByte p off v).putPane p full (off + 1) bs

/-- A write of PaneData (R155, R169). -/
def Dev.paneWrite (d : Dev) (x y : Int) (full : Bool) (off : Nat) (data : List Byte) : WRes :=
  if !domRangeOk 0x100000 off data.length then d.no 0x0301
  else
    match d.pane x y with
    | none => d.no 0x0401
    | some p =>
      if full && d.inField then d.no 0x0401
      else
        let d := d.putPane p full off data
        let d := d.bumpVersion p
        (d.touchPane p off data.length).yes

/-! ## The pane cache (R156)

How a line finds its set the spec leaves open (Config.cacheSet); where its 64 bytes stand within the cache area is the model's choice:
line 4 × set + way (DESIGN CHOICE), as is that a line of a missing pane is not cached. -/

/-- The line of a global cell: pane, layer, row, column over 64, for cluster `c`; way 0 stands for any. -/
def lineOf (c : Nat) (cx cy : Int) (layer : Nat) : CacheLine :=
  let row := (cy % 512).toNat
  let col := (cx % 512).toNat / 64
  { cluster := c, set := Config.cacheSet (cx / 512) (cy / 512) layer row col % 1024, way := 0, x := cx / 512, y := cy / 512
    layer := layer, row := row, col := col }

/-- Whether two lines are the same cells in the same cluster's cache. -/
def CacheLine.same (a b : CacheLine) : Bool := { a with way := 0 } == { b with way := 0 }

/-- The way that a new line of a set takes: a free one, or that of the least recently used line, which goes. -/
def wayFor (set : List CacheLine) : Nat :=
  match (List.range 4).find? (fun w => !set.any (fun l => l.way == w)) with
  | some w => w
  | none => match set.getLast? with | some l => l.way | none => 0

/-- A line is read through the cache of cluster `c`; answers whether it hits. -/
def Dev.cacheRead (d : Dev) (l : CacheLine) : Dev × Bool :=
  match d.look.cache.find? (fun x => x.same l) with
  | some x => ({ d with look := { d.look with cache := x :: d.look.cache.filter (fun y => !y.same l) } }, true)
  | none =>
    match d.pane l.x l.y with
    | none => (d, false)
    | some p =>
      let w := wayFor (d.look.cache.filter (fun x => x.cluster == l.cluster && x.set == l.set))
      let rest := d.look.cache.filter (fun x => !(x.cluster == l.cluster && x.set == l.set && x.way == w))
      let cells := (List.range 64).map (fun i =>
        BitVec.ofNat 8 (d.paneByte p (l.layer * 262144 + l.row * 512 + l.col * 64 + i)))
      (({ d with look := { d.look with cache := { l with way := w } :: rest } } : Dev).setBytes
        (sharedBase l.cluster + 0x10000 + 64 * (4 * l.set + w)) cells, false)

/-- The lines of a rectangle, south row first, each by its first cell in the rectangle. -/
def Fetch.lines (f : Fetch) : List (Int × Int) :=
  (List.range f.h).flatMap (fun (j : Nat) => (List.range f.w).filterMap (fun (i : Nat) =>
    if i = 0 ∨ (f.x + (i : Int)) % 64 = 0 then some (f.x + (i : Int), f.y + (j : Int)) else none))

/-- Lines of a fetch are read: through the cache and counted where CACHE_EN is 1, from DRAM where it is 0 (R156, R157). -/
def Dev.readLines (d : Dev) (f : Fetch) (ls : List (Int × Int)) : Dev :=
  let c := clusterOf f.engine
  if !d.cacheEn c then d
  else ls.foldl (fun (d : Dev) l =>
    let p := d.cacheRead (lineOf c l.1 l.2 f.layer)
    let a := if p.2 then Reg.PC_HITS else Reg.PC_MISSES
    p.1.wrM f.engine a (p.1.rdM f.engine a + 1)) d

/-- A cluster's cache is emptied: it lost its power, or its CACHE_EN. -/
def Dev.cacheDrop (d : Dev) (c : Nat) : Dev := { d with look := { d.look with cache := d.look.cache.filter (fun l => l.cluster != c) } }

/-! ## Fetches (R158) -/

/-- Whether a destination of `n` bytes is permitted. -/
def Dev.fetchDestOk (d : Dev) (e dest n : Nat) : Bool :=
  decide (dest % 16 = 0) &&
    ((decide (0x8000 ≤ dest) && decide (dest + n ≤ 0x10000))
      || (decide (0x100000 ≤ dest) && decide (dest + n ≤ 0x160000)
        && (List.range n).all (fun i => d.fwData (clusterOf e) (dest - 0x100000 + i))))

/-- Memory address of a local or own-cluster address of an engine. -/
def ownAddr (e a : Nat) : Nat := if a < 0x10000 then localBase e + a else sharedBase (clusterOf e) + (a - 0x100000)

/-- The lowest tag an engine has free. -/
def freeTag (fs : List Fetch) (e : Nat) : Nat → Nat → Option Nat
  | 0, _ => none
  | n + 1, i => if fs.any (fun f => f.engine == e && f.tag == i) then freeTag fs e n (i + 1) else some i

def Dev.pfResult (d : Dev) (m tag r : Nat) : Dev := d.wrM m Reg.PF_RESULT (wd (2 ^ 31 + tag * 16 + r))

/-- The cells of a rectangle, south row first, and whether each is missing; a frozen port reads every cell as missing (R423). -/
def Dev.fetchCells (d : Dev) (f : Fetch) : List (Nat × Bool) :=
  let frozen := d.frozen (0x400 + regionOf f.engine)
  (List.range f.h).flatMap (fun (j : Nat) => (List.range f.w).map (fun (i : Nat) =>
    if frozen then (d.ob Obj.PaneMissingFill, true) else d.cell (f.x + (i : Int)) (f.y + (j : Int)) f.layer))

def cellBytes (cs : List (Nat × Bool)) : List Byte := cs.map (fun c => BitVec.ofNat 8 c.1)
def cellsGone (cs : List (Nat × Bool)) : Nat := (cs.filter (fun c => c.2)).length

/-- The first line of an accepted fetch is read at once: FetchFt and CoverageGen are of that instant. The other lines are read when
the fetch completes (DESIGN CHOICE; the spec bounds only the time of completion). -/
def Dev.fetchStart (d : Dev) (f : Fetch) : Dev :=
  let cs := (d.fetchCells f).take (min f.w (64 - (f.x % 64).toNat))
  let f := { f with first := cellBytes cs, gone := cellsGone cs, gen := d.ob Obj.CoverageGeneration, ft := d.now }
  let d := d.readLines f (f.lines.take 1)
  { d with look := { d.look with fetches := d.look.fetches ++ [f] } }

/-- PF_CMD 1 (R158). -/
def Dev.paneFetch (d : Dev) (m : Nat) : Dev :=
  let size := d.rdM m Reg.PF_SIZE
  let w := fld size 6 0
  let h := fld size 22 16
  let dest := (d.rdM m Reg.PF_DEST).toNat
  if w = 0 ∨ 64 < w ∨ h = 0 ∨ 64 < h then (d.reject m Reg.PF_SIZE).pfResult m 0 1
  else if !d.fetchDestOk m dest (16 + w * h) then (d.event (dieOf m) 0x3017 [.h m, .w dest]).pfResult m 0 2
  else
    match freeTag d.look.fetches m 4 0 with
    | none => d.pfResult m 0 3
    | some tag =>
      let f : Fetch :=
        { engine := m, tag := tag, x := swd (d.rdM m Reg.PF_X), y := swd (d.rdM m Reg.PF_Y), w := w, h := h
          layer := fld size 25 24, dest := ownAddr m dest, gen := 0, ft := 0, changed := false, first := [], gone := 0 }
      (d.fetchStart f).pfResult m tag 0

/-- A fetch completes: rows, then the header with its flags (R158, R405, R423). -/
def Dev.fetchDone (d : Dev) (f : Fetch) : Dev :=
  let cs := (d.fetchCells f).drop f.first.length
  let d := d.readLines f (f.lines.drop 1)
  let d := d.setBytes (f.dest + 16) (f.first ++ cellBytes cs)
  let d := d.setBytes f.dest (leBytes f.gen 4 ++ leBytes (f.gone + cellsGone cs) 2 ++ leBytes (1 + 2 * b2n f.changed) 1
    ++ leBytes f.tag 1 ++ leBytes f.ft 8)
  let d := d.setBitM f.engine Reg.PF_DONE f.tag true
  let d := { d with look := { d.look with
    fetches := d.look.fetches.filter (fun x => !(x.engine == f.engine && x.tag == f.tag)) } }
  d.raise f.engine 1

/-! ## Target sources (R164, R165) -/

/-- Refused datagrams and records (R164). -/
def Dev.targetDiscard (d : Dev) (place src : Nat) : Dev :=
  let d := d.incOb Obj.TargetsDiscarded
  let n := d.look.discSince + 1
  let d := { d with look := { d.look with discSince := n } }
  let before := d.rcd.staged.length
  let d := d.eventEvery 1000000000 0 0x3015 0 [.h (Config.cause 0x3015 place), .h src, .w n]
  if before < d.rcd.staged.length then { d with look := { d.look with discSince := 0 } } else d

/-- Liveness of a source's slot (R165, TGT_STATUS of R168). -/
def Dev.setLive (d : Dev) (slot id : Nat) (live : Bool) : Dev :=
  let d := d.setBit Reg.TGT_STATUS slot live
  let d := d.setOb Obj.TargetSourceState (d.f Reg.TGT_STATUS 7 0)
  d.event 0 0x3016 [.h slot, .h id, .h (b2n live)]

/-- The lowest source slot that is free. -/
def freeSrcSlot (ss : List TgtSrc) : Nat → Nat → Option Nat
  | 0, _ => none
  | n + 1, i => if ss.any (fun s => s.slot == i) then freeSrcSlot ss n (i + 1) else some i

/-- An accepted datagram of a source: it holds its slot and is live (R165). -/
def Dev.heardSource (d : Dev) (id seq : Nat) : Option Dev :=
  match d.look.srcs.find? (fun s => s.id == id) with
  | some s =>
    let d := if s.live then d else d.setLive s.slot id true
    let now := d.now
    some { d with look := { d.look with srcs := d.look.srcs.map (fun x =>
      if x.id = id then { x with lastSeq := seq, lastFt := now, live := true } else x) } }
  | none =>
    match freeSrcSlot d.look.srcs 8 0 with
    | none => none
    | some i =>
      let s : TgtSrc := { slot := i, id := id, lastSeq := seq, lastFt := d.now, live := true, lostAt := 0 }
      some (Dev.setLive { d with look := { d.look with srcs := d.look.srcs ++ [s] } } i id true)

/-- Whether a source may send (R164). -/
def Dev.srcListed (d : Dev) (id : Nat) : Bool :=
  (List.range 8).any (fun i => d.ob (Obj.TargetSourceId i) == id)
    || (List.range 8).all (fun i => d.ob (Obj.TargetSourceId i) == 0)

/-- ListSeq is newer by 1 to 2^31 (R164). -/
def seqNewer (new old : Nat) : Bool :=
  let x := (new + 2 ^ 32 - old % 2 ^ 32) % 2 ^ 32
  decide (1 ≤ x) && decide (x ≤ 2 ^ 31)

/-- The datagram checks of R164: the place of the first that fails. -/
def Dev.datagramFault (d : Dev) (b : List Byte) : Option Nat :=
  let id := leAt b 8 2
  if b.length ≠ 16 + 32 * leAt b 2 2 ∨ 44 < leAt b 2 2 then some 0
  else if byteAt b 0 ≠ 1 then some 1
  else if id = 0 ∨ id = 65535 ∨ !d.srcListed id then some 2
  else
    match d.look.srcs.find? (fun s => s.id == id) with
    | some s => if seqNewer (leAt b 4 4) s.lastSeq then none else some 3
    | none => none

/-- One record goes into the ring, or is dropped when the ring is full or its writer is frozen (R164, R423). -/
def Dev.targetPut (d : Dev) (r : List Byte) : Dev :=
  let wr := (d.rd Reg.TGT_WR).toNat
  let rd := (d.rd Reg.TGT_RD).toNat
  let len := d.ob Obj.TargetRingLength
  if len ≤ (wr + 2 ^ 32 - rd) % 2 ^ 32 || d.frozen 0x411 then
    let d := d.incOb Obj.TargetsDropped
    let d := d.setBit Reg.TGT_STATUS 15 true
    { d with look := { d.look with ringEpisode := d.look.ringEpisode + 1 } }
  else
    let d := d.setBytes (dramBase + 0x7E000000 + 32 * (wr % len)) r
    let d := d.wr Reg.TGT_WR (wd (wr + 1))
    let d := d.incOb Obj.TargetsAccepted
    if d.look.ringEpisode = 0 then d
    else
      let n := d.look.ringEpisode
      Dev.event { d with look := { d.look with ringEpisode := 0 } } 0 0x3014 [.w n]

/-- The place of the first check of R164 that a record fails. -/
def Dev.recordFault (d : Dev) (r : List Byte) : Option Nat :=
  let capture := leAt r 4 8
  let place := byteAt r 22
  let cancel := bitOf place 6
  if capture + 4000000000 < d.now ∨ d.now + 10000000 < capture then some 4
  else if leAt r 20 2 = 0 ∨ 5000 < leAt r 20 2 then some 5
  else if d.ob (Obj.LayerMode (place % 4)) ≠ 2 then some 6
  else if cancel then none
  else if bitsOf place 5 2 ≠ 0 ∨ leAt r 26 4 ≠ 0 ∨ leAt r 30 2 ≠ 0 then some 7
  else none

/-- A record of an accepted datagram (R164). -/
def Dev.targetRecord (d : Dev) (src : Nat) (r : List Byte) : Dev :=
  match d.recordFault r with
  | some p => d.targetDiscard p src
  | none =>
    let age := (d.now - leAt r 4 8) / 1000
    d.targetPut (r.take 26 ++ leBytes src 2 ++ leBytes (min 0xFFFFFFFF age) 4)

/-- CLEAR_SOURCE goes into the ring as a record with CANCEL and TargetId 0xFFFF_FFFF (R164). -/
def clearSourceRec (src : Nat) : List Byte :=
  leBytes 0xFFFFFFFF 4 ++ List.replicate 18 0 ++ leBytes 64 1 ++ List.replicate 3 0 ++ leBytes src 2 ++ leBytes 0 4

/-- The records of a target-list-in message. -/
def Dev.targetRecords (d : Dev) (src : Nat) : Nat → List Byte → Dev
  | 0, _ => d
  | n + 1, b => (d.targetRecord src (b.take 32)).targetRecords src n (b.drop 32)

end Sys2Proof.Machine
end

