-- ==== Sys2Proof/Machine/MeterOps.lean ====
section
/-! DEFINITION. The metering unit: the wall clock, billing periods, checkpoints and product (R64, R480 to R486). -/
namespace Sys2Proof.Machine

/-! ## The wall clock (R64) -/

/-- UtcOffset in ns. -/
def Dev.utcOffset (d : Dev) : Int := sx 64 (d.ob Obj.UtcOffset)

/-- The wall clock in ns since 1970 UTC. -/
def Dev.wall (d : Dev) : Int := (d.now : Int) + d.utcOffset

/-- The wall clock as the 64-bit count that records carry. -/
def Dev.wallNat (d : Dev) : Nat := unsx 64 d.wall

/-- PeriodEnd, 0 where none is set. -/
def Dev.periodEnd (d : Dev) : Nat := d.ob Obj.PeriodEnd

/-- PeriodLength in ns. -/
def Dev.periodLen (d : Dev) : Nat := d.ob Obj.PeriodLength * 1000000000

/-- Flags of the period header (R483). -/
def pfStretched : Nat := 1
def pfSteppedForward : Nat := 2
def pfEndedByStep : Nat := 4
def pfIncomplete : Nat := 8
def pfClockUnset : Nat := 16

/-- MTR_STATUS follows the current period (R489). -/
def Dev.fixMtrStatus (d : Dev) : Dev :=
  let f := d.mtr.flags
  let w := b2n d.mtr.wallSet + b2n (bitOf f 0) * 2 + b2n (bitOf f 1) * 4 + b2n (bitOf f 3) * 8 + b2n (d.periodEnd == 0) * 16
  d.setF Reg.MTR_STATUS 4 0 w

def Dev.orPeriodFlags (d : Dev) (f : Nat) : Dev := { d with mtr := { d.mtr with flags := d.mtr.flags ||| f } }

/-! ## Periods (R482, R483) -/

/-- Off actions that have fired and wait for a measurement are credited with their FireFt before their period closes (R480). -/
def Dev.creditOffs (d : Dev) : Dev :=
  let due := d.shq.acts.filter (fun a => a.action == 0 && a.openAt != 0)
  let d := due.foldl (fun d a => d.meterOff a.account a.openAt a.fireFt false) d
  { d with shq := { d.shq with acts := d.shq.acts.map (fun a => if a.action = 0 then { a with openAt := 0 } else a) } }

/-- AccountsInUse: accounts with a nonzero quantity in the current period (R519). -/
def Dev.accountsInUse (d : Dev) : Nat := ((d.mtr.accts.filter (fun p => p.2.used)).map (fun p => p.1 / 4)).eraseDups.length

/-- The capacity of accounts is reached when all 4,096 are in use (R518). -/
def Dev.accountsFull (d : Dev) : Dev := if 4096 ≤ d.accountsInUse then d.reach 6 else d

/-- The period's last pages: its entries, then its header (R483). -/
def Dev.closePeriod (d : Dev) (endWall : Nat) : Dev :=
  let d := d.creditOffs.accountsFull
  let es := d.mtr.accts.filter (fun p => p.2.used)
  let d := d.queueEntries 5 es
  let d := d.queuePage 5 6 1 (periodHeader d endWall d.now es.length)
  d.event 1 0xB004 [.w (d.rd Reg.MTR_PERIOD).toNat, .w es.length]

/-- Opens a period: every quantity 0. -/
def Dev.openPeriod (d : Dev) (idx endWall : Nat) : Dev :=
  let d := d.wr Reg.MTR_PERIOD (wd idx)
  let d := d.setOb Obj.PeriodEnd endWall
  let d := (List.range 4).foldl (fun d l => d.wr64 (Reg.MTR_UNALLOC_LO l) 0) d
  let wall := d.wallNat
  let now := d.now
  let d := { d with mtr := { d.mtr with
    accts := [], flags := (if d.mtr.wallSet then 0 else pfClockUnset), startWall := wall, startFt := now
    stepBack := 0, stepForward := 0, entriesLost := 0 } }
  d.fixMtrStatus

/-- The period whose end the wall clock reaches closes, and the next one opens (R482). -/
def Dev.periodReached (d : Dev) : Dev :=
  let e := d.periodEnd
  let idx := (d.rd Reg.MTR_PERIOD).toNat
  (d.closePeriod e).openPeriod (idx + 1) (if d.periodLen = 0 then 0 else e + d.periodLen)

/-- Whether the current period is due to close. -/
def Dev.periodDue (d : Dev) : Bool :=
  d.hostOn && d.rcd.scanDone && d.mtr.wallSet && d.periodEnd != 0 && decide ((d.periodEnd : Int) ≤ d.wall)

/-- The skip page of R485: the periods from the closed one's end that lie wholly before the new wall clock. -/
def Dev.skipPage (d : Dev) (first n fromWall toWall : Nat) : Dev :=
  if n = 0 then d
  else
    let body := leBytes first 4 ++ leBytes n 4 ++ leBytes fromWall 8 ++ leBytes toWall 8 ++ List.replicate 200 0
    (d.queuePage 5 7 1 body).event 1 0xB005 [.w first, .w n]

/-- A forward step at or past PeriodEnd (R485); `d` still has the old wall clock. -/
def Dev.stepPastEnd (d : Dev) (newOff : Nat) : Dev :=
  let e := d.periodEnd
  let idx := (d.rd Reg.MTR_PERIOD).toNat
  let len := d.periodLen
  let d := d.orPeriodFlags pfEndedByStep
  let d := d.closePeriod d.wallNat
  let d := d.setOb Obj.UtcOffset newOff
  let n := if len = 0 then 0 else (d.wall - (e : Int)).toNat / len
  let d := d.skipPage (idx + 1) n e (e + n * len)
  d.openPeriod (idx + 1 + n) (if len = 0 then 0 else e + (n + 1) * len)

/-- A close that is due comes before what else happens in its millisecond (R488). -/
def Dev.closeDue (d : Dev) : Dev := if d.periodDue then d.periodReached else d

/-- A change of UtcOffset with the cause of 0x1009 (R64, R482, R485). -/
def Dev.setUtc (d : Dev) (v : Int) (cause : Nat) : Dev :=
  let d := d.closeDue
  let s := v - d.utcOffset
  let pat := unsx 64 v
  if !d.mtr.wallSet then
    let d := d.setOb Obj.UtcOffset pat
    let d := { d with mtr := { d.mtr with wallSet := true } }
    let d := d.event 0 0x1009 [.wI (s / 1000000000), .h cause]
    (d.event 1 0xB007 [.h (if cause = 1 then 2 else 1)]).fixMtrStatus
  else if s = 0 then d
  else
    let d := d.event 0 0x1009 [.wI (s / 1000000000), .h cause]
    let idx := (d.rd Reg.MTR_PERIOD).toNat
    if s < 0 then
      let d := d.orPeriodFlags pfStretched
      let d := { d with mtr := { d.mtr with stepBack := d.mtr.stepBack + (-s).toNat } }
      let d := d.setOb Obj.UtcOffset pat
      (d.event 1 0xB006 [.w idx, .wI (s / 1000000000)]).fixMtrStatus
    else if d.periodEnd = 0 || decide (d.wall + s < (d.periodEnd : Int)) then
      let d := d.orPeriodFlags pfSteppedForward
      let d := { d with mtr := { d.mtr with stepForward := d.mtr.stepForward + s.toNat } }
      let d := d.setOb Obj.UtcOffset pat
      (d.event 1 0xB006 [.w idx, .wI (s / 1000000000)]).fixMtrStatus
    else d.stepPastEnd pat

/-- Seconds from 1970 to the GPS epoch (R64). -/
def gpsEpochS : Nat := 315964800

/-- UtcOffset formed from the epoch and GpsUtcLeap (R64). -/
def Dev.gnssUtc (d : Dev) : Int :=
  (d.ob Obj.SystemEpochGps : Int) + (gpsEpochS * 1000000000 : Nat) - sx 16 (d.ob Obj.GpsUtcLeap) * 1000000000

/-- A write of PeriodEnd (R482). -/
def Dev.writePeriodEnd (d : Dev) (v : Nat) : WRes :=
  let d := d.closeDue
  if (v : Int) ≤ d.wall then d.no 0x0301 else (d.setOb Obj.PeriodEnd v).fixMtrStatus.yes

/-- A run's cells in its account. -/
def Dev.meterRun (d : Dev) (word len fresh : Nat) : Dev :=
  let k := acctKey word
  let a := d.acct k
  d.setAcct k { a with
    area := (a.area + len) % 2 ^ 32, newCells := (a.newCells + fresh) % 2 ^ 32, changed := true }

/-- A run of this fabric cycle counts in the account that the clear left (R488). -/
def Dev.runsAgain (d : Dev) (v : Nat) : Dev :=
  (d.mtr.runsNow.filter (fun r => r.1 == cycleOf d.now && (v == 0xFFFF || acctKey r.2.1 / 4 == v))).foldr
    (fun r (d : Dev) => d.meterRun r.2.1 r.2.2.1 r.2.2.2) d

/-- Clearing accounts (R486, R434). -/
def Dev.accountsClear (d : Dev) (r : Req) (v : Nat) : WRes :=
  if v < 4096 ∨ v = 0xFFFF then
    let d := d.accountsFull
    let d := { d with mtr := { d.mtr with
      accts := if v = 0xFFFF then [] else SMap.keep (fun k => k / 4 != v) d.mtr.accts } }
    let d := d.orPeriodFlags pfIncomplete
    ((d.event 1 0x8031 [.h v, .h (d.levelOf r)]).runsAgain v).fixMtrStatus.yes
  else d.no 0x0301

/-! ## Checkpoints (R484) -/

/-- Writes a checkpoint: the header page, then the entries changed since the last one. -/
def Dev.checkpoint (d : Dev) : Dev :=
  let es := d.mtr.accts.filter (fun p => p.2.changed)
  let d := d.setBit Reg.MTR_STATUS 5 true
  let d := d.queuePage 4 4 1 (periodHeader d d.periodEnd 0 es.length)
  let d := d.queueEntries 4 es
  let now := d.now
  { d with mtr := { d.mtr with
    accts := d.mtr.accts.map (fun p => (p.1, { p.2 with changed := false })), checkpointAt := now } }

/-- The pages of the checkpoint area that belong to period `idx`, newest first. -/
def checkpointPages (idx : Nat) : List Page → List Page
  | [] => []
  | p :: ps => if p.kind = 4 ∧ leAt p.data 0 4 ≠ idx then [] else p :: checkpointPages idx ps

/-- The entries of a Kind 5 page. -/
def pageEntries (p : Page) : List (Nat × Acct) :=
  (List.range p.count).map (fun i => acctOfBytes ((p.data.drop (32 * i)).take 32))

/-- The newest entry of each account and layer. -/
def newestEntries (ps : List Page) : SMap Acct :=
  ((ps.filter (fun p => p.kind == 5)).reverse.flatMap pageEntries).foldl (fun m e => SMap.set (fun _ => Acct.reset) m e.1 e.2) []

/-- Takes the current period from a checkpoint header. -/
def Dev.fromHeader (d : Dev) (h : List Byte) (accts : SMap Acct) : Dev :=
  let d := d.wr Reg.MTR_PERIOD (wd (leAt h 0 4))
  let d := d.setOb Obj.PeriodEnd (leAt h 16 8)
  let d := (List.range 4).foldl (fun d l => d.wr64 (Reg.MTR_UNALLOC_LO l) (leAt h (64 + 8 * l) 8)) d
  let d := { d with mtr := { d.mtr with
    accts := accts, flags := leAt h 4 2, startWall := leAt h 8 8, startFt := leAt h 24 8, stepBack := leAt h 40 8
    stepForward := leAt h 48 8, entriesLost := leAt h 60 4 } }
  d.fixMtrStatus

/-- What the archive says of the period after the last closed one: its index and its end. -/
def Dev.afterArchive (d : Dev) : Option (Nat × Nat) :=
  let ps := (d.area 5).pages
  match ps.find? (fun p => p.kind == 6) with
  | none => none
  | some h =>
    let idx := leAt h.data 0 4
    let len := d.periodLen
    let e := leAt h.data 16 8
    match ps.find? (fun p => p.kind == 7 && decide (h.seq < p.seq)) with
    | some s => some (leAt s.data 0 4 + leAt s.data 4 4, if len = 0 then 0 else leAt s.data 16 8 + len)
    | none => some (idx + 1, if len = 0 ∨ e = 0 then 0 else e + len)

/-- Entries that the checkpoint area got since a close: of the period that followed it. Their pages carry no PeriodIndex without a
header of it: DEDUCED. -/
def Dev.entriesSince (d : Dev) (ft : Nat) : SMap Acct := newestEntries ((d.area 4).pages.filter (fun p => decide (ft ≤ p.ft)))

/-- CloseFt of the newest header in the archive. -/
def Dev.lastClose (d : Dev) : Nat :=
  match (d.area 5).pages.find? (fun p => p.kind == 6) with
  | some h => leAt h.data 32 8
  | none => 0

/-- The period after the last closed one, with the entries written since. -/
def Dev.openRestored (d : Dev) (idx endWall : Nat) : Dev :=
  let es := d.entriesSince d.lastClose
  let d := d.openPeriod idx endWall
  { d with mtr := { d.mtr with accts := es } }

/-- The start-up restore of the current period (R482 to R484). -/
def Dev.restorePeriod (d : Dev) : Dev :=
  let cps := (d.area 4).pages
  let opened := (d.afterArchive).getD (0, d.periodEnd)
  match cps.find? (fun p => p.kind == 4) with
  | some h =>
    let idx := leAt h.data 0 4
    if idx < opened.1 then d.openRestored opened.1 opened.2
    else d.fromHeader h.data (newestEntries (checkpointPages idx cps))
  | none => d.openPeriod opened.1 opened.2

/-! ## Quantities (R480, R481) -/

/-- Counts an executed on or level from the off state. -/
def Dev.meterOn (d : Dev) (word : Nat) : Dev :=
  let k := acctKey word
  let a := d.acct k
  d.setAcct k { a with actuations := (a.actuations + 1) % 2 ^ 32, changed := true }

/-- Adds a run's cells, and keeps the run for its fabric cycle. -/
def Dev.meterArea (d : Dev) (word len fresh : Nat) : Dev :=
  let d := d.meterRun word len fresh
  let c := cycleOf d.now
  { d with mtr := { d.mtr with runsNow := (c, word, len, fresh) :: d.mtr.runsNow.filter (fun r => r.1 == c) } }

/-- Adds product to an account. -/
def Dev.meterProduct (d : Dev) (k units : Nat) : Dev :=
  let a := d.acct k
  d.setAcct k { a with product := (a.product + units) % 2 ^ 64, changed := true }

/-- Shares `p` pulses of a layer over the accounts' on-times in the ended frame (R481): the parts of 2^−16 pulse, with the remainder
carried. `parts` gives account keys and on-times. -/
def Dev.shareProduct (d : Dev) (layer p : Nat) (parts : List (Nat × Nat)) : Dev :=
  let total := (parts.map (fun x => x.2)).sum
  if total = 0 then
    d.wr64 (Reg.MTR_UNALLOC_LO layer) ((d.rd64 (Reg.MTR_UNALLOC_LO layer) + p * 65536) % 2 ^ 64)
  else
    let units := p * 65536 + d.mtr.remainder.getD layer 0
    let given := parts.map (fun x => (x.1, units * x.2 / total))
    let used := (given.map (fun x => x.2)).sum
    let d := given.foldl (fun d x => d.meterProduct x.1 x.2) d
    { d with mtr := { d.mtr with remainder := d.mtr.remainder.set layer (units - used) } }

end Sys2Proof.Machine
end

