-- ==== Sys2Proof/Machine/LedgerOps.lean ====
section
/-! DEFINITION. The coverage ledger: runs, records, exchange, gaps and replay (R186 to R192). -/
namespace Sys2Proof.Machine

/-! ## Membership (R31) -/

/-- The epoch is set (R62). -/
def Dev.epochSet (d : Dev) : Bool := d.ob Obj.SystemEpochGps != 0xFFFFFFFFFFFFFFFF

/-- The package is a member of a system: number, epoch and field time from the time master, or the package is that master itself. -/
def Dev.member (d : Dev) : Bool :=
  let n := d.ob Obj.PackageNumber
  decide (1 ≤ n) && decide (n ≤ 10000) && d.epochSet && (d.tmst.refHeld || d.tmst.master == n)

/-- Another package sends under this package's number (R33). -/
def Dev.ownNumberHeard (d : Dev) (bus : Nat) : Dev :=
  if d.ib.dupNumber then d
  else Dev.event { d with ib := { d.ib with dupNumber := true } } 0 0x701C [.h bus, .q d.now]

/-! ## Records (R188) -/

/-- The 30 bytes that the check covers. -/
def LedRec.body (r : LedRec) : List Byte :=
  leBytes r.source 2 ++ leBytes r.flags 1 ++ leBytes r.cell 1 ++ leBytes r.seq 4 ++ leBytes r.ft 8
    ++ leBytes (unsx 32 r.cx) 4 ++ leBytes (unsx 32 r.cy) 4 ++ leBytes r.len 2 ++ leBytes r.account 2 ++ leBytes r.origin 2

def LedRec.toBytes (r : LedRec) : List Byte := r.body ++ leBytes r.crc 2

def ledRecOf (b : List Byte) : LedRec :=
  { source := leAt b 0 2, flags := byteAt b 2, cell := byteAt b 3, seq := leAt b 4 4, ft := leAt b 8 8
    cx := sx 32 (leAt b 16 4), cy := sx 32 (leAt b 20 4), len := leAt b 24 2, account := leAt b 26 2, origin := leAt b 28 2
    crc := leAt b 30 2 }

/-- Check 4 of R186. -/
def runOk (cx : Int) (len : Nat) : Bool :=
  decide (1 ≤ len) && decide (len ≤ 512) && decide ((cx % 512).toNat + len ≤ 512)

/-! ## Painting (R187) -/

/-- Adds 1 to the coverage of `n` cells of a pane from offset `off`; answers how many went from 0 to 1. -/
def Dev.paintCells (d : Dev) (p : Pane) (off : Nat) : Nat → Dev × Nat
  | 0 => (d, 0)
  | n + 1 =>
    let b := d.paneByte p off
    let c := b / 64
    let d := d.setPaneByte p off (min 3 (c + 1) * 64 + b % 64)
    let r := d.paintCells p (off + 1) n
    (r.1, r.2 + b2n (c == 0))

/-- The pane of a run, created where it is missing and there is room. -/
def Dev.runPane (d : Dev) (px py : Int) : Dev :=
  if (d.pane px py).isSome || decide (paneRoom ≤ d.look.panes.length) then d
  else
    let d := d.addPane px py
    let d := { d with look := { d.look with lostEpisode := false } }
    d.event 1 0x3012 [.h (i16 px), .h (i16 py), .h 1]

/-- Steps 1 and 2 of R187: coverage, its generation, and the fetches and lines touched. Answers the cells newly covered. -/
def Dev.paintRun (d : Dev) (cx cy : Int) (len layer : Nat) : Dev × Nat :=
  let px := cx / 512
  let py := cy / 512
  let d := d.runPane px py
  match d.pane px py with
  | none =>
    let d := d.addOb Obj.LedgerCellsLost len
    if d.look.lostEpisode then (d, 0)
    else
      (Dev.event { d with look := { d.look with lostEpisode := true } } 1 0x302A [.h (i16 px), .h (i16 py)], 0)
  | some p =>
    let off := layer * 262144 + (cy % 512).toNat * 512 + (cx % 512).toNat
    let (d, n) := d.paintCells p off len
    let d := d.incOb Obj.CoverageGeneration
    (d.touchPane p off len, n)

/-! ## The partition (R188) -/

/-- Records the partition holds at most, and those that one block erase removes. -/
def ledMost : Nat := 456960
def ledBlock : Nat := 1792

def Dev.ledStore (d : Dev) (r : LedRec) : Dev :=
  let held := r :: d.led.held
  let held := if ledMost < held.length then held.take (held.length - ledBlock) else held
  let d := { d with led := { d.led with held := held } }
  d.setOb Obj.LedgerHeld held.length

/-! ## Exchange (R189, R352) -/

/-- Whether a ledger port is an enabled one (LedgerPorts). -/
def Dev.ledPort (d : Dev) (p : Nat) : Bool := bitOf (d.ob Obj.LedgerPorts) p

/-- The datagram of a ledger message: its header of 8 bytes, then its body (R352). -/
def Dev.ledDatagram (d : Dev) (ty count : Nat) (body : List Byte) : List Byte :=
  leBytes 1 1 ++ leBytes ty 1 ++ leBytes count 2 ++ leBytes (d.ob Obj.PackageNumber) 2 ++ [0, 0] ++ body

/-- The host Ethernet ports among LedgerPorts, HE0, HE1 and HG0 (bits 4 to 6). -/
def Dev.ledHosts (d : Dev) : List Nat := (List.range 3).filter (fun p => d.ledPort (4 + p))

/-- A ledger datagram crosses once; the host die sends it to LedgerGroup on every host port of LedgerPorts (R347, R352). -/
def Dev.ledSendHosts (d : Dev) (ty count : Nat) (body : List Byte) : Dev :=
  let b := d.ledDatagram ty count body
  let next : List Out :=
    d.ledHosts.map (fun p => ⟨.udp, p, d.ob Obj.LedgerUdpPort, d.ob Obj.LedgerGroup :: natsOf b⟩)
  if next.isEmpty then d else d.crossOut (d.fieldMsg 6 6 b next)

/-- A ledger message on one implement bus: a frame with function 0x18 + `ty`. -/
def Dev.ledSendBus (d : Dev) (p ty : Nat) (body : List Byte) : Dev :=
  (d.ibPush { port := p, prio := 5, fn := 0x18 + ty, stream := 0, data := fdPad body, entries := [], node := 0, on := false }).1

/-- Sends on the way that port `p` stands for: one bus, or the host ports together. -/
def Dev.ledSendOn (d : Dev) (p ty : Nat) (body : List Byte) : Dev :=
  if p < 4 then d.ledSendBus p ty body else d.ledSendHosts ty 1 body

/-- Sends on every enabled ledger port. -/
def Dev.ledSend (d : Dev) (ty : Nat) (body : List Byte) : Dev :=
  let d := (List.range 4).foldl (fun (d : Dev) p => if d.ledPort p then d.ledSendBus p ty body else d) d
  d.ledSendHosts ty 1 body

/-- Offers an own record while the package holds a number (R187, R384). -/
def Dev.ledOffer (d : Dev) (r : LedRec) : Dev :=
  if d.ob Obj.LedgerExchange = 1 && d.ob Obj.PackageNumber != 0 then d.ledSend 0 r.toBytes else d

/-! ## Submission (R186, R187) -/

/-- The bytes of the event with GenHead `g` in an engine's ring, none when it is no longer among the last 1,024. GenHead counts modulo
2^32; an event 0 exists only once it has wrapped. -/
def Dev.aaEvent (d : Dev) (e g : Nat) : Option (List Byte) :=
  let wr := (d.rdM e Reg.AA_WR).toNat
  let back := (wr + 2 ^ 32 - g) % 2 ^ 32
  if 1024 ≤ back ∨ (wr ≤ back ∧ !SMap.get (fun _ => false) d.shq.aaTurned e) then none
  else
    let b := d.bytes (aaAddr e g) 32
    if leAt b 0 4 = g ∧ leAt b 28 4 = g then some b else none

/-- The own record of a run of event `b`. -/
def Dev.runRecord (d : Dev) (b : List Byte) (cx cy : Int) (len : Nat) : LedRec :=
  let word := leAt b 4 4
  let acct := leAt b 10 2
  let measured := bitOf word 27
  let applied := if measured then ((leAt b 12 8 : Int) + sx 32 (leAt b 20 4)).toNat else leAt b 12 8
  let r : LedRec :=
    { source := d.ob Obj.PackageNumber
      flags := bitsOf acct 13 12 + 4 * b2n (!measured) + 8 * b2n (bitOf word 29)
      cell := d.ob Obj.CellSize, seq := d.ob Obj.LedgerNextSeq, ft := applied, cx := cx, cy := cy, len := len
      account := bitsOf acct 11 0, origin := d.ob Obj.FieldOriginCheck, crc := 0 }
  { r with crc := crc16 r.body }

/-- An accepted run (R187, R480). -/
def Dev.runAccepted (d : Dev) (b : List Byte) (cx cy : Int) (len : Nat) : Dev :=
  let r := d.runRecord b cx cy len
  let (d, fresh) := d.paintRun cx cy len (r.flags % 4)
  let d := d.meterArea (leAt b 10 2) len fresh
  let d := d.incOb Obj.LedgerNextSeq
  (d.ledStore r).ledOffer r

/-- The CODE of a submission (R186); a frozen ledger unit takes none (R423). -/
def Dev.runCode (d : Dev) (ev : Option (List Byte)) (cx : Int) (len : Nat) : Nat :=
  if !d.member then 1
  else
    match ev with
    | none => 2
    | some b =>
      if 3 ≤ bitsOf (leAt b 4 4) 26 24 then 3
      else if !runOk cx len then 4
      else if d.led.replaying || d.frozen 0x413 then 5
      else 0

/-- LED_CMD by engine `e` (R186); `gone`: its event is overwritten within this very cycle (R193). -/
def Dev.ledSubmit (d : Dev) (e : Nat) (gone : Bool) : Dev :=
  let cx := swd (d.rdM e Reg.LED_CX)
  let cy := swd (d.rdM e Reg.LED_CY)
  let len := d.fM e Reg.LED_RUN 9 0
  let ev := if gone then none else d.aaEvent e (d.rdM e Reg.LED_EVENT).toNat
  let code := d.runCode ev cx len
  let d := d.wrM e Reg.LED_RESULT (wd (2 ^ 31 + code))
  if code = 0 then d.runAccepted (ev.getD []) cx cy len
  else (d.incOb Obj.LedgerRunsRefused).event (dieOf e) 0x3026 [.h e, .h code]

/-! ## Received records (R189, R190) -/

def Dev.ledSrc (d : Dev) (src : Nat) : Option LedSrc := d.led.srcs.find? (fun x => x.source == src)

def Dev.setLedSrc (d : Dev) (x : LedSrc) : Dev :=
  let rest := d.led.srcs.filter (fun y => y.source != x.source)
  let d := { d with led := { d.led with srcs := x :: rest } }
  d.setOb Obj.LedgerSources d.led.srcs.length

/-- Rejected records (R189): 0x3027 at most once per second. -/
def Dev.ledReject (d : Dev) (src cause : Nat) : Dev :=
  let d := d.incOb Obj.LedgerRejected
  let n := d.led.rejSince + 1
  let d := { d with led := { d.led with rejSince := n } }
  let before := d.rcd.staged.length
  let d := d.eventEvery 1000000000 1 0x3027 0 [.h src, .h cause, .w n]
  if before < d.rcd.staged.length then { d with led := { d.led with rejSince := 0 } } else d

/-- Contig moves over the sequences that have arrived (R190); at most 256 are held above it. -/
def LedSrc.absorb (x : LedSrc) : Nat → LedSrc
  | 0 => x
  | n + 1 =>
    if x.seen.contains (x.contig + 1) then
      LedSrc.absorb { x with contig := x.contig + 1, seen := x.seen.filter (fun s => s != x.contig + 1) } n
    else x

/-- Whether a sequence above Contig is known to be missing. -/
def LedSrc.gap (x : LedSrc) : Bool := !x.seen.isEmpty || decide (x.contig < x.far)

/-- The gap clock of a source follows its map. -/
def LedSrc.gapClock (x : LedSrc) (now : Nat) (moved : Bool) : LedSrc :=
  if !x.gap then { x with gapAt := none, askedAt := none, tries := 0 }
  else if moved || x.gapAt.isNone then { x with gapAt := some now, askedAt := none, tries := 0 }
  else x

/-- A sequence has arrived. -/
def LedSrc.arrive (x : LedSrc) (seq now : Nat) : LedSrc :=
  let y := LedSrc.absorb { x with seen := seq :: x.seen } 257
  y.gapClock now (decide (x.contig < y.contig))

/-- A sequence is heard of and not kept: it is missing (R190, R191). -/
def LedSrc.note (x : LedSrc) (seq now : Nat) : LedSrc :=
  if seq ≤ x.contig ∨ x.seen.contains seq then x
  else LedSrc.gapClock { x with far := if x.far ≤ x.contig then seq else min x.far seq } now false

def LedSrc.fresh (src : Nat) : LedSrc :=
  { source := src, contig := 0, seen := [], far := 0, gapAt := none, askedAt := none, tries := 0 }

/-- The cause of rejecting a received record, 0 for none (R189). -/
def Dev.ledCause (d : Dev) (r : LedRec) : Nat :=
  if crc16 r.body ≠ r.crc then 1
  else if r.source = 0 ∨ 10000 < r.source then 2
  else if r.source = d.ob Obj.PackageNumber then 3
  else if r.origin ≠ d.ob Obj.FieldOriginCheck then 4
  else if r.cell ≠ d.ob Obj.CellSize then 5
  else if !runOk r.cx r.len then 6
  else 0

/-- A good record of another package (R189, R190). -/
def Dev.ledTake (d : Dev) (r : LedRec) : Dev :=
  let x := (d.ledSrc r.source).getD (LedSrc.fresh r.source)
  if r.seq ≤ x.contig ∨ x.seen.contains r.seq then d.incOb Obj.LedgerDuplicates
  else if x.contig + 256 < r.seq then d.setLedSrc (x.note r.seq d.now)
  else
    let d := d.setLedSrc (x.arrive r.seq d.now)
    let d := d.incOb Obj.LedgerReceived
    let d := d.ledStore r
    (d.paintRun r.cx r.cy r.len (r.flags % 4)).1

/-- Whether a package has been asked for records and has not yet closed the gap. -/
def Dev.ledAsked (d : Dev) (sender : Nat) : Bool := (d.ledSrc sender).any (fun x => x.askedAt.isSome)

/-- A ledger record from package `sender` on port `port` (R189, R191). What an asked package sends is its answer, which names that
package as its source (R192). -/
def Dev.ledReceive (d : Dev) (port sender : Nat) (b : List Byte) : Dev :=
  let r := ledRecOf b
  let c := d.ledCause r
  if c ≠ 0 then
    let d := d.ledReject r.source c
    if c = 3 then d.ownNumberHeard port else d
  else if r.source ≠ sender ∧ d.ledAsked sender then d.ledReject r.source 7
  else if d.led.replaying then d.setLedSrc (((d.ledSrc r.source).getD (LedSrc.fresh r.source)).note r.seq d.now)
  else if d.frozen 0x413 then d
  else d.ledTake r

/-! ## Gaps (R190, R192) -/

/-- Body of a resend request. -/
def resendBody (src first : Nat) : List Byte := leBytes src 2 ++ [0, 0] ++ leBytes first 4
/-- Body of a gone answer. -/
def goneBody (src count first : Nat) : List Byte := leBytes src 2 ++ leBytes count 2 ++ leBytes first 4

/-- Asks for the first missing sequence of a source. -/
def Dev.ledAsk (d : Dev) (x : LedSrc) : Dev :=
  let d := d.setLedSrc { x with askedAt := some d.now, tries := x.tries + 1 }
  d.ledSend 1 (resendBody x.source (x.contig + 1))

/-- The sequences `first` to `first + count − 1` of a source are gone (R190). -/
def Dev.ledGone (d : Dev) (x : LedSrc) (first count : Nat) : Dev :=
  let top := first + count - 1
  if count = 0 ∨ top ≤ x.contig then d
  else
    let lost := top - x.contig - (x.seen.filter (fun s => decide (s ≤ top))).length
    let y := LedSrc.absorb { x with contig := top, seen := x.seen.filter (fun s => decide (top < s)) } 257
    let d := d.setLedSrc (y.gapClock d.now true)
    let d := d.addOb Obj.LedgerGapRecords lost
    d.event 1 0x3028 [.h x.source, .w first, .w count]

/-- What ends a source's first gap: the lowest sequence that has arrived. -/
def LedSrc.firstSeen (x : LedSrc) : Nat :=
  x.seen.foldl (fun a s => if a = 0 then s else min a s) 0

/-- A gap is given up (R192): up to the first sequence that has arrived, or through the one that was heard of. -/
def Dev.ledGiveUp (d : Dev) (x : LedSrc) : Dev :=
  d.ledGone x (x.contig + 1) (if x.seen.isEmpty then x.far - x.contig else x.firstSeen - x.contig - 1)

/-- Answers a resend request for own records from `first` (R190), up to 44 to a datagram on the host ports (R189). -/
def Dev.ledAnswer (d : Dev) (port first : Nat) : Dev :=
  let me := d.ob Obj.PackageNumber
  let next := d.ob Obj.LedgerNextSeq
  let mine := d.led.held.filter (fun r => r.source == me)
  let oldest := mine.foldl (fun a r => min a r.seq) next
  let d := if first < oldest then d.ledSendOn port 2 (goneBody me (min 65535 (oldest - first)) first) else d
  let due := (mine.filter (fun r => decide (first ≤ r.seq) && decide (r.seq < first + 256))).reverse
  if port < 4 then due.foldl (fun d r => d.ledSendBus port 0 r.toBytes) d
  else
    (List.range 6).foldl (fun (d : Dev) i =>
      let part := (due.drop (44 * i)).take 44
      if part.isEmpty then d else d.ledSendHosts 0 part.length (part.flatMap LedRec.toBytes)) d

/-! ## Replay (R191) -/

/-- LedgerReplay 1. -/
def Dev.ledReplay (d : Dev) (v : Nat) : WRes :=
  if v ≠ 1 then d.no 0x0301
  else if d.inField then d.no 0x0401
  else
    let d := d.look.panes.foldl (fun d p => (d.touchPane p 0 paneSize).clearCoverage p) d
    let d := { d with led := { d.led with replaying := true } }
    (d.setOb Obj.LedgerState 1).yes

/-- The replay completes: every record of this origin and cell size, oldest first. -/
def Dev.ledReplayed (d : Dev) : Dev :=
  let origin := d.ob Obj.FieldOriginCheck
  let size := d.ob Obj.CellSize
  let rs := (d.led.held.filter (fun r => r.origin == origin && r.cell == size)).reverse
  let d := rs.foldl (fun d r => (d.paintRun r.cx r.cy r.len (r.flags % 4)).1) d
  let d := { d with led := { d.led with replaying := false } }
  (d.setOb Obj.LedgerState 2).event 1 0x3029 [.w rs.length]

end Sys2Proof.Machine
end

