-- ==== Sys2Proof/Machine/Lookahead.lean ====
section
/-! DEFINITION. The commands of the frame unit, the pane store, pane fetches and target reception (R147, R149, R153 to R158, R163 to
R165), but for the frame start itself. -/
namespace Sys2Proof.Machine

/-! ## Frames -/

/-- A write of FrameLength (R147). -/
def Dev.writeFrameLength (d : Dev) (v : Nat) : WRes :=
  if v < 250 ∨ 10000 < v ∨ v % 250 ≠ 0 then d.no 0x0301
  else if d.inField || !d.queuesEmpty then d.no 0x0401
  else if v = d.frame.len then d.yes
  else
    let at_ := (d.now / (v * 1000) + 1) * (v * 1000)
    Dev.yes { d.setOb Obj.FrameLength v with frame := { d.frame with nextLen := v, nextAt := at_ } }

def Dev.frameBusy (d : Dev) (e : Nat) : Bool := SMap.get (fun _ => false) d.frame.busy e
def Dev.setBusy (d : Dev) (e : Nat) (b : Bool) : Dev :=
  { d with frame := { d.frame with busy := SMap.set (fun _ => false) d.frame.busy e b } }

/-- Share of the frame used so far, % (R476). -/
def Dev.frameShare (d : Dev) : Nat := (d.now - d.frame.start) * 100 / (d.frame.len * 1000)

/-- FRM_DONE of engine `e` (R149, R405). -/
def Dev.frmDone (d : Dev) (e : Nat) : Dev :=
  if d.frameBusy e then
    let share := d.frameShare
    let d := { d with frame := { d.frame with share := max d.frame.share share } }
    if d.bitM e Reg.FRM_STATUS 1 then (d.setBitM e Reg.FRM_STATUS 1 false).raise e 0
    else (d.setBusy e false).setBitM e Reg.IRQ_PEND 0 false
  else d

/-! ## Panes -/

/-- PaneCommand (R154, R155). -/
def Dev.paneCommand (d : Dev) (r : Req) (v : Nat) : WRes :=
  let key := d.stageKey r
  let x := sx 16 (d.obC key Obj.PaneX)
  let y := sx 16 (d.obC key Obj.PaneY)
  if v = 1 then d.paneCreate x y
  else if v = 2 ∨ v = 3 then
    if d.levelOf r < 2 then d.no 0x0201
    else if v = 2 then d.paneDelete x y
    else d.paneClear x y
  else d.no 0x0301

def Dev.paneCmdReq (d : Dev) (r : Req) (v : Nat) : Dev := d.dictVal r 0x6003 7 1 v (fun d => d.paneCommand r v)

/-- PaneData (R155). -/
def Dev.paneDataWrite (d : Dev) (r : Req) (off : Nat) (data : List Byte) : WRes :=
  let key := d.stageKey r
  let full := d.obC key Obj.PaneWriteMode == 1
  if full && decide (d.levelOf r < 2) then d.no 0x0201
  else d.paneWrite (sx 16 (d.obC key Obj.PaneX)) (sx 16 (d.obC key Obj.PaneY)) full off data

/-- CellSize (R153, R155). -/
def Dev.writeCellSize (d : Dev) (v : Nat) : WRes :=
  if 4 < v then d.no 0x0301
  else if d.look.panes.isEmpty then
    let old := d.ob Obj.CellSize
    let d := (d.policyMark 0x6003 1).setOb Obj.CellSize v
    (if old = v then d else d.event 1 0x3018 [.h old, .h v]).yes
  else d.no 0x0401

/-- PaneWriteMode (R155). -/
def Dev.writePaneMode (d : Dev) (r : Req) (v : Nat) : WRes :=
  if 1 < v then d.no 0x0301
  else if v = 1 ∧ d.levelOf r < 2 then d.no 0x0201
  else if v = 1 ∧ d.inField then d.no 0x0401
  else (d.setObC (d.stageKey r) Obj.PaneWriteMode v).yes

/-! ## Targets -/

/-- A target datagram on HG0 (R163 to R165): checked by the host die, and passed on across the Transom as target-list-in, on M2 and M3
alternately (R347). -/
def Dev.targetDatagram (d : Dev) (b : List Byte) : Dev :=
  if !d.hostOn then d
  else
    match d.datagramFault b with
    | some p => d.targetDiscard p (leAt b 8 2)
    | none =>
      match d.heardSource (leAt b 8 2) (leAt b 4 4) with
      | none => d.targetDiscard 8 (leAt b 8 2)
      | some d =>
        let lane := d.tr.tgtLane
        let d : Dev := { d with tr := { d.tr with tgtLane := 5 - lane } }
        d.crossOut (d.hostMsg 4 lane 2 b)

/-- A target-list-in message on the field side (R164); it crosses on a message lane (R347). -/
def Dev.targetListIn (d : Dev) (b : List Byte) : Dev :=
  let src := leAt b 8 2
  let d := if bitOf (byteAt b 1) 0 then d.targetPut (clearSourceRec src) else d
  d.targetRecords src (leAt b 2 2) (b.drop 16)

/-- Liveness of a source as of now: a datagram accepted less than TargetSourceTimeout ago (R165). -/
def Dev.judgeSource (d : Dev) (s : TgtSrc) : Dev :=
  let live := decide (d.now < s.lastFt + d.ob Obj.TargetSourceTimeout * 1000000)
  if live = s.live then d
  else
    let x : TgtSrc := { s with live := live, lostAt := d.now }
    let srcs := d.look.srcs.map (fun (y : TgtSrc) => if y.slot = s.slot then x else y)
    Dev.setLive { d with look := { d.look with srcs := srcs } } s.slot s.id live

/-- All sources are judged anew: TargetSourceTimeout has changed. -/
def Dev.judgeSources (d : Dev) : Dev := d.look.srcs.foldl Dev.judgeSource d

def Dev.srcAt (d : Dev) (slot : Nat) : Option TgtSrc := d.look.srcs.find? (fun s => s.slot == slot)

/-- Sources whose last accepted datagram is older than TargetSourceTimeout become not live (R165). -/
def Dev.targetTimeout (d : Dev) (slot : Nat) : Dev := match d.srcAt slot with | none => d | some s => d.judgeSource s

/-- A source not live for 60 s gives up its slot (R165). -/
def Dev.targetRelease (d : Dev) (slot : Nat) : Dev :=
  match d.srcAt slot with
  | none => d
  | some s =>
    if !s.live && decide (s.lostAt + 60000000000 ≤ d.now) then
      { d with look := { d.look with srcs := d.look.srcs.filter (fun x => x.slot != slot) } }
    else d

/-! ## Meanings -/

def execFrameLengthWrite (t : Nat) (r : Req) (v : Nat) (s : State) : Host.Outcome State Fault Refusal :=
  s.put ((s.dev.advance t).dictVal r 0x6000 1 2 v (fun d => d.writeFrameLength v))

def execFrmDone (t : Nat) (m : Nat) (s : State) : Host.Outcome State Fault Refusal :=
  s.put ((s.dev.advance t).byMaster m Reg.FRM_DONE_REG true (fun d => d.frmDone m))

def execPaneCreate (t : Nat) (r : Req) (s : State) : Host.Outcome State Fault Refusal :=
  s.put ((s.dev.advance t).paneCmdReq r 1)

def execPaneDelete (t : Nat) (r : Req) (s : State) : Host.Outcome State Fault Refusal :=
  s.put ((s.dev.advance t).paneCmdReq r 2)

def execPaneClearCoverage (t : Nat) (r : Req) (s : State) : Host.Outcome State Fault Refusal :=
  s.put ((s.dev.advance t).paneCmdReq r 3)

def execPaneDataWrite (t : Nat) (r : Req) (off : Nat) (data : List Byte) (s : State) : Host.Outcome State Fault Refusal :=
  s.put ((s.dev.advance t).dictWriteWith r 0x6003 9 off data (fun d => d.paneDataWrite r off data))

def execPaneFetch (t : Nat) (m : Nat) (s : State) : Host.Outcome State Fault Refusal :=
  s.put ((s.dev.advance t).byMaster m Reg.PF_CMD true (fun d => d.paneFetch m))

def execPaneFetchDone (t : Nat) (e tag : Nat) (s : State) : Host.Outcome State Fault Refusal :=
  let d := s.dev.advance t
  s.put (match d.look.fetches.find? (fun f => f.engine == e && f.tag == tag) with
    | some f => d.fetchDone f
    | none => d)

def execTargetDatagram (t : Nat) (b : List Byte) (s : State) : Host.Outcome State Fault Refusal :=
  s.put ((s.dev.advance t).targetDatagram b)

def execTargetListIn (t : Nat) (b : List Byte) (s : State) : Host.Outcome State Fault Refusal :=
  let d := s.dev.advance t
  s.put (if d.anyLane then d.targetListIn b else d)

def execTargetSourceTimeout (t slot : Nat) (s : State) : Host.Outcome State Fault Refusal :=
  s.put ((s.dev.advance t).targetTimeout slot)

def execTargetSourceRelease (t slot : Nat) (s : State) : Host.Outcome State Fault Refusal :=
  s.put ((s.dev.advance t).targetRelease slot)

end Sys2Proof.Machine
end

