-- ==== Sys2Proof/Machine/ShutterCmds.lean ====
section
/-! DEFINITION. The commands of the shutter queues' registers, of the measuring path and of the coverage ledger (R172 to R175, R182,
R185 to R192), but for firing. -/
namespace Sys2Proof.Machine

/-- SHQ_CMD with an OP by engine `m`: the queue is the engine's own (R194). -/
def Dev.shqBy (d : Dev) (m op : Nat) : Dev :=
  d.byMaster m Reg.SHQ_CMD true (fun d => if m < engines && d.fabricOn then d.shqCmd m op else d)

/-- An actuation whose window of 1,000 ms has passed (R182). -/
def Dev.windowClose (d : Dev) (id : Nat) : Dev :=
  match d.shq.acts.find? (fun a => a.id == id && decide (a.fireFt + measureWindow ≤ d.now)) with
  | some a => d.closeAct a
  | none => d

/-- Whether the package has been asking, or waiting to ask, for a source's missing records. -/
def Dev.gapDue (d : Dev) (x : LedSrc) : Bool :=
  match x.gapAt, x.askedAt with
  | some g, none => decide (g + d.ob Obj.LedgerResendDelay * 1000000 ≤ d.now)
  | _, _ => false

def Dev.resendDue (d : Dev) (x : LedSrc) : Bool :=
  match x.askedAt with
  | some a => decide (a + 5 * d.ob Obj.LedgerResendDelay * 1000000 ≤ d.now)
  | none => false

/-- The resend request of a gap that has lasted LedgerResendDelay (R190). -/
def Dev.ledgerGap (d : Dev) (src : Nat) : Dev :=
  match d.ledSrc src with
  | some x => if d.gapDue x then d.ledAsk x else d
  | none => d

/-- An unanswered resend request: repeated up to three times, then the records count as gone (R192). -/
def Dev.ledgerTimeout (d : Dev) (src : Nat) : Dev :=
  match d.ledSrc src with
  | some x => if d.resendDue x then (if x.tries < 4 then d.ledAsk x else d.ledGiveUp x) else d
  | none => d

/-- A resend request that names this package (R190). -/
def Dev.ledgerResend (d : Dev) (port src first : Nat) : Dev :=
  if src = d.ob Obj.PackageNumber ∧ src ≠ 0 then d.ledAnswer port first else d

/-- A gone answer (R190, R192): one from another package than the source is rejected. -/
def Dev.ledgerGone (d : Dev) (sender src count first : Nat) : Dev :=
  if sender ≠ src then d.ledReject src 7
  else
    match d.ledSrc src with
    | some x => d.ledGone x first count
    | none => d

/-! ## Ledger datagrams (R352, R363) -/

/-- Version, Type, Count and length of a ledger datagram. -/
def ledDatagramOk (b : List Byte) : Bool :=
  let ty := byteAt b 1
  let n := leAt b 2 2
  byteAt b 0 == 1
    && ((ty == 0 && decide (1 ≤ n) && decide (n ≤ 44) && b.length == 8 + 32 * n)
      || ((ty == 1 || ty == 2) && n == 1 && b.length == 16))

/-- A ledger datagram of host port `port` reaches the field half. -/
def Dev.ledArrive (d : Dev) (port : Nat) (b : List Byte) : Dev :=
  let sender := leAt b 4 2
  match byteAt b 1 with
  | 0 => (List.range (leAt b 2 2)).foldl (fun (d : Dev) i => d.ledReceive port sender ((b.drop (8 + 32 * i)).take 32)) d
  | 1 => d.ledgerResend port (leAt b 8 2) (leAt b 12 4)
  | _ => d.ledgerGone sender (leAt b 8 2) (leAt b 10 2) (leAt b 12 4)

/-- The host die takes a ledger datagram: a bad one is dropped and counted, which R363 gives no counter; TransomDropped takes it, DESIGN
CHOICE. A good one crosses, or waits for a lane (R345). -/
def Dev.ledHost (d : Dev) (port : Nat) (b : List Byte) : Dev :=
  if !d.hostOn then d
  else if !ledDatagramOk b then d.transomDrop 6 6 (Config.cause 0x7010 3)
  else
    let goes := !d.crossFull 6 true && d.anyLane
    let d := d.crossOut (d.hostMsg 6 6 port b)
    if goes then d.ledArrive port b else d

/-- What another package sends in a datagram of one message. -/
def ledFrom (sender ty : Nat) (body : List Byte) : List Byte :=
  leBytes 1 1 ++ leBytes ty 1 ++ leBytes 1 2 ++ leBytes sender 2 ++ [0, 0] ++ body

def execQueueAction (t m : Nat) (s : State) : Host.Outcome State Fault Refusal := s.put ((s.dev.advance t).shqBy m 1)
def execQueueReplace (t m : Nat) (s : State) : Host.Outcome State Fault Refusal := s.put ((s.dev.advance t).shqBy m 3)

def execMeasurementWindowClose (t id : Nat) (s : State) : Host.Outcome State Fault Refusal :=
  s.put ((s.dev.advance t).windowClose id)

def execAaRdWrite (t m v : Nat) (s : State) : Host.Outcome State Fault Refusal :=
  s.put ((s.dev.advance t).byMaster m Reg.AA_RD true (fun d => d.aaRead m v))

/-- LED_CMD as a register write; `gone` as of the run. -/
def Dev.ledBy (d : Dev) (m : Nat) (gone : Bool) : Dev := d.byMaster m Reg.LED_CMD true (fun d => d.ledSubmit m gone)

def execLedgerRecordRx (t port sender : Nat) (b : List Byte) (s : State) : Host.Outcome State Fault Refusal :=
  let d := s.dev.advance t
  s.put (if port < 4 then d.ledReceive port sender b else d.ledHost port (ledFrom sender 0 b))

def execLedgerResendRequest (t src : Nat) (s : State) : Host.Outcome State Fault Refusal :=
  s.put ((s.dev.advance t).ledgerGap src)

def execLedgerResendRx (t port src first : Nat) (s : State) : Host.Outcome State Fault Refusal :=
  let d := s.dev.advance t
  s.put (if port < 4 then d.ledgerResend port src first else d.ledHost port (ledFrom 0 1 (resendBody src first)))

def execLedgerGoneRx (t sender src count first : Nat) (s : State) : Host.Outcome State Fault Refusal :=
  s.put ((s.dev.advance t).ledgerGone sender src count first)

def execLedgerResendTimeout (t src : Nat) (s : State) : Host.Outcome State Fault Refusal :=
  s.put ((s.dev.advance t).ledgerTimeout src)

def execLedgerReplay (t : Nat) (r : Req) (v : Nat) (s : State) : Host.Outcome State Fault Refusal :=
  s.put ((s.dev.advance t).dictVal r 0x6102 0xD 1 v (fun d => d.ledReplay v))

def execLedgerReplayDone (t : Nat) (s : State) : Host.Outcome State Fault Refusal :=
  let d := s.dev.advance t
  s.put (if d.led.replaying then d.ledReplayed else d)

end Sys2Proof.Machine
end

