-- ==== Sys2Proof/Machine/TimeOps.lean ====
section
/-! DEFINITION. The FT unit: uncertainty, class, sources, the servo and steps; the election of the time master; the Latch's slots
(R42 to R69, R521, R522). -/
namespace Sys2Proof.Machine

/-! ## The reference oscillator's requests (R40): block 0 the engine dies' clocks, block 1 the baseband -/

/-- A block requests the reference oscillator, which starts. -/
def Dev.oscRequest (d : Dev) (block : Nat) : Dev :=
  let rs := if d.clk.requests.contains block then d.clk.requests else d.clk.requests ++ [block]
  { d with clk := { d.clk with requests := rs, oscRunning := true } }

/-- A block withdraws its request; its PLLs, a bit each of `plls`, no longer report lock. -/
def Dev.oscRelease (d : Dev) (block plls : Nat) : Dev :=
  let rs := d.clk.requests.filter (fun b => b != block)
  { d with clk := { d.clk with
      requests := rs
      idleTick := if rs.isEmpty && !d.clk.requests.isEmpty then d.porch.ticks else d.clk.idleTick
      pll := d.clk.pll - (d.clk.pll &&& plls) } }

/-! ## Uncertainty and class (R47, R49) -/

/-- Growth of the uncertainty over `dt` ns at FtDriftBound, in ns. -/
def Dev.driftOver (d : Dev) (dt : Nat) : Nat := d.ob Obj.FtDriftBound * dt / 1000000000

/-- FT_UNC now, ns. -/
def Dev.ftUnc (d : Dev) : Nat := min 0xFFFFFFFF (d.time.uncBase + d.driftOver (d.now - d.time.uncAt))

/-- SyncAge in ns; none before the first sample. -/
def Dev.syncAge (d : Dev) : Option Nat := d.time.ageAt.map (fun a => d.now - a)

/-- SRC of FT_STATUS: 0 none, 1 GNSS, 2 reference messages, 3 IEEE 1588, 4 porch carry. -/
def Dev.ftSrc (d : Dev) : Nat := d.f Reg.FT_STATUS 2 0

/-- The class under a source whose sender's class is `c` (R47). -/
def classUnder (c : Nat) : Nat := if c = 0 then 1 else if c = 3 then 3 else 2

/-- The package's class (R47). -/
def Dev.ftClass (d : Dev) : Nat :=
  match d.ftSrc with
  | 1 => 0
  | 2 => classUnder d.time.refCls
  | 3 => classUnder d.time.ptpCls
  | 0 => if d.bit Reg.FT_STATUS 7 && decide (d.ftUnc < 12500) then 2 else 3
  | _ => 3

/-- FT_STATUS.CLASS and FT_UNC as registers follow the unit. -/
def Dev.fixTime (d : Dev) : Dev :=
  let d := d.setF Reg.FT_STATUS 9 8 d.ftClass
  let d := d.wr Reg.FT_UNC (wd d.ftUnc)
  match d.syncAge with
  | some a => d.wr Reg.FT_AGE (wd (min 0xFFFFFFFF (a / 1000000)))
  | none => d.wr Reg.FT_AGE 0xFFFFFFFF

/-! ## Sources (R46, R48, R51) -/

/-- Validity of a source. -/
def Dev.srcValid (d : Dev) (s : Nat) : Bool :=
  match s with
  | 1 => d.time.gnssValid
  | 2 => d.time.refValid
  | 3 => d.time.ptpValid
  | _ => false

/-- SRC_EN of a source. -/
def Dev.srcEnabled (d : Dev) (s : Nat) : Bool := d.bit Reg.FT_CTRL (15 + s)

def Dev.anySource (d : Dev) : Bool := d.time.gnssValid || d.time.refValid || d.time.ptpValid

/-- The source of highest precedence that is enabled and valid, 0 for none. -/
def Dev.bestSource (d : Dev) : Nat :=
  if d.srcEnabled 1 && d.srcValid 1 then 1
  else if d.srcEnabled 2 && d.srcValid 2 then 2
  else if d.srcEnabled 3 && d.srcValid 3 then 3
  else 0

/-- A change of source is recorded (R46); GNSS becoming the source forms UtcOffset (R64). -/
def Dev.changeSource (d : Dev) (s : Nat) : Dev :=
  let old := d.ftSrc
  if old = s then d
  else
    let d := d.setF Reg.FT_STATUS 2 0 s
    let d := if s = 0 then d else d.setBit Reg.FT_STATUS 7 false
    let d := d.event 0 0x1001 [.h old, .h s, .h d.ftClass]
    if s = 1 then d.setUtc d.gnssUtc 3 else d

/-- The active source is lost: the next one, or holdover (R48, R51). -/
def Dev.sourceLost (d : Dev) : Dev :=
  let old := d.ftSrc
  if old = 0 ∨ old = 4 ∨ (d.srcEnabled old && d.srcValid old) then d.fixTime
  else
    let b := d.bestSource
    if b ≠ 0 then (d.changeSource b).fixTime
    else
      let d := d.setBit Reg.FT_STATUS 7 true
      let d := d.changeSource 0
      (d.event 0 0x1004 [.h old, .w d.ftUnc]).fixTime

/-! ## The servo (R49, R50) -/

/-- 10^30 π and 10^30 π², to the nearest integer. -/
def pi30 : Int := 3141592653589793238462643383280
def piSq30 : Int := 9869604401089358618834490999876

/-- ServoBandwidth in 0.01 Hz. -/
def bwCentiHz (code : Nat) : Nat := [1, 2, 5, 10, 20, 50, 100].getD code 10

/-- wn² · e_s · dt in 10^−60. -/
def servoInc (b : Nat) (e : Int) (dt : Nat) : Int := 4 * piSq30 * (b * b : Nat) * e * dt * 100000000

/-- 1.414 · wn · e_s in 10^−60. -/
def servoProp (b : Nat) (e : Int) : Int := 2828 * pi30 * b * e * 10000000000000000

/-- 200e-6 in 10^−60. -/
def rateMax : Int := 200000000000000000000000000000000000000000000000000000000

/-- FT_RATE from the rate in 10^−60. -/
def ftRateOf (rate : Int) : Int :=
  clampI (-2147483) 2147483
    (roundDiv (rate * 10737418240) 1000000000000000000000000000000000000000000000000000000000000)

/-- Frees a slot of the Latch. -/
def Dev.setSlot (d : Dev) (i : Nat) (x : Option LatchSlot) : Dev :=
  { d with latch := { d.latch with slots := d.latch.slots.set i x } }

/-- A step cancels every pending Latch (R50, R66). -/
def Dev.cancelLatches (d : Dev) : Dev :=
  (List.range 8).foldl (fun d i =>
    match d.latch.slots.getD i none with
    | none => d
    | some x =>
      let m := d.latch.owners.getD i 0
      let d := d.setSlot i none
      let d := d.wrM m Reg.LAT_RESULT (wd (6 * 2 ^ 28 + i))
      d.event 0 0x1006 [.h i, .q x.target]) d

/-- The marks of the channels' oscillators, which run on through a step of FT. -/
def GnssUnit.shiftNco (g : GnssUnit) (e : Int) : GnssUnit :=
  let shift (x : GnssChan) : GnssChan := { x with ncoFt := ((x.ncoFt : Int) - e).toNat }
  { g with chans := g.chans.foldl (fun m p => SMap.set (fun _ => GnssChan.reset) m p.1 (shift p.2)) [] }

/-- An instant on the scale that FT has after it was set back by `e` ns. -/
def backBy (e : Int) (t : Nat) : Nat := ((t : Int) - e).toNat

/-- The instants from which the FT unit measures ages and timeouts, and its captures, keep their distance to now where FT moves by −e at
once: DESIGN CHOICE (entry 121). -/
def FtUnit.shift (u : FtUnit) (e : Int) : FtUnit :=
  { u with
    lastSample := u.lastSample.map (backBy e), ageAt := u.ageAt.map (backBy e), uncAt := backBy e u.uncAt
    gnssFrom := backBy e u.gnssFrom, ptpAt := backBy e u.ptpAt }

def TimeMaster.shift (u : TimeMaster) (e : Int) : TimeMaster :=
  { u with
    captures := u.captures.map (fun c => { c with capture := backBy e c.capture })
    roundMsgs := u.roundMsgs.map (fun m => { m with capture := backBy e m.capture }) }

def HostTime.shift (u : HostTime) (e : Int) : HostTime :=
  { u with acceptedAt := backBy e u.acceptedAt, betterAt := if u.betterAt = 0 then 0 else backBy e u.betterAt }

/-- The ends of frames that are on their way across the Transom or on an implement bus. -/
def Transom.shift (u : Transom) (e : Int) : Transom := { u with busy := u.busy.map (fun p => (p.1, p.2.1, backBy e p.2.2)) }

def IbUnit.shift (u : IbUnit) (e : Int) : IbUnit :=
  { u with sendEnd := u.sendEnd.foldl (fun m p => SMap.set (fun _ => 0) m p.1 (backBy e p.2)) [] }

/-- FT takes a new value at once, `e` ns below the old one: pending Latches are cancelled, and the oscillators and clocks that run on
through the change keep their phase (R50, R63, R66). -/
def Dev.setFt (d : Dev) (ft : Nat) (e : Int) : Dev :=
  let d := d.cancelLatches
  { d with
    time := { d.time.shift e with ft := ft }, tmst := d.tmst.shift e, htime := d.htime.shift e, gnss := d.gnss.shiftNco e
    ib := d.ib.shift e, tr := d.tr.shift e }

/-- FT := FT − e (R49). -/
def Dev.stepFt (d : Dev) (e : Int) (forced : Bool) : Dev :=
  let d := d.setFt ((d.time.ft : Int) - e * 4294967296).toNat e
  let d := d.incOb Obj.StepCount
  let d := d.setBit Reg.FT_STATUS 13 true
  d.event 0 0x1002 [.wI (clampI (-2147483648) 2147483647 (-e / 1000)), .h (if forced then 2 else 1)]

/-- The slewing part of R49, with the fault of R50. -/
def Dev.slewFt (d : Dev) (e : Int) (dt : Nat) : Dev :=
  let b := bwCentiHz (d.f Reg.FT_CTRL 11 8)
  let on := d.bit Reg.FT_CTRL 0
  let integ := if on then d.time.integ + servoInc b e dt else d.time.integ
  let rate := clampI (-rateMax) rateMax (-(servoProp b e + integ))
  let d := { d with time := { d.time with integ := integ } }
  let d := if on then d.wr Reg.FT_RATE (wi (ftRateOf rate)) else d
  let big := decide (d.ob Obj.SlewFaultLimit < e.natAbs)
  if d.inField && big then
    let d := d.setBit Reg.FT_STATUS 14 true
    if d.time.slewSeen then d
    else Dev.event { d with time := { d.time with slewSeen := true } } 0 0x1003 [.wI (e / 1000)]
  else { d with time := { d.time with slewSeen := false } }

/-- The servo on an accepted sample of age `age` ns (R49, R61). -/
def Dev.servo (d : Dev) (e : Int) (age : Nat) : Dev :=
  let now := d.now
  let dt := match d.time.lastSample with
    | some x => now - x
    | none => Config.firstDt d.fresh
  let d := if d.time.lastSample.isNone then d.bump else d
  let forced := d.time.forced && decide (1000 < e.natAbs)
  let armed := d.bit Reg.FT_CTRL 1 && decide ((d.rd Reg.STEP_THR).toNat < e.natAbs) && !d.inField && d.queuesEmpty
  let step := forced || armed
  let d := if step then d.stepFt e forced else d.slewFt e dt
  let now := d.now
  let unc := if step then 50 else max e.natAbs 50
  Dev.fixTime { d with time := { d.time with
    lastSample := some now, ageAt := some (now - age), uncBase := unc, uncAt := now - age, forced := false } }

/-- Marks a source valid at a sample's acceptance. -/
def Dev.markValid (d : Dev) (s cls age : Nat) : Dev :=
  let now := d.now
  match s with
  | 1 => { d with time := { d.time with gnssValid := true, gnssFrom := now - age } }
  | 2 => { d with
      time := { d.time with refValid := true, refMissed := 0, refCls := cls }
      tmst := { d.tmst with refHeld := true } }
  | _ => { d with time := { d.time with ptpValid := true, ptpAt := now, ptpCls := cls } }

/-- An outlier of R48. -/
def Dev.outlier (d : Dev) (e : Int) : Bool := decide (8 * d.ftUnc + 1000 < e.natAbs)

/-- The consecutive outliers of source `s` since it was the active source; a timeout between them does not end the run (R48). -/
def Dev.outlierRun (d : Dev) (s : Nat) : Nat := if d.time.outSrc = s then d.time.outliers else 0

/-- A sample of source `s` (R46, R48, R49): the outlier test, then the servo where the source is, or becomes, the active one. -/
def Dev.ftSample (d : Dev) (s : Nat) (e : Int) (cls age : Nat) : Dev :=
  let run := d.outlierRun s
  if d.outlier e && decide (run ≠ 3) then
    let d := d.incOb Obj.OutlierCount
    if d.ftSrc = s ∨ 0 < run then { d with time := { d.time with outSrc := s, outliers := run + 1 } } else d
  else
    let d := d.markValid s cls age
    let d : Dev := if d.time.outSrc = s then { d with time := { d.time with outliers := 0 } } else d
    if d.bestSource = s then (d.changeSource s).servo e age else d.fixTime

/-- A GNSS sample named by Latch number `num` (R522). -/
def Dev.gnssSubmit (d : Dev) (num : Nat) : Dev :=
  let drop (d : Dev) : Dev := d.incOb Obj.OutlierCount
  if !d.epochSet then drop d
  else
    match d.latch.history.find? (fun p => p.1 == num) with
    | none => drop d
    | some p =>
      if p.2 + 1000000000 < d.now then drop d
      else d.ftSample 1 (d.rdI Reg.GNSS_OFFS) 0 (d.now - p.2)

/-- GNSS becomes invalid (R46, R48). -/
def Dev.gnssInvalid (d : Dev) : Dev := Dev.sourceLost { d with time := { d.time with gnssValid := false } }
def Dev.refInvalid (d : Dev) : Dev := Dev.sourceLost { d with time := { d.time with refValid := false } }
def Dev.ptpInvalid (d : Dev) : Dev := Dev.sourceLost { d with time := { d.time with ptpValid := false } }

/-! ## Time master (R52 to R55) -/

/-- The key of R55 rule 2: the lower wins. -/
def masterKey (cls number : Nat) : Nat := cls * 16384 + number

/-- A candidate (R55 rule 1). -/
def Dev.candidate (d : Dev) : Bool :=
  let n := d.ob Obj.PackageNumber
  d.bit Reg.FT_CTRL 2 && d.epochSet && decide (1 ≤ n) && decide (n ≤ 10000)

def Dev.ownKey (d : Dev) : Nat := masterKey d.ftClass (d.ob Obj.PackageNumber)

/-- CRC-16 over the epoch (R53). -/
def Dev.epochCheck (d : Dev) : Nat := crc16 (leBytes (d.ob Obj.SystemEpochGps) 8)

/-- The time master becomes `n` with class `cls`; a change records 0x1005 (R55 rule 6). -/
def Dev.setMaster (d : Dev) (n cls : Nat) : Dev :=
  let old := d.tmst.master
  let d := { d with tmst := { d.tmst with master := n, masterCls := cls } }
  if old = n then d else d.event 0 0x1005 [.h old, .h n]

/-- The message of lowest key of a round. -/
def lowestMsg (ms : List RefMsg) : Option RefMsg :=
  ms.foldl (fun b m =>
    match b with
    | none => some m
    | some x => if masterKey m.cls m.sender < masterKey x.cls x.sender then some m else some x) none

/-- The sample that the master's message of a round gives (R54). -/
def Dev.refSample (d : Dev) (m : RefMsg) : Option Int :=
  match d.tmst.captures.find? (fun c => c.sender == m.sender) with
  | some c =>
    if (c.round + 1) % 2 ^ 32 = m.round ∧ m.txPrev ≠ 0xFFFFFFFFFFFFFFFF then
      some ((c.capture : Int) - m.txPrev - d.ob Obj.RefDelay)
    else none
  | none => none

/-- The captures after a round: each sender's latest. -/
def keepCaptures (cs : List RefCap) (ms : List RefMsg) : List RefCap :=
  ms.foldl (fun cs m => { sender := m.sender, capture := m.capture, round := m.round } :: cs.filter (fun c => c.sender != m.sender)) cs

/-- The judgement of the ended round (R54, R55 rule 4). The time master takes no time from reference messages (R52). -/
def Dev.judgeRound (d : Dev) : Dev :=
  let own := d.ob Obj.PackageNumber
  let others := d.tmst.roundMsgs.filter (fun m => m.sender != own)
  let d : Dev := match lowestMsg d.tmst.roundMsgs with
    | none => { d with time := { d.time with refMissed := d.time.refMissed + 1 } }
    | some m =>
      let d := d.setMaster m.sender m.cls
      if m.sender = own then
        let d : Dev := { d with time := { d.time with refMissed := 0 } }
        if d.time.refValid then d.refInvalid else d
      else
        let d : Dev := { d with time := { d.time with refMissed := d.time.refMissed + 1 } }
        match d.refSample m with
        | some e => (d.wr Reg.REF_OFFS (wi e)).ftSample 2 e m.cls 0
        | none => d
  let d : Dev := { d with tmst := { d.tmst with captures := keepCaptures d.tmst.captures others, roundMsgs := [] } }
  if d.time.refValid && decide (d.ob Obj.MasterLossRounds ≤ d.time.refMissed) then d.refInvalid else d

/-- Rounds in which this package's key stays below the master's (R55 rule 5). -/
def Dev.countChallenge (d : Dev) : Dev :=
  let below := d.candidate && d.tmst.master != 0 && d.tmst.master != d.ob Obj.PackageNumber &&
    decide (d.ownKey < masterKey d.tmst.masterCls d.tmst.master)
  let keys := if d.tmst.master = 0 then [] else masterKey d.tmst.masterCls d.tmst.master :: d.tmst.keys.take 9
  { d with tmst := { d.tmst with challenge := if below then d.tmst.challenge + 1 else 0, keys := keys } }

/-- The payload of a reference message on a bus (R53). -/
def Dev.refPayload (d : Dev) (bus round : Nat) : List Byte :=
  let prev := match d.tmst.txPrev.find? (fun p => p.1 == bus) with
    | some p => p.2
    | none => 0xFFFFFFFFFFFFFFFF
  leBytes prev 8 ++ leBytes round 4 ++ leBytes d.ftClass 1 ++ leBytes (b2n d.epochSet + 2 * b2n (Config.leapPending round)) 1 ++ leBytes d.epochCheck 2

/-- Sends a reference message on every enabled bus, and takes part in the judgement of its round. -/
def Dev.sendReference (d : Dev) (round : Nat) : Dev :=
  let d := (List.range 4).foldl (fun d p =>
    if d.bit (Reg.IB_CTRL p) 31 then
      let f : TxFrame :=
        { port := p, prio := 0, fn := 1, stream := 0, data := d.refPayload p round, entries := [], node := 0, on := false }
      (d.ibPush f).1
    else d) d
  let m : RefMsg :=
    { sender := d.ob Obj.PackageNumber, capture := d.now, txPrev := 0xFFFFFFFFFFFFFFFF, round := round, cls := d.ftClass }
  { d with tmst := { d.tmst with roundMsgs := m :: d.tmst.roundMsgs } }

/-- The start of a round (R52, R55). -/
def Dev.roundStart (d : Dev) : Dev :=
  let n := d.now / d.roundNs % 2 ^ 32
  let d := d.judgeRound.countChallenge
  let own := d.ob Obj.PackageNumber
  let isMaster := d.tmst.master == own && own != 0 && !d.tmst.yielding
  let send := (isMaster || d.tmst.electing) && d.candidate
  let d := { d with tmst := { d.tmst with round := n, election := d.tmst.electing, electing := false, yielding := false } }
  let d := if send then d.sendReference n else d
  d.fixTime

/-- A reference message arrives on a bus (R54, R55). -/
def Dev.refRx (d : Dev) (bus : Nat) (m : RefMsg) (check : Nat) : Dev :=
  let own := d.ob Obj.PackageNumber
  if m.sender = own ∧ own ≠ 0 then d.ownNumberHeard bus
  else if bus ≠ d.ob Obj.TimeBus then d
  else if check ≠ d.epochCheck then d.event 0 0x1007 [.h m.sender, .h check]
  else
    let d := { d with tmst := { d.tmst with roundMsgs := d.tmst.roundMsgs ++ [m] } }
    if d.tmst.master = own ∧ own ≠ 0 ∧ masterKey m.cls m.sender < d.ownKey then
      { d with tmst := { d.tmst with yielding := true } }
    else d

/-! ## Porch carry (R60, R521) -/

/-- FT loaded from the stored pair after `dk` porch ticks, with its fraction. -/
def carriedFt (ft dk : Nat) (cal : Int) : Nat :=
  ft * 4294967296 + dk * 1000000000000000000 * 4294967296 / (32768 * (1000000000 + cal).toNat)

/-- FT as the porch carries it: FT while the fabric clock runs, and the stored pair's by the relation of R60 while it does not. -/
def Dev.sleepFt (d : Dev) : Nat :=
  if d.fabricOn then d.now
  else match d.porch.pairFt with
    | none => d.now
    | some f => carriedFt f (d.porch.ticks - d.porch.pairTicks) (d.rdI Reg.PORCH_CAL) / 4294967296

/-- The load at the first porch tick after PLL lock. -/
def Dev.carryLoad (d : Dev) : Dev :=
  match d.porch.pairFt with
  | none => { d with time := { d.time with carryDue := false } }
  | some f =>
    let dk := d.porch.ticks - d.porch.pairTicks
    let ft := carriedFt f dk (d.rdI Reg.PORCH_CAL)
    let elapsed := ft / 4294967296 - f
    let unc := min 0xFFFFFFFF (d.porch.pairUnc + d.ob Obj.PorchDriftBound * elapsed / 1000000000)
    let old := d.time.parkSrc
    let d := d.setF Reg.FT_STATUS 2 0 4
    let d := d.setBit Reg.FT_STATUS 7 false
    let d := { d with time := { d.time with
      ft := ft, uncBase := unc, uncAt := ft / 4294967296, forced := true, carryDue := false, outliers := 0 } }
    let d := d.event 0 0x1001 [.h old, .h 4, .h 3]
    (d.event 0 0x100B [.w (elapsed / 1000000000), .w (unc / 1000000)]).fixTime

/-- The stored pair is refreshed (R60, R521). -/
def Dev.storePair (d : Dev) : Dev :=
  { d with porch := { d.porch with pairFt := some d.now, pairTicks := d.porch.ticks, pairUnc := d.ftUnc } }

/-- The pair of the last porch tick edge stands; it is stored now where that edge stored none (R521). -/
def Dev.lastPair (d : Dev) : Dev :=
  if d.porch.pairFt.isSome && d.porch.pairTicks == d.porch.ticks then d else d.storePair

/-- The fabric clock stops with the last edge's pair; every source becomes invalid, with nothing recorded (R60, R521). -/
def Dev.parkTime (d : Dev) : Dev :=
  let src := d.ftSrc
  let d := d.lastPair
  let d := { d with time := { d.time with
    gnssValid := false, refValid := false, ptpValid := false, parkSrc := src, carryDue := true } }
  d.setF Reg.FT_STATUS 2 0 0

/-! ## The Latch's banks (R67, R68) and slots (R66) -/

/-- The copies of units that stay powered: a unit that loses its power holds no valid bank until the next firing. -/
def LatchBank.keep (b : LatchBank) (p : Nat → Bool) : LatchBank := { b with copies := b.copies.filter (fun c => p c.1) }

/-- Units lose their power: their banks are no longer valid (R67). -/
def Dev.bankLoss (d : Dev) (lost : Nat → Bool) : Dev :=
  { d with latch := { d.latch with
      bank0 := d.latch.bank0.keep (fun a => !lost a), bank1 := d.latch.bank1.keep (fun a => !lost a) } }

/-- The header word `k` of a unit whose copies lie at the addresses `p`; `host` marks the host ports (R68). -/
def LatchBank.unitHeader (b : LatchBank) (p : Nat → Bool) (host : Bool) (k : Nat) : Word :=
  let flags := 1 + 2 * b2n (host && b.unaligned)
  if !b.copies.any (fun c => p c.1) then 0
  else if k = 0 then wd (b.number + 65536 * (b.slot + 256 * flags))
  else if k = 1 then 0
  else if k = 2 then wd b.instant
  else wd (b.instant / 2 ^ 32)

/-- Judges a request: RESULT and the slot. -/
def Dev.latchJudge (d : Dev) (target period : Nat) : Nat × Nat :=
  if target % 1000 ≠ 0 ∨ target < d.now + 50000 ∨ (period ≠ 0 ∧ (period < 1000 ∨ 10000000 < period)) then (2, 0)
  else if d.now + 10000000000 < target then (3, 0)
  else
    let hit := (List.range 8).find? (fun i =>
      match d.latch.slots.getD i none with | some x => x.target == target | none => false)
    match hit with
    | some i => (1, i)
    | none =>
      match (List.range 8).find? (fun i => (d.latch.slots.getD i none).isNone) with
      | some i => (0, i)
      | none => (4, 0)

/-- A request: the slot is taken where it is free. -/
def Dev.latchRequest (d : Dev) (m target period : Nat) : Dev × Nat × Nat :=
  let (res, i) := d.latchJudge target period
  let d :=
    if res = 0 then
      let d := d.setSlot i (some { target := target, period := period })
      { d with latch := { d.latch with owners := d.latch.owners.set i m } }
    else d
  (d, res, i)

/-- A cancel: RESULT 0, or 5 for a free slot. -/
def Dev.latchCancel (d : Dev) (i : Nat) : Dev × Nat :=
  match d.latch.slots.getD i none with
  | some _ => (d.setSlot i none, 0)
  | none => (d, 5)

/-- The dictionary's outcome of a RESULT. -/
def latchAbort (res : Nat) : Nat := if res ≤ 1 then 0 else if res = 4 then 0x0701 else 0x0301

/-- LAT_CMD (R66). -/
def Dev.latCmd (d : Dev) (m w : Nat) : Dev :=
  match bitsOf w 31 30 with
  | 0 => d
  | 1 =>
    let (d, res, i) := d.latchRequest m (d.rd64M m Reg.LAT_TGT_LO) (d.rdM m Reg.LAT_PERIOD).toNat
    d.wrM m Reg.LAT_RESULT (wd (res * 2 ^ 28 + i))
  | 2 =>
    let (d, res) := d.latchCancel (w % 8)
    d.wrM m Reg.LAT_RESULT (wd (res * 2 ^ 28 + w % 8))
  | _ => d.reject m Reg.LAT_CMD

/-- LatchRequest and LatchPeriodic. -/
def Dev.latchWrite (d : Dev) (v : Nat) (periodic : Bool) : WRes :=
  let (d, res, _) := d.latchRequest 0x417 v (if periodic then d.ob Obj.LatchPeriod else 0)
  (latchAbort res, d)

/-- LatchCancel. -/
def Dev.latchCancelWrite (d : Dev) (v : Nat) : WRes :=
  if 7 < v then d.no 0x0301
  else
    let (d, res) := d.latchCancel v
    (latchAbort res, d)

end Sys2Proof.Machine
end

