-- ==== Sys2Proof/Machine/Time.lean ====
section
/-! DEFINITION. The commands of field time: oscillator and PLLs, samples, rounds and election, IEEE 1588 and the time lane, the porch
and the Latch's requests (R39 to R69, R521, R522). -/
namespace Sys2Proof.Machine

/-! ## Oscillator (R40) -/

def execRefOscRequest (block : Nat) (s : State) : Host.Outcome State Fault Refusal :=
  s.put (if s.dev.pstate = .off then s.dev else s.dev.oscRequest block)

def execRefOscStable (s : State) : Host.Outcome State Fault Refusal :=
  let d := s.dev
  s.put (if d.clk.oscRunning then { d with clk := { d.clk with oscStable := true } } else d)

/-- The oscillator stops 10 ms, 328 porch ticks, after the last request was withdrawn. -/
def Dev.oscStop (d : Dev) : Dev :=
  if d.clk.requests.isEmpty && decide (d.clk.idleTick + 328 ≤ d.porch.ticks) then
    { d with clk := { d.clk with oscRunning := false, oscStable := false, pll := 0 } }
  else d

def execRefOscStop (k : Nat) (s : State) : Host.Outcome State Fault Refusal := s.put (s.dev.advanceTicks k).oscStop

/-! ## Samples -/

/-- A write of GNSS_CTRL (R46, R522). -/
def Dev.gnssCtrl (d : Dev) (m : Nat) (w : Word) : Dev :=
  let d := d.regStore m Reg.GNSS_CTRL w
  if fbit w 31 then d.gnssSubmit (fld w 15 0) else d.gnssInvalid

def execGnssSampleSubmit (t m num : Nat) (s : State) : Host.Outcome State Fault Refusal :=
  s.put ((s.dev.advance t).byMaster m Reg.GNSS_CTRL true (fun d => d.gnssCtrl m (wd (2 ^ 31 + num % 65536))))

def execGnssSourceInvalidate (t m num : Nat) (s : State) : Host.Outcome State Fault Refusal :=
  s.put ((s.dev.advance t).byMaster m Reg.GNSS_CTRL true (fun d => d.gnssCtrl m (wd (num % 65536))))


/-- No reference message has been accepted for MasterLossRounds rounds (R48, R55 rule 3). -/
def Dev.masterLoss (d : Dev) : Dev :=
  if d.fabricOn && decide (d.ob Obj.MasterLossRounds ≤ d.time.refMissed) then
    let d := d.setMaster 0 3
    { d with tmst := { d.tmst with electing := true } }
  else d

def execMasterLossElection (t : Nat) (s : State) : Host.Outcome State Fault Refusal := s.put (s.dev.advance t).masterLoss

/-- A candidate that has been better for ten rounds sends at the next round start (R55 rule 5). -/
def Dev.challenge (d : Dev) : Dev :=
  if d.candidate && decide (10 ≤ d.tmst.challenge) then { d with tmst := { d.tmst with electing := true } } else d

def execCandidateChallenge (t : Nat) (s : State) : Host.Outcome State Fault Refusal := s.put (s.dev.advance t).challenge

def execGnssSourceTimeout (t : Nat) (s : State) : Host.Outcome State Fault Refusal :=
  let d := s.dev.advance t
  s.put (if d.time.gnssValid && decide (d.time.gnssFrom + 2000000000 ≤ d.now) then d.gnssInvalid else d)

/-- A sync interval in ns (R57). -/
def Dev.syncNs (d : Dev) : Nat :=
  let l := sx 16 (d.ob Obj.PtpLogSyncInterval)
  if 0 ≤ l then 1000000000 * 2 ^ l.toNat else 1000000000 / 2 ^ (-l).toNat

def execPtpSourceTimeout (t : Nat) (s : State) : Host.Outcome State Fault Refusal :=
  let d := s.dev.advance t
  s.put (if d.time.ptpValid && decide (d.time.ptpAt + 4 * d.syncNs ≤ d.now) then d.ptpInvalid else d)

/-! ## IEEE 1588 and the time lane (R56, R57) -/

/-- The class of an IEEE 1588 master from its clockClass. -/
def ptpClassOf (clockClass : Nat) : Nat := if clockClass ≤ 6 then 0 else if clockClass = 7 then 2 else 3

/-- The clockClass that the device announces. -/
def Dev.clockClass (d : Dev) : Nat := if d.ftClass ≤ 1 then 6 else if d.ftClass = 2 then 7 else 248

/-- A better master has been heard within announceReceiptTimeout. -/
def Dev.ptpSlave (d : Dev) : Bool :=
  let b := d.htime.betterAt
  decide (d.ob Obj.PtpMode = 1) || (decide (d.ob Obj.PtpMode = 3) && b != 0 && decide (d.now < b - 1 + 3000000000))

/-- Whether the device acts as master on its PTP ports. -/
def Dev.ptpMaster (d : Dev) : Bool :=
  d.laneValid && (decide (d.ob Obj.PtpMode = 2) || (decide (d.ob Obj.PtpMode = 3) && !d.ptpSlave))

/-- PTP time less FT, in ns (R57). -/
def Dev.ptpShift (d : Dev) : Nat := 315964819000000000 + d.ob Obj.SystemEpochGps

/-- Offset of local time and mean path delay of an exchange with a master: its Sync left at PTP time `t1` and came at host FT `t2`, the
delay request left at host FT `t3` and came at PTP time `t4` (R57). -/
def Dev.ptpExchange (d : Dev) (t1 t2 t3 t4 : Nat) : Int × Nat :=
  let down : Int := t2 - ((t1 : Int) - d.ptpShift)
  let up : Int := (t4 : Int) - d.ptpShift - t3
  ((down - up) / 2, ((down + up) / 2).toNat)

/-- The data set that a clock announces and IEEE 1588 ranks clocks by, in the order of its comparison. -/
structure ClockSet where
  priority1 : Nat
  clockClass : Nat
  accuracy : Nat
  variance : Nat
  priority2 : Nat
  identity : Nat

def ClockSet.key (c : ClockSet) : List Nat := [c.priority1, c.clockClass, c.accuracy, c.variance, c.priority2, c.identity]

/-- The first of two lists in the order of their first difference. -/
def lexBelow : List Nat → List Nat → Bool
  | a :: as, b :: bs => decide (a < b) || (a == b && lexBelow as bs)
  | _, _ => false

/-- The device's own data set (R57); its accuracy, variance and identity are free: the spec gives none. -/
def Dev.ownClock (d : Dev) : ClockSet :=
  { priority1 := 128, clockClass := d.clockClass, accuracy := Config.clockAccuracy, variance := Config.clockVariance
    priority2 := 128, identity := Config.clockIdentity }

/-- The payload of a time message (R347). -/
def timePayload (offset : Int) (delay port cls : Nat) : List Byte :=
  leBytes (unsx 32 offset) 4 ++ leBytes delay 4 ++ leBytes port 1 ++ leBytes cls 1 ++ List.replicate 6 0

/-- An IEEE 1588 exchange with another master, heard on a selected port in the device's own domain (R57). -/
def Dev.ptpRx (d : Dev) (port domain t1 t2 t3 t4 : Nat) (c : ClockSet) : Dev :=
  if !d.hostOn || !bitOf (d.ob Obj.PtpPorts) port || domain != d.ob Obj.PtpDomain then d
  else
    let (offset, delay) := d.ptpExchange t1 t2 t3 t4
    let d := if d.ob Obj.PtpMode = 3 ∧ lexBelow c.key d.ownClock.key then
        { d with htime := { d.htime with betterAt := d.now + 1 } }
      else d
    if d.ptpSlave && d.laneValid then d.crossOut (d.hostMsg 7 7 port (timePayload offset delay port (ptpClassOf c.clockClass)))
    else d

def execPtpMessageRx (t port domain t1 t2 t3 t4 priority1 clockClass accuracy variance priority2 identity : Nat) (s : State) :
    Host.Outcome State Fault Refusal :=
  let c : ClockSet :=
    { priority1 := priority1, clockClass := clockClass, accuracy := accuracy, variance := variance
      priority2 := priority2, identity := identity }
  s.put ((s.dev.advance t).ptpRx port domain t1 t2 t3 t4 c)

def execPtpSyncSend (t : Nat) (s : State) : Host.Outcome State Fault Refusal :=
  let d := s.dev.advance t
  s.put (if d.hostOn && d.ptpMaster then
      (List.range 3).foldl (fun d p => if bitOf (d.ob Obj.PtpPorts) p then
        d.emit .ptp p 0 [d.hostNow + d.ptpShift, d.clockClass, d.ob Obj.PtpDomain, 128, 128] else d) d.bump
    else d)

/-- A Transom time message: an IEEE 1588 sample, discarded and counted outside 32 bits (R46, R48, R57). The path delay shows
in PtpPathDelay; the port only names where the sample came in (R347). -/
def Dev.timeMessage (d : Dev) (offset : Int) (delay cls : Nat) : Dev :=
  if !d.fabricOn || !d.anyLane || d.frozen 0x420 then d
  else if offset < -2147483648 ∨ 2147483647 < offset then d.incOb Obj.OutlierCount
  else ((d.wr Reg.PTP_OFFS (wi offset)).setOb Obj.PtpPathDelay delay).ftSample 3 offset (cls % 4) 0

def execTimeMessage (t : Nat) (offset : Int) (delay _port cls : Nat) (s : State) : Host.Outcome State Fault Refusal :=
  s.put ((s.dev.advance t).timeMessage offset delay cls)

def execTimeLanePps (t : Nat) (s : State) : Host.Outcome State Fault Refusal :=
  let d := s.dev.advance t
  s.put (if d.fabricOn && t % 1000000000 == 0 && d.now == t then
      Dev.emit { d with htime := { d.htime with lastPps := t, ppsSent := true } } .line 1 0 [t]
    else d)

/-- LANE_VALID; each change records 0x1008. -/
def Dev.setLane (d : Dev) (v : Bool) : Dev :=
  if d.laneValid = v then d else (d.setBit Reg.FT_STATUS 12 v).event 4 0x1008 [.h (b2n v)]

/-- The field-time word, within 100 µs of a PPS edge that the host die saw `err` ns from the expected second; an edge outside ±1 µs is
not accepted, and the word reloads host FT (R48, R56). -/
def Dev.laneWord (d : Dev) (err : Int) : Dev :=
  if !d.htime.ppsSent || decide (d.htime.lastPps + 100000 < d.now) then d
  else
    let d := d.emit .line 1 1 [d.htime.lastPps, d.ftClass, d.epochCheck]
    let edge := d.htime.lastPps
    let now := d.now
    if d.htime.reload then
      { d with htime := { d.htime with hostFt := edge, reload := false, ppsSent := false } }
    else if err.natAbs ≤ 1000 then
      Dev.setLane { d with htime := { d.htime with hostFt := edge, acceptedAt := now, ppsSent := false } } true
    else { d with htime := { d.htime with hostFt := edge, ppsSent := false } }

def execTimeLaneWord (t : Nat) (err : Int) (s : State) : Host.Outcome State Fault Refusal :=
  s.put ((s.dev.advance t).laneWord err)

def execTimeLaneTimeout (t : Nat) (s : State) : Host.Outcome State Fault Refusal :=
  let d := s.dev.advance t
  s.put (if d.laneValid && decide (d.htime.acceptedAt + 1500000000 ≤ d.now) then d.setLane false else d)

/-! ## The porch (R58 to R60, R65, R521) -/

/-- The mean of the valid windows in ppb. -/
def calMean (ws : List Int) : Int := if ws.isEmpty then 0 else roundDiv ws.sum ws.length

/-- A window's measured error in ppb (R48, R59). -/
def Dev.calWindow (d : Dev) (ppb : Int) : Dev :=
  if 100000 < ppb.natAbs then d.event 0 0x100A [.wI (ppb / 1000)]
  else
    let ws := (ppb :: d.porch.windows).take 4
    Dev.wr { d with porch := { d.porch with windows := ws } } Reg.PORCH_CAL (wi (calMean ws))

def execPorchCalWindow (t : Nat) (ppb : Int) (s : State) : Host.Outcome State Fault Refusal :=
  let d := s.dev.advance t
  s.put (if d.fabricOn then d.calWindow ppb else d)

def execPorchCarryLoad (k : Nat) (s : State) : Host.Outcome State Fault Refusal :=
  let d := s.dev.advanceTicks k
  s.put (if d.time.carryDue && bitOf d.clk.pll 1 then d.carryLoad else d)

def execPorchMirror (k : Nat) (s : State) : Host.Outcome State Fault Refusal :=
  let d := s.dev.advanceTicks k
  s.put (if d.porch.powered && decide (d.porch.mirrorAt + 11796480 ≤ d.porch.ticks) then d.porchMirror else d)

def execPorchPairRefresh (k : Nat) (s : State) : Host.Outcome State Fault Refusal :=
  let d := s.dev.advanceTicks k
  s.put (if d.fabricOn && d.porch.powered then d.storePair else d)

/-! ## Epoch and wall clock (R62 to R64) -/

/-- FieldTimeSet (R63). -/
def Dev.fieldTimeSet (d : Dev) (v : Nat) : WRes :=
  if d.anySource then d.no 0x0402
  else if d.inField || !d.queuesEmpty then d.no 0x0401
  else
    (d.setFt (v * 4294967296) ((d.now : Int) - v)).yes

/-- SystemEpochGps (R62, R64, R522). -/
def Dev.writeEpoch (d : Dev) (v : Nat) : WRes :=
  if d.ob Obj.PackageNumber ≠ 0 then d.no 0x0401
  else
    let d := d.setOb Obj.SystemEpochGps v
    let d := { d with tmst := { d.tmst with refHeld := false } }
    if !d.epochSet then d.gnssInvalid.yes
    else if d.ftSrc = 1 then (d.setUtc d.gnssUtc 3).yes
    else d.yes

/-- WallClock (R48, R64). -/
def Dev.writeWall (d : Dev) (v : Nat) : WRes :=
  if v < 1577836800000000000 ∨ 5680281600000000000 < v then d.no 0x0301
  else if d.ftSrc = 1 then d.no 0x0402
  else (d.setUtc ((v : Int) - d.now) 1).yes

/-- GpsUtcLeap (R64). -/
def Dev.writeLeap (d : Dev) (v : Nat) : WRes :=
  if 255 < v then d.no 0x0301
  else
    let d := d.setOb Obj.GpsUtcLeap v
    if d.ftSrc = 1 then (d.setUtc d.gnssUtc 2).yes else d.yes

def execFieldTimeSet (t : Nat) (r : Req) (v : Nat) (s : State) : Host.Outcome State Fault Refusal :=
  s.put ((s.dev.advance t).dictVal r 0x3001 2 8 v (fun d => d.fieldTimeSet (v % 2 ^ 64)))

def execSystemEpochWrite (t : Nat) (r : Req) (v : Nat) (s : State) : Host.Outcome State Fault Refusal :=
  s.put ((s.dev.advance t).dictVal r 0x3001 1 8 v (fun d => d.writeEpoch (v % 2 ^ 64)))

def execWallClockWrite (t : Nat) (r : Req) (v : Nat) (s : State) : Host.Outcome State Fault Refusal :=
  s.put ((s.dev.advance t).dictVal r 0x3004 1 8 v (fun d => d.writeWall (v % 2 ^ 64)))

def execGpsUtcLeapWrite (t : Nat) (r : Req) (v : Nat) (s : State) : Host.Outcome State Fault Refusal :=
  s.put ((s.dev.advance t).dictVal r 0x3004 3 2 v (fun d => d.writeLeap (v % 2 ^ 16)))

/-! ## The Latch (R66) -/

/-- LAT_CMD as a register write of master `m`. -/
def Dev.latBy (d : Dev) (m w : Nat) : Dev := d.byMaster m Reg.LAT_CMD true (fun d => d.latCmd m w)

def execLatchRequest (t : Nat) (via : Via) (v : Nat) (periodic : Bool) (s : State) : Host.Outcome State Fault Refusal :=
  let d := s.dev.advance t
  match via with
  | .reg m => s.put (d.latBy m (2 ^ 30))
  | .dict r => s.put (d.dictVal r 0x3008 (if periodic then 2 else 1) 8 v (fun d => d.latchWrite (v % 2 ^ 64) periodic))

def execLatchCancel (t : Nat) (via : Via) (slot : Nat) (s : State) : Host.Outcome State Fault Refusal :=
  let d := s.dev.advance t
  match via with
  | .reg m => s.put (d.latBy m (2 ^ 31 + slot % 8))
  | .dict r => s.put (d.dictVal r 0x3008 4 1 slot (fun d => d.latchCancelWrite (slot % 256)))

/-- Every copy of the last firing is taken: LATCH is raised (R405). -/
def Dev.latchCopiesDone (d : Dev) : Dev :=
  let d := d.eng.foldl (fun d p => d.raise p.1 4) d
  { d with latch := { d.latch with copiesDue := false } }

def execLatchCopiesDone (t : Nat) (s : State) : Host.Outcome State Fault Refusal :=
  let d := s.dev.advance t
  let last := match d.latch.history.head? with
    | some p => p.2
    | none => 0
  s.put (if d.latch.copiesDue && decide (last + 2000 ≤ d.now) then d.latchCopiesDone else d)

end Sys2Proof.Machine
end

