-- ==== Sys2Proof/Machine/Recorder.lean ====
section
/-! DEFINITION. The commands of the event recorder, the flash controller and the metering unit (R463 to R489). -/
namespace Sys2Proof.Machine

/-! ## Firmware's doors (R472, R476) -/

/-- EVT_CODE (R472). -/
def Dev.evtCode (d : Dev) (m code : Nat) : Dev :=
  if code < 0xD000 then d.reject m Reg.EVT_CODE
  else
    let p (i : Nat) : Param := .w (d.rdM m (Reg.EVT_P i)).toNat
    d.event (if m < engines then dieOf m else 1) code [p 0, p 1, p 2]

/-- The descriptor of a firmware histogram: EN, Lower, Width, Source (R475). -/
def Dev.histDesc (d : Dev) (h : Nat) : Bool × Int × Int × Nat :=
  let b := d.dom Obj.HistogramConfig (16 * h) 16
  (bitOf (byteAt b 3) 0, sx 32 (leAt b 4 4), sx 32 (leAt b 8 4), leAt b 0 2)

/-- HIST_VAL (R476). -/
def Dev.histVal (d : Dev) (m : Nat) (v : Int) : Dev :=
  let h := d.fM m Reg.HIST_NUM 9 0
  let (en, lower, width, src) := d.histDesc h
  if 64 ≤ h ∧ en ∧ src = 0xFFFF ∧ 0 < width then d.histFeed h lower width v v
  else d.setBit Reg.REC_STATUS 30 true

/-- The fixed descriptors of R476: set, Lower, Width; `n` is the disagreement limit of R283 in ticks. -/
def fixedHist (h n : Nat) : Option (Nat × Int × Int) :=
  if h ≤ 7 then some (0, 1, max 1 (((n : Int) + 29) / 30))
  else
    match h with
    | 8 => some (0, 1, 4)
    | 9 => some (1, 0, 1)
    | 10 => some (1, 0, 1)
    | 16 => some (2, 0, 5)
    | 17 => some (2, -150, 10)
    | 18 => some (2, -150, 10)
    | 19 => some (2, 1, 100)
    | 20 => some (2, -40, 7)
    | 21 => some (2, -40, 7)
    | 22 => some (2, -40, 7)
    | 23 => some (2, -40, 7)
    | 24 => some (2, 12, 4)
    | 25 => some (2, 12, 4)
    | 26 => some (2, 0, 40)
    | 27 => some (2, 0, 1)
    | 28 => some (2, 0, 1)
    | _ => none

/-- A descriptor that firmware's histograms may have (R475, R476, R478): Source 0xFFFF, set 3, a width above 0, reserved bits 0. -/
def Dev.histDescOk (d : Dev) (h : Nat) : Bool :=
  let b := d.dom Obj.HistogramConfig (16 * h) 16
  leAt b 0 2 == 0xFFFF && byteAt b 2 == 3 && decide (byteAt b 3 < 2) && decide (0 < sx 32 (leAt b 8 4)) && leAt b 12 4 == 0

/-- A write of HistogramConfig (R475, R476): fixed descriptors are refused, and each other one that it touches must be valid. -/
def Dev.writeHistConfig (d : Dev) (off : Nat) (data : List Byte) : WRes :=
  if !domRangeOk 16384 off data.length then d.no 0x0301
  else
    let e := d.setDom Obj.HistogramConfig off data
    let first := off / 16
    let last := (off + data.length - 1) / 16
    let ok := (List.range (last + 1 - first)).all (fun i => decide (first + i < 64) || e.histDescOk (first + i))
    if !ok then d.no 0x0301
    else if d.inField || decide (off < 1024) then d.no 0x0401
    else e.yes

/-! ## Pages -/

/-- An event-ring page is due (R473). -/
def Dev.pageDue (d : Dev) : Bool :=
  let waiting := d.rcd.staged.length - d.rcd.inFlight
  decide (7 ≤ waiting) || (decide (0 < waiting) && decide (d.rcd.stagedAt + 1000000000 ≤ d.now))

def Dev.eventPage (d : Dev) : Dev :=
  if d.rcd.scanDone && d.pageDue then (d.queueEventPage 7 0).queueForerunner else d

/-- Changed histograms of sets 0 and 1 (R477), and the cleared ones of sets 2 and 3 (R478). -/
def Dev.writeSafetyHists (d : Dev) : Dev :=
  let cleared := (d.rcd.hist.filter (fun p => p.2.cleared)).map (fun p => p.1)
  (List.range 11 ++ cleared).foldl (fun d h => d.writeHist h) d

/-! ## Clearing (R434, R478) -/

/-- A page of the area whose program is under way is programmed again after the erase, with its PageSeq (R488). -/
def Dev.progAgain (d : Dev) (a : Nat) : Dev :=
  match d.flash.progArea, d.flash.progPage with
  | some b, some p =>
    if a = b then
      let d := d.setArea a { d.area a with nextSeq := p.seq }
      { d with flash := { d.flash with progArea := none, progPage := none, progQueue := (a, p) :: d.flash.progQueue } }
    else d
  | _, _ => d

/-- Erases a ring: every page goes, and writing continues in the block that is kept erased. -/
def Dev.eraseArea (d : Dev) (a : Nat) : Dev :=
  let d := d.progAgain a
  let x := d.area a
  let n := areaPages a
  let used := ((x.nextPos / 256) :: (x.pages.map (fun p => p.pos / 256) ++ x.torn.map (fun p => p.page.pos / 256))).eraseDups
  let d := d.setArea a { x with pages := [], torn := [], nextPos := (x.nextPos / 256 + 1) % (n / 256) * 256 }
  let d := { d with flash := { d.flash with eraseQueue := d.flash.eraseQueue ++ used.map (fun b => (a, b)) } }
  d.eraseStart.progStart

/-- Clears a set of histograms in the recorder's memory. -/
def Dev.clearHists (d : Dev) (set : Nat) : Dev :=
  { d with rcd := { d.rcd with hist := d.rcd.hist.map (fun p =>
    if histSet p.1 = set then (p.1, { Hist.reset with gen := p.2.gen, changed := true, cleared := true }) else p) } }

/-- A snapshot page of this fabric cycle holds the cleared histogram (R488). -/
def Dev.snapshotCleared (d : Dev) (set : Nat) : Dev :=
  let fix (p : Page) : Page :=
    let h := leAt p.data 0 2
    if p.kind = 3 ∧ histSet h = set then { p with data := { Hist.reset with gen := leAt p.data 4 4 }.toBytes h } else p
  if cycleOf d.rcd.snapAt = cycleOf d.now then
    { d with flash := { d.flash with
      progPage := d.flash.progPage.map fix, progQueue := d.flash.progQueue.map (fun q => (q.1, fix q.2)) } }
  else d

/-- RecorderClear (R478). -/
def Dev.recorderClear (d : Dev) (r : Req) (v : Nat) : WRes :=
  if 5 < v then d.no 0x0301
  else if v < 2 then d.no 0x0401
  else
    let d := d.event 1 0x8030 [.h v, .h (d.levelOf r)]
    match v with
    | 4 => (d.eraseArea 1).yes
    | 5 => (d.eraseArea 2).yes
    | _ => ((d.clearHists v).snapshotCleared v).yes

/-! ## Start (R468, R469, R477, R484) -/

/-- The newest Kind 3 page of each histogram. -/
def Dev.loadHists (d : Dev) : Dev :=
  ((d.area 3).pages.reverse.filter (fun p => p.kind == 3)).foldl (fun d p =>
    d.setHisto (leAt p.data 0 2) (histOfBytes p.data)) d

/-- The five pages of the newest safety flush block, in order, when all are present. -/
def safetyPages (ps : List Page) : Option (Nat × List Byte) :=
  match ps.find? (fun p => p.kind == 10) with
  | none => none
  | some last =>
    let five := (List.range 5).map (fun i => ps.find? (fun p => p.kind == 10 && p.seq + 4 == last.seq + i))
    if five.all (fun o => o.isSome) then
      some (last.seq, (five.map (fun o => match o with | some p => p.data | none => [])).flatten)
    else none

/-- Applies the safety flush block to one histogram (R477). -/
def Dev.applySafety (d : Dev) (seq : Nat) (b : List Byte) (h : Nat) : Dev :=
  let page := (d.area 3).pages.find? (fun p => p.kind == 3 && leAt p.data 0 2 == h)
  let seq3 := match page with | some p => p.seq | none => 0
  let x := d.histo h
  if (page.isNone || decide (seq3 < seq)) && leAt b (968 + 4 * h) 4 == x.gen then
    let added := (List.range 32).foldl (fun bins i =>
      let n := leAt b (64 * h + 2 * i) 2
      if n = 0 then bins
      else
        match bins.find? (fun (p : Nat × Nat) => p.1 == i) with
        | some q => bins.map (fun (p : Nat × Nat) => if p.1 = i then (i, min 0xFFFFFFFF (q.2 + n)) else p)
        | none => bins ++ [(i, n)]) x.bins
    if added = x.bins then d
    else
      let o := 704 + 24 * h
      (d.setHisto h { x with
        bins := added, minV := sx 32 (leAt b o 4), maxV := sx 32 (leAt b (o + 4) 4), minFt := leAt b (o + 8) 8
        maxFt := leAt b (o + 16) 8, any := true, changed := true }).writeHist h
  else d

/-- The histograms at a start. -/
def Dev.restoreHists (d : Dev) : Dev :=
  let d := d.loadHists
  match safetyPages (d.area 3).pages with
  | some (seq, b) => (List.range 11).foldl (fun d h => d.applySafety seq b h) d
  | none => d

/-- A torn page found by the scan: its area and page position (R468, R469). -/
def Dev.tornPage (d : Dev) (a pos : Nat) : Dev :=
  let x := d.area a
  let near := match x.pages.find? (fun p => (p.pos + 1) % areaPages a == pos) with
    | some p => p.seq
    | none => x.nextSeq
  let d := d.incOb Obj.TornPagesFound
  let d := d.wr Reg.NV_TORN (d.rd Reg.NV_TORN + 1)
  d.event 1 0xB002 [.h a, .w near]

/-- The first position from `pos` on that holds no torn page. -/
def skipTorn (torn : List Torn) (size pos : Nat) : Nat → Nat
  | 0 => pos
  | n + 1 => if torn.any (fun x => x.page.pos == pos) then skipTorn torn size ((pos + 1) % size) n else pos

/-- An area as the scan finds it (R468, R469): a page whose commit word reads exactly is present, one that reads all 0xFF was never begun,
and writing resumes after the newest present page at the first page that is not torn. Without a present page PageSeq goes on from what
the area held: DESIGN CHOICE. -/
def Area.scan (x : Area) (size : Nat) : Area :=
  let here := x.torn.filter Torn.present
  let torn := x.torn.filter (fun p => !p.present && !p.blank)
  let pages := here.map (fun p => p.page) ++ x.pages
  match pages with
  | p :: _ => { pages := pages, torn := torn, nextSeq := (p.seq + 1) % 2 ^ 32, nextPos := skipTorn torn size ((p.pos + 1) % size) torn.length }
  | [] => { x with torn := torn, nextPos := skipTorn torn size x.nextPos torn.length }

/-- One area's scan, with what it counts and records. -/
def Dev.scanArea (d : Dev) (a : Nat) : Dev :=
  let x := (d.area a).scan (areaPages a)
  let d := d.setArea a x
  x.torn.reverse.foldl (fun (d : Dev) p => d.tornPage a p.page.pos) d

/-- A block erased again (R469). -/
def Dev.reErase (d : Dev) (a b : Nat) : Dev :=
  let d := d.incOb Obj.BlocksReErased
  let d := d.event 1 0xB003 [.h a, .h b]
  Dev.eraseStart { d with flash := { d.flash with eraseQueue := d.flash.eraseQueue ++ [(a, b)] } }

/-- What the last power failure lost (R479, R484). -/
def Dev.reportShort (d : Dev) : Dev :=
  let n := d.flash.lostRecords
  let m := d.flash.lostEntries
  if n = 0 ∧ m = 0 then d
  else
    let d := d.addOb Obj.PowerFailFlushShort n
    let d := { d with flash := { d.flash with lostRecords := 0, lostEntries := 0 } }
    let d : Dev := if m = 0 then d
      else ({ d with mtr := { d.mtr with entriesLost := d.mtr.entriesLost + m, flags := d.mtr.flags ||| pfIncomplete } } : Dev).fixMtrStatus
    d.event 1 0xB008 [.w n, .w m]

/-- The blocks whose erase was cut short are erased again. -/
def Dev.reEraseAll (d : Dev) : Dev :=
  let bs := d.flash.partErased
  let d : Dev := { d with flash := { d.flash with partErased := [] } }
  bs.foldl (fun (d : Dev) p => d.reErase p.1 p.2) d

/-- The start-up scan completes. Which pages are present or torn follows from what the flash went through. -/
def Dev.scanComplete (d : Dev) : Dev :=
  let d := d.setOb Obj.TornPagesFound 0
  let d := d.wr Reg.NV_TORN 0
  let d := d.setBit Reg.REC_STATUS 0 true
  let d := { d with rcd := { d.rcd with scanDone := true } }
  let d := ((List.range 7).foldl Dev.scanArea d).reEraseAll
  let d := d.restoreHists.restorePeriod
  d.reportShort.nvStatus

/-! ## Samples every second (R476) -/

/-- The voltage of a feed in 0.5 V. -/
def Dev.feedHalfVolts (d : Dev) (a : Nat) : Int := (d.f a 15 0 / 500 : Nat)

def Dev.deviceHists (d : Dev) : Dev :=
  let d := (List.range 4).foldl (fun d i =>
    let c := sx 8 (d.f Reg.PWR_TEMP (8 * i + 7) (8 * i))
    d.histFeed (20 + i) (-40) 7 c c) d
  let a := d.feedHalfVolts Reg.PWR_FEED_A
  let d := d.histFeed 24 12 4 a a
  let b := d.feedHalfVolts Reg.PWR_FEED_B
  let d := d.histFeed 25 12 4 b b
  let u : Int := (d.ftUnc / 500 : Nat)
  d.histFeed 27 0 1 u u

/-! ## Meanings -/

def execFirmwareEvent (t m code : Nat) (s : State) : Host.Outcome State Fault Refusal :=
  s.put ((s.dev.advance t).byMaster m Reg.EVT_CODE true (fun d => d.evtCode m (code % 65536)))

def execEventPageWrite (t : Nat) (s : State) : Host.Outcome State Fault Refusal := s.put (s.dev.advance t).eventPage

def execNorPageProgramDone (t : Nat) (s : State) : Host.Outcome State Fault Refusal := s.put (s.dev.advance t).progDone

def execNorBlockEraseDone (t : Nat) (s : State) : Host.Outcome State Fault Refusal := s.put (s.dev.advance t).eraseDone

def execHistogramFeed (t m : Nat) (v : Int) (s : State) : Host.Outcome State Fault Refusal :=
  s.put ((s.dev.advance t).byMaster m Reg.HIST_VAL true (fun d => d.histVal m v))

def execHistogramSnapshot (t : Nat) (s : State) : Host.Outcome State Fault Refusal :=
  let d := s.dev.advance t
  s.put (if d.rcd.scanDone && decide (d.rcd.snapAt + d.ob Obj.HistSnapshotPeriod * 1000000000 ≤ d.now) then
      let now := d.now
      { d.writeHists with rcd := { d.writeHists.rcd with snapAt := now } }
    else d)

def execHistogramSafetyWrite (t : Nat) (s : State) : Host.Outcome State Fault Refusal :=
  let d := s.dev.advance t
  s.put (if d.rcd.scanDone then d.writeSafetyHists else d)

def execRecorderScanDone (t : Nat) (s : State) : Host.Outcome State Fault Refusal :=
  let d := s.dev.advance t
  s.put (if d.hostOn && !d.rcd.scanDone then d.scanComplete else d)

def execRecorderClear (t : Nat) (r : Req) (v : Nat) (s : State) : Host.Outcome State Fault Refusal :=
  s.put ((s.dev.advance t).dictVal r 0x7002 4 1 v (fun d => d.recorderClear r (v % 256)))

def execPeriodClose (t : Nat) (s : State) : Host.Outcome State Fault Refusal :=
  let d := s.dev.advance t
  s.put (if d.periodDue then d.periodReached else d)

def execMeterCheckpoint (t : Nat) (s : State) : Host.Outcome State Fault Refusal :=
  let d := s.dev.advance t
  s.put (if d.hostOn && decide (d.mtr.checkpointAt + d.ob Obj.MeterCheckpoint * 1000000000 ≤ d.now) then d.checkpoint else d)

def execPeriodEndWrite (t : Nat) (r : Req) (v : Nat) (s : State) : Host.Outcome State Fault Refusal :=
  s.put ((s.dev.advance t).dictVal r 0x7102 2 8 v (fun d => d.writePeriodEnd (v % 2 ^ 64)))

def execAccountsClear (t : Nat) (r : Req) (v : Nat) (s : State) : Host.Outcome State Fault Refusal :=
  s.put ((s.dev.advance t).dictVal r 0x7100 4 2 v (fun d => d.accountsClear r (v % 65536)))

def execDeviceHistogramSample (t : Nat) (s : State) : Host.Outcome State Fault Refusal :=
  let d := s.dev.advance t
  s.put (if d.hostOn then d.deviceHists else d)

end Sys2Proof.Machine
end

