-- ==== Sys2Proof/Machine/SolOps.lean ====
section
/-! DEFINITION. Solenoid channels: profiles, pulses, the thermal model, faults (R197 to R217). -/
namespace Sys2Proof.Machine

def Dev.solOf (d : Dev) (n : Nat) : SolChan := SMap.get (fun _ => SolChan.reset) d.sol n
def Dev.setSol (d : Dev) (n : Nat) (c : SolChan) : Dev := { d with sol := SMap.set (fun _ => SolChan.reset) d.sol n c }
def Dev.solDieOf (d : Dev) (i : Nat) : SolDie := SMap.get (fun _ => SolDie.reset) d.solDie i
def Dev.setSolDie (d : Dev) (i : Nat) (c : SolDie) : Dev := { d with solDie := SMap.set (fun _ => SolDie.reset) d.solDie i c }

def solDieNum (n : Nat) : Nat := n / 32

/-- The sense channel of a die is trusted. -/
def Dev.senseOk (d : Dev) (n : Nat) : Bool := !d.bit (Reg.SOL_DIE_STATUS (solDieNum n)) 7

/-- PHASE: 0 off, 1 boost, 2 peak, 3 hold, 4 fast recovery, 5 slow recovery, 6 driver overtemperature, 7 held off by a fault. -/
def Dev.solFault (d : Dev) (n : Nat) : Bool := d.bit (Reg.SOL_STATUS n) 30

/-- The endpoint bound to a channel. -/
def Dev.solId (d : Dev) (n : Nat) : Option Nat := d.boundTo 0 n

/-! ## Current samples (R202, R203, R207, R218) -/

/-- A raw sample in 0.1 mA less the replica's offset, to 2 mA, from 0 to 8,190 mA (R202, R207, R218). -/
def Dev.solAmps (d : Dev) (n : Nat) (raw : Int) : Nat :=
  (clampI 0 8190 (2 * roundDiv (raw - sx 16 (d.f (Reg.SOL_OFFS_REP (solDieNum n)) 15 0)) 20)).toNat

/-- The hold set-point in mA: a Hinge slot's for the channel, else HOLD_I of the running profile (R203, R252). -/
def Dev.holdI (d : Dev) (n : Nat) : Nat :=
  let h := SMap.get (fun _ => 0) d.hyst n
  if h = 0 then fld (d.solOf n).hd 11 0 else (h - 1) % 4096

/-- The knee in mA: HOLD_I / 2 where KNEE is at or above HOLD_I (R201). -/
def SolChan.knee (c : SolChan) : Nat := if fld c.hd 11 0 ≤ fld c.rc 11 0 then fld c.hd 11 0 / 2 else fld c.rc 11 0

/-- A two-point decision: off above the upper limit, on below the lower one, else as it is. -/
def twoPoint (drive : Bool) (off on : Bool) : Bool := if off then false else if on then true else drive

/-- The Hinge's decision, once a microsecond (R203): off above HOLD_I + HOLD_BAND / 2, on below HOLD_I − HOLD_BAND / 2. -/
def hysDecide (drive : Bool) (mA holdI band : Nat) : Bool :=
  twoPoint drive (decide (2 * holdI + band < 2 * mA)) (decide (2 * mA + band < 2 * holdI))

/-- The drive after a current sample, by phase (R202, R203): applied in boost, and in peak until PEAK_I is first reached, then regulated
between PEAK_I and 0.9 × PEAK_I; the Hinge's in hold; reversed in fast recovery; the probe from knee / 2 up to the knee in slow recovery. -/
def Dev.driveNext (d : Dev) (n mA : Nat) : Bool :=
  let c := d.solOf n
  let peak := fld c.pk 12 0
  match d.solPhase n with
  | 1 => true
  | 2 => if c.reached then twoPoint c.drive (decide (peak ≤ mA)) (decide (10 * mA ≤ 9 * peak)) else decide (mA < peak)
  | 3 => hysDecide c.drive mA (d.holdI n) (fld c.hd 20 12)
  | 5 => twoPoint c.drive (decide (c.knee ≤ mA)) (decide (2 * mA ≤ c.knee))
  | _ => false

/-- A current sample: SOL_CURR, and the drive that follows. -/
def Dev.solSample (d : Dev) (n : Nat) (raw : Int) : Dev :=
  let mA := d.solAmps n raw
  let c := d.solOf n
  let next := d.driveNext n mA
  let hit := c.reached || (decide (d.solPhase n = 2) && decide (fld c.pk 12 0 ≤ mA))
  (d.setSol n { c with drive := next, reached := hit }).wr (Reg.SOL_CURR n) (wd mA)

/-- Successive samples, one a microsecond. -/
def Dev.solTrace (d : Dev) (n : Nat) (raws : List Int) : Dev := raws.foldl (fun (d : Dev) r => d.solSample n r) d

/-! ## The thermal model (R211 to R214) -/

/-- COIL_RREF in mΩ. -/
def Dev.rref (d : Dev) (n : Nat) : Nat := d.f (Reg.SOL_CTRL n) 15 0

/-- The estimate in 0.1 °C from a filtered resistance in µΩ (R212). -/
def tEst10 (rho rref coeff : Nat) : Int := 200 + roundDiv (((rho : Int) - rref * 1000) * 10000) (rref * coeff)

/-- Whether the model is stale (R213). -/
def Dev.thermStale (d : Dev) (n : Nat) : Bool := d.bit (Reg.SOL_STATUS n) 23

/-- *T*_used in 0.1 °C (R213). -/
def Dev.tUsed (d : Dev) (n : Nat) : Int :=
  let th := Reg.SOL_THERM (solDieNum n)
  if d.thermStale n then ((d.f th 23 16 + d.f th 31 24) * 10 : Nat)
  else tEst10 (d.solOf n).rho (d.rref n) (d.f (Reg.SOL_ALPHA (solDieNum n)) 12 0)

/-- The allowed peak time in 10 µs (R214), rounded down. -/
def peakTime (peakTime peakI emax rref coeff tMax margin : Nat) (t10 : Int) : Nat :=
  let den := margin * 10
  let num := (clampI 0 den (tMax * 10 - t10)).toNat
  let rhoT := ((rref : Int) * (10000000 + coeff * (t10 - 200))).toNat
  if den = 0 ∨ peakI = 0 ∨ rhoT = 0 then 0
  else min peakTime (emax * 1000000000000000000 * num / (den * peakI * peakI * rhoT))

/-- Sets THERM_STALE; each change records 0x400A. -/
def Dev.setStale (d : Dev) (n : Nat) (b : Bool) : Dev :=
  if d.thermStale n = b then d
  else (d.setBit (Reg.SOL_STATUS n) 23 b).event (2 + solDieNum n) 0x400A [.h n, .h (if b then 1 else 2)]

/-- SOL_TEMP follows *T*_used. -/
def Dev.fixTemp (d : Dev) (n : Nat) : Dev := d.wr (Reg.SOL_TEMP n) (wd (unsx 16 (d.tUsed n)))

/-- No energising after a coil overtemperature. -/
def Dev.stillCooling (d : Dev) (n : Nat) : Bool := decide (d.now < (d.solOf n).coolUntil)

/-- A coil overtemperature of a fresh model (R215). -/
def Dev.coilHot (d : Dev) (n : Nat) : Dev :=
  let t := d.tUsed n
  if t < (d.f (Reg.SOL_THERM (solDieNum n)) 7 0 * 10 : Nat) || d.stillCooling n then d
  else
    let c := d.solOf n
    let d := d.setSol n { c with coolUntil := d.now + 10000000000 }
    let d := d.setF (Reg.SOL_STATUS n) 27 24 7
    d.event (2 + solDieNum n) 0x400C [.h n, .wI t]

/-- The filter of R211 on an accepted sample of `s` mΩ over `ts` ns. -/
def filterRho (rho rref s ts : Nat) : Nat :=
  let cur : Int := if rho = 0 then rref * 1000 else rho
  (cur + roundDiv (((s : Int) * 1000 - cur) * (min ts 1000000000 : Nat)) 1000000000).toNat

/-- A hold interval that ends yields a sample (R211). -/
def Dev.resSample (d : Dev) (n s ts : Nat) : Dev :=
  let c := d.solOf n
  let r := d.rref n
  if r ≤ 4 * s ∧ s ≤ 4 * r then
    let rho := filterRho c.rho r s ts
    let d := d.setSol n { c with rho := rho, sampleAt := d.now, discards := 0 }
    let d := d.wr (Reg.SOL_RES n) (wd (min 65535 (rho / 1000)))
    let d := d.setBit (Reg.SOL_STATUS n) 20 false
    ((d.setStale n false).fixTemp n).coilHot n
  else
    let k := c.discards + 1
    let d := d.setSol n { c with discards := k }
    if k = 3 then (d.setBit (Reg.SOL_STATUS n) 20 true).event (2 + solDieNum n) 0x4009 [.h n, .w s] else d

/-- ρ_sample in mΩ: the part of the span the drive was on × V_feed / I_mean − ρ_ch (R211). -/
def rhoSample (ppm mV mA ch : Nat) : Nat := min ppm 1000000 * mV * 1000 / (1000000 * mA) - ch

/-- The sample of the hold interval that ends now, over all of it but its first 0.5 ms. -/
def Dev.holdSample (d : Dev) (n : Nat) : Dev :=
  let c := d.solOf n
  let span := d.now - c.holdAt
  if d.solPhase n = 3 ∧ 2000000 ≤ span then
    let k := d.fresh
    (d.bump).resSample n (rhoSample (Config.holdDuty k n) (Config.holdFeed k n) (Config.holdMean k n) (Config.channelOhms n))
      (span - 500000)
  else d

/-! ## Profiles (R201 to R204) -/

/-- Whether a channel may energise now (R197, R212, R215). -/
def Dev.mayEnergise (d : Dev) (n : Nat) : Bool :=
  let c := d.solOf n
  d.bit (Reg.SOL_CTRL n) 31 && !d.solFault n && !d.bit (Reg.SOL_DIE_STATUS (solDieNum n)) 6 && d.solPhase n != 6
    && decide (c.coolUntil ≤ d.now) && (c.overRun == 0 || decide (c.overAt + 10000000 ≤ d.now))

/-- The register word `w` (0 PK, 1 HD, 2 PWM, 3 DET, 4 RC) of a channel's profile. -/
def Dev.profWord (d : Dev) (n w : Nat) : Word :=
  d.rd (Reg.SOL_PROF_PK (8 * solDieNum n + d.f (Reg.SOL_CTRL n) 26 24) + 4 * w)

/-- The boost rail at a profile start (R199); with CAP_FAULT the channels run from the feed as well (R200). -/
def Dev.sampleBoost (d : Dev) (n : Nat) : Dev :=
  let i := solDieNum n
  let ready := d.bit (Reg.SOL_DIE_STATUS i) 0 && !d.bit (Reg.SOL_DIE_STATUS i) 4
  let d := d.setBit (Reg.SOL_STATUS n) 18 (!ready)
  let x := d.solDieOf i
  if ready then d.setSolDie i { x with episode := false }
  else
    let d := d.setBit (Reg.SOL_DIE_STATUS i) 2 true
    if x.episode then d
    else
      let d := d.setSolDie i { x with episode := true }
      d.event (2 + i) 0x4001 [.h i, .w (d.rd (Reg.SOL_BOOST_V i)).toNat, .h n]

/-- An opening that is not confident, or not found (R215). -/
def Dev.notConfident (d : Dev) (n : Nat) : Dev :=
  let k := min 255 (d.f (Reg.SOL_FCNT n) 23 16 + 1)
  let d := d.setF (Reg.SOL_FCNT n) 23 16 k
  let d := d.incOb (Obj.SolUndetectedOpen n)
  let d := d.setBit (Reg.SOL_STATUS n) 17 false
  if d.ob Obj.ArmatureWarnCount ≤ k && !d.bit (Reg.SOL_STATUS n) 21 then
    (d.setBit (Reg.SOL_STATUS n) 21 true).event (2 + solDieNum n) 0x400D [.h n, .w k]
  else d

/-- The opening of the running profile was not found: its window, or the actuation, has ended. -/
def Dev.noOpening (d : Dev) (n : Nat) : Dev :=
  let c := d.solOf n
  if c.opened then d else ((d.setSol n { c with opened := true }).wr (Reg.SOL_MOPEN n) (wd 0xFFFFFFFF)).notConfident n

/-- The closing was not found: its window, or the recovery, has ended. -/
def Dev.noClosing (d : Dev) (n : Nat) : Dev :=
  if (d.solOf n).closedAt = 0 then (d.wr (Reg.SOL_MCLOSE n) (wd 0xFFFFFFFF)).setBit (Reg.SOL_STATUS n) 16 false else d

/-- The allowed peak time at a profile start, published (R214). -/
def Dev.limitPeak (d : Dev) (n : Nat) (pk rc : Word) : Dev × Nat :=
  let i := solDieNum n
  let th := Reg.SOL_THERM i
  let t := d.tUsed n
  let want := fld pk 23 13
  let tpk := peakTime want (fld pk 12 0) (fld rc 28 16) (d.rref n) (d.f (Reg.SOL_ALPHA i) 12 0) (d.f th 7 0) (d.f th 15 8) t
  let d := d.wr (Reg.SOL_PKLIM n) (wd tpk)
  let was := d.bit (Reg.SOL_STATUS n) 22
  let d := d.setBit (Reg.SOL_STATUS n) 22 (decide (tpk < want))
  if tpk < want && !was then (d.event (2 + i) 0x400B [.h n, .w tpk, .wI t], tpk) else (d, tpk)

/-- Enters hold. -/
def Dev.enterHold (d : Dev) (n : Nat) : Dev :=
  let c := d.solOf n
  (d.setSol n { c with holdAt := d.now }).setPhase n 3

/-- Enters the peak phase, or hold where no peak time is allowed (R202, R214). -/
def Dev.enterPeak (d : Dev) (n : Nat) : Dev :=
  let c := d.solOf n
  let d := d.setSol n { c with peakAt := d.now, reached := false }
  if d.f (Reg.SOL_PKLIM n) 11 0 = 0 then d.enterHold n else d.setPhase n 2

/-- A profile starts (R202), ending a recovery; `caught` in it goes to the peak phase at once (R204). -/
def Dev.solStart (d : Dev) (n : Nat) (caught report : Bool) : Dev :=
  if !d.mayEnergise n then d
  else
    let d := if d.solPhase n = 4 ∨ d.solPhase n = 5 then d.noClosing n else d
    let pk := d.profWord n 0
    let rc := d.profWord n 4
    let c := d.solOf n
    let c := { c with
      start := d.now, pk := pk, hd := d.profWord n 1, pwm := d.profWord n 2, det := d.profWord n 3, rc := rc
      caught := caught, opened := false, checked := caught, reportOpen := report, reportClose := false, noConf := !d.senseOk n
      overRun := if c.tooHigh then c.overRun else 0, tooHigh := false, closedAt := 0, drive := true }
    let d := d.setSol n c
    let d := d.wr (Reg.SOL_PULSES n) (d.rd (Reg.SOL_PULSES n) + 1)
    let d := (d.sampleBoost n).fixTemp n
    let (d, _) := d.limitPeak n pk rc
    if caught ∨ fld pk 31 24 = 0 then d.enterPeak n else d.setPhase n 1

/-- Turn-off of an energised coil (R202); `report` says that its closing belongs to the endpoint. The closing's window begins, with no fault
in it but one of the sense channel that stands (R209). -/
def Dev.turnOff (d : Dev) (n : Nat) (report : Bool) : Dev :=
  if d.energised n then
    let d := (d.holdSample n).noOpening n
    let c := d.solOf n
    let c := { c with
      offAt := d.now, reportClose := report, opened := true, pulseOff := 0, closedAt := 0, drive := false
      noConf := !d.senseOk n }
    (d.setSol n c).setPhase n 4
  else d

/-- The channel is off; a latched fault holds it off. -/
def Dev.solRest (d : Dev) (n : Nat) : Dev := d.setPhase n (if d.solFault n then 7 else 0)

/-! ## Levels and pulses (R205, R206) -/

/-- The on-time of a level in 10 µs, 0 for continuous on. -/
def pulseOn (pwm : Word) (level : Nat) : Nat :=
  let period := fld pwm 31 16
  let minOn := fld pwm 15 8 * 10
  let minOff := fld pwm 7 0 * 10
  let ton := (roundDiv ((period * level : Nat) : Int) 65535).toNat
  if period = 0 then 0
  else if period < ton + minOff then 0
  else max ton minOn

/-- The PWM word that a train starting now runs by: the running profile's, or, where no profile could start, the selected one's. -/
def Dev.trainWord (d : Dev) (n : Nat) : Word := if d.energised n then (d.solOf n).pwm else d.profWord n 2

/-- The train of an on: pulse j starts at F_on + j × PERIOD, its first one now (R205). -/
def Dev.startTrain (d : Dev) (n level : Nat) : Dev :=
  let pwm := d.trainWord n
  let ton := pulseOn pwm level
  let c := { (d.solOf n) with onAt := d.now, pwm := pwm, level := level }
  if ton = 0 then d.setSol n { c with train := false, ton := 0, pulseOff := 0 }
  else
    d.setSol n { c with
      train := true, ton := ton, nextPulse := d.now + fld pwm 31 16 * 10000
      pulseOff := if d.energised n then d.now + ton * 10000 else 0 }

/-- The first pulse start after now: F_on plus a whole number of periods. -/
def SolChan.pulseAfter (c : SolChan) (now : Nat) : Nat :=
  let p := fld c.pwm 31 16 * 10000
  c.onAt + ((now - c.onAt) / p + 1) * p

/-- A level action while the coil is on or in a gap of its train (R206): an energised pulse turns off at the later of its new end and
now; a gap keeps its next pulse start, whatever the level. -/
def Dev.changeLevel (d : Dev) (n level : Nat) : Dev :=
  let c := { (d.solOf n) with level := level }
  let ton := pulseOn c.pwm level
  if ton = 0 then d.setSol n { c with train := c.train && !d.energised n, ton := 0, pulseOff := 0 }
  else
    let off := if d.energised n then max (c.start + ton * 10000) d.now else 0
    d.setSol n { c with train := true, ton := ton, pulseOff := off, nextPulse := if c.train then c.nextPulse else c.pulseAfter d.now }

/-- An on or level action reaches the channel (R202, R204 to R206): a coil in recovery is caught, a train's gap keeps its next pulse, and the
pulse that starts in this very tick is the one that the new on-time applies to (R219). Only an on from the off state reports its opening; one
on a coil that a test pulse drives begins its train with the profile that runs. -/
def Dev.solOn (d : Dev) (n level : Nat) (report : Bool) : Dev :=
  let c := d.solOf n
  let inTrain := c.on && c.train
  let starts := inTrain && decide (c.nextPulse / 1000 ≤ d.now / 1000)
  let recovering := decide (d.solPhase n = 4) || decide (d.solPhase n = 5)
  let report := report && !c.on
  let d := d.setSol n { c with on := true }
  if d.energised n then (if c.on then d.changeLevel n level else d.startTrain n level)
  else if recovering && !starts then
    let d := d.solStart n true report
    if inTrain then d.changeLevel n level else d.startTrain n level
  else if inTrain then d.changeLevel n level
  else (d.solStart n false report).startTrain n level

/-- An off action reaches the channel. -/
def Dev.solOff (d : Dev) (n : Nat) : Dev :=
  let c := d.solOf n
  let d := d.setSol n { c with on := false, train := false, ton := 0, pulseOff := 0 }
  d.turnOff n true

/-- The channel is forced on without pulsing: a full profile if it is not energised (R217). -/
def Dev.solForceOn (d : Dev) (n : Nat) : Dev :=
  let c := d.solOf n
  let d := d.setSol n { c with on := true, onAt := if c.on then c.onAt else d.now, train := false, ton := 0, pulseOff := 0 }
  if d.energised n then d else d.solStart n false false

/-! ## Faults (R215, R216) -/

/-- A latched fault: FAULT, LAST_FAULT and the die's map. -/
def Dev.latchSol (d : Dev) (n code : Nat) : Dev :=
  let d := d.setF (Reg.SOL_STATUS n) 27 24 code
  let d := d.setBit (Reg.SOL_STATUS n) 30 true
  let d := d.setBit (Reg.SOL_FAULT_MAP (solDieNum n)) (n % 32) true
  if d.solPhase n = 0 then d.setPhase n 7 else d

/-- The running actuation stays unmeasured. -/
def Dev.unmeasure (d : Dev) (n : Nat) : Dev :=
  let c := d.solOf n
  d.setSol n { c with noConf := true, opened := true, reportClose := false }

/-- Clearing a latched fault (R216): only while the endpoint's OutState.ON is 0. -/
def Dev.solClearable (d : Dev) (n : Nat) : Bool :=
  match d.solId n with
  | none => true
  | some id =>
    match d.ownerOf id with
    | some (e, s) => !bitOf (d.recGet e s 88 1) 0
    | none => true

def Dev.solClear (d : Dev) (n : Nat) : Dev :=
  let last := d.f (Reg.SOL_STATUS n) 27 24
  let c := d.solOf n
  let d := d.setSol n { c with openRun := 0, overRun := 0 }
  let d := d.setBit (Reg.SOL_STATUS n) 30 false
  let d := d.setF (Reg.SOL_STATUS n) 27 24 0
  let d := d.setBit (Reg.SOL_FAULT_MAP (solDieNum n)) (n % 32) false
  let d := if d.solPhase n = 7 then d.setPhase n 0 else d
  d.event (2 + solDieNum n) 0x4011 [.h n, .h last]

end Sys2Proof.Machine
end

