-- ==== Sys2Proof/Machine/Sol.lean ====
section
/-! DEFINITION. The meanings of the solenoid and boost commands (R198 to R221). An event whose condition does not hold when its
command comes changes nothing but the time. -/
namespace Sys2Proof.Machine

/-- The mean of samples, as the 10 µs filters of the rail and the feed form it (R218). -/
def meanOf (l : List Nat) : Nat := l.sum / max 1 l.length

/-- The 10 µs mean that stands after samples of a microsecond each; fewer than ten form none (R218). -/
def mean10 (l : List Nat) : Option Nat := if l.length < 10 then none else some (meanOf (l.drop (l.length - 10)))

/-- The rail in mV, 0 V to 70 V. -/
def railMv (l : List Nat) : Option Nat := (mean10 l).map (min 70000)

/-! ## Phases -/

def Dev.boostEnd (d : Dev) (n : Nat) (raw : Int) : Dev :=
  let c := d.solOf n
  if d.solPhase n = 1 ∧ (fld c.pk 12 0 ≤ d.solAmps n raw ∨ c.start + fld c.pk 31 24 * 10000 ≤ d.now) then
    (d.enterPeak n).solSample n raw
  else d

/-- The allowed peak time is over; `trace` are the samples of the peak phase since the last one given. -/
def Dev.peakEnd (d : Dev) (n : Nat) (trace : List Int) : Dev :=
  if d.solPhase n = 2 ∧ (d.solOf n).peakAt + d.f (Reg.SOL_PKLIM n) 11 0 * 10000 ≤ d.now then (d.solTrace n trace).enterHold n else d

def Dev.kneeReached (d : Dev) (n : Nat) (raw : Int) : Dev :=
  let c := d.solOf n
  if d.solPhase n = 4 ∧ d.solAmps n raw ≤ c.knee then ((d.setSol n { c with slowAt := d.now }).setPhase n 5).solSample n raw else d

/-- Slow recovery ends; `trace` are its samples since the last one given. -/
def Dev.slowEnd (d : Dev) (n : Nat) (trace : List Int) : Dev :=
  let c := d.solOf n
  let closed := decide (c.closedAt ≠ 0) && decide (c.closedAt + 1000000 ≤ d.now)
  let windowOver := decide (c.offAt + fld c.det 31 26 * 1000000 ≤ d.now)
  if d.solPhase n = 5 && (closed || windowOver) then
    let d := (d.solTrace n trace).noClosing n
    (d.setSol n { (d.solOf n) with drive := false }).solRest n
  else d

/-! ## Faults (R215) -/

def Dev.solEvent (d : Dev) (n code : Nat) (ps : List Param) : Dev := d.event (2 + solDieNum n) code (.h n :: ps)

/-- A fault that turns the coil off; `latch` holds it off. -/
def Dev.solTrip (d : Dev) (n code : Nat) (latch : Bool) : Dev :=
  let d := d.turnOff n true
  let d := d.setF (Reg.SOL_STATUS n) 27 24 code
  if latch then d.latchSol n code else d

def Dev.openLoad (d : Dev) (n : Nat) (raw : Int) : Dev :=
  let c := d.solOf n
  let mA := d.solAmps n raw
  if d.energised n && !c.checked && decide (c.start + 500000 ≤ d.now) then
    if mA < 50 then
      let k := c.openRun + 1
      let d := d.setSol n { c with checked := true, openRun := k }
      let d := (d.solSample n raw).satF (Reg.SOL_FCNT n) 7 0
      let d := (d.solTrip n 1 (decide (3 ≤ k))).unmeasure n
      d.solEvent n 0x4005 [.w k]
    else (d.setSol n { c with checked := true, openRun := 0 }).solSample n raw
  else d

/-- Overcurrent: once a profile it is counted; the coil goes to fast recovery, from slow recovery too. -/
def Dev.overcurrent (d : Dev) (n : Nat) (raw : Int) : Dev :=
  let c := d.solOf n
  if 7500 ≤ d.solAmps n raw ∧ d.solPhase n ≤ 5 ∧ d.solPhase n ≠ 0 ∧ !c.tooHigh then
    let k := c.overRun + 1
    let d := d.setSol n { c with tooHigh := true, overRun := k, overAt := d.now }
    let d := (d.solSample n raw).satF (Reg.SOL_FCNT n) 15 8
    let d := d.solTrip n 2 (decide (3 ≤ k))
    let d := d.setSol n { (d.solOf n) with noConf := true }
    (if d.solPhase n = 5 then d.setPhase n 4 else d).solEvent n 0x4006 [.w k]
  else d

def Dev.driverHot (d : Dev) (n : Nat) : Dev :=
  if d.solPhase n = 6 then d
  else
    let d := d.satF (Reg.SOL_FCNT n) 31 24
    let d := ((d.solTrip n 6 false).unmeasure n).setPhase n 6
    d.solEvent n 0x4008 [.h 1]

/-- A full profile that no action commanded: measured in SOL registers only. A train goes on with its own on-time. -/
def Dev.solResume (d : Dev) (n : Nat) : Dev :=
  let c := d.solOf n
  if c.on then
    let d := d.solStart n false false
    let c := d.solOf n
    if c.train && d.energised n then d.setSol n { c with pulseOff := c.start + c.ton * 10000 } else d
  else d

def Dev.driverCooled (d : Dev) (n : Nat) : Dev :=
  if d.solPhase n = 6 then ((d.solRest n).solResume n).solEvent n 0x4008 [.h 2] else d

def Dev.coolEnd (d : Dev) (n : Nat) : Dev :=
  let c := d.solOf n
  if c.coolUntil ≠ 0 ∧ c.coolUntil ≤ d.now then ((d.setSol n { c with coolUntil := 0 }).setStale n true).fixTemp n else d

/-- What the off-state probe finds; only a channel that carries no current is probed. -/
def Dev.offProbe (d : Dev) (n : Nat) (found : Probe) : Dev :=
  let last := d.f (Reg.SOL_STATUS n) 27 24
  if d.solPhase n ≠ 0 ∧ d.solPhase n ≠ 7 then d
  else
    match found with
    | .good => if last = 3 then d.setF (Reg.SOL_STATUS n) 27 24 0 else d
    | .open_ =>
      if last = 3 ∨ d.solFault n then d else (d.setF (Reg.SOL_STATUS n) 27 24 3).solEvent n 0x4007 [.h 3]
    | .toBattery => if last = 4 ∧ d.solFault n then d else (d.latchSol n 4).solEvent n 0x4007 [.h 4]
    | .toGround => if last = 5 ∧ d.solFault n then d else (d.latchSol n 5).solEvent n 0x4007 [.h 5]

/-- Hold current over `trace`, one sample a microsecond up to now: low where it stayed below HOLD_I − HOLD_BAND / 2 for 5 ms, good again
with the last sample. -/
def Dev.holdLow (d : Dev) (n : Nat) (trace : List Int) : Dev :=
  let c := d.solOf n
  let last := (trace.reverse.take 5000).map (d.solAmps n)
  let under := fun (x : Nat) => decide (2 * x + fld c.hd 20 12 < 2 * d.holdI n)
  let low := decide (5000 ≤ last.length) && last.all under
  let back := match last with | x :: _ => !under x | [] => false
  let was := d.bit (Reg.SOL_STATUS n) 19
  if decide (d.solPhase n = 3) && (low || back) then
    let d := (d.solTrace n trace).setBit (Reg.SOL_STATUS n) 19 low
    if low && !was then d.solEvent n 0x400F [.w (meanOf last)] else d
  else d

def dieSols (i : Nat) : List Nat := (List.range 32).map (fun j => 32 * i + j)

/-- Under-voltage of one channel: recovery, and the end of a slow recovery (R215, R219). -/
def Dev.solUnder (d : Dev) (n : Nat) : Dev :=
  if d.energised n then (d.turnOff n false).unmeasure n
  else if d.solPhase n = 4 then d.setSol n { (d.solOf n) with noConf := true }
  else if d.solPhase n = 5 then
    let d := ((d.unmeasure n).wr (Reg.SOL_MCLOSE n) (wd 0xFFFFFFFF)).setBit (Reg.SOL_STATUS n) 16 false
    d.solRest n
  else d

def Dev.feedUnder (d : Dev) (i : Nat) (l : List Nat) : Dev :=
  match mean10 l with
  | none => d
  | some mV =>
    if mV < 7000 ∧ d.bit (Reg.SOL_DIE_STATUS i) 6 = false then
      let d := (d.wr (Reg.SOL_FEED_V i) (wd mV)).setBit (Reg.SOL_DIE_STATUS i) 6 true
      let d := (dieSols i).foldl Dev.solUnder d
      d.event (2 + i) 0x4010 [.h i, .w mV]
    else d

def Dev.feedBack (d : Dev) (i : Nat) (l : List Nat) : Dev :=
  match mean10 l with
  | none => d
  | some mV =>
    if 7800 ≤ mV ∧ d.bit (Reg.SOL_DIE_STATUS i) 6 then
      let d := (d.wr (Reg.SOL_FEED_V i) (wd mV)).setBit (Reg.SOL_DIE_STATUS i) 6 false
      let d := (dieSols i).foldl Dev.solResume d
      d.event (2 + i) 0x4010 [.h i, .w mV]
    else d

/-! ## Detection (R208, R209) -/


/-- The coil resistance that the detector uses, in mΩ: ρ under R211, or ρ₂₀ before any sample (R208). -/
def Dev.coilRho (d : Dev) (n : Nat) : ℚ :=
  let rho := (d.solOf n).rho
  if rho = 0 then (d.rref n : ℚ) else (rho : ℚ) / 1000

/-- Samples as the detectors take them. -/
def Dev.coilPoints (d : Dev) (n : Nat) (l : List CoilSample) : List CoilPoint :=
  l.map (fun x => { mA := d.solAmps n x.raw, mV := x.mV, edge := x.edge })

/-- An opening instant; `deep` says that the dip passed twice its ratio. -/
def Dev.openingFound (d : Dev) (n instant : Nat) (deep : Bool) : Dev :=
  let c := d.solOf n
  let conf := deep && !c.noConf && !c.caught && d.senseOk n
  let d := d.setSol n { c with opened := true }
  let d := d.wr (Reg.SOL_MOPEN n) (wd ((instant - c.start) / 1000))
  let d := if conf then
      ((d.setBit (Reg.SOL_STATUS n) 17 true).setF (Reg.SOL_FCNT n) 23 16 0).setBit (Reg.SOL_STATUS n) 21 false
    else d.notConfident n
  match c.reportOpen, d.solId n with
  | true, some id => d.measure id instant true conf (d.bit (Reg.SOL_STATUS n) 18) none
  | _, _ => d

/-- The opening detector on the samples since the profile start, the first at the start itself (R208). -/
def Dev.openingDetect (d : Dev) (n : Nat) (trace : List CoilSample) : Dev :=
  let c := d.solOf n
  if d.bit (Reg.SOL_CTRL n) 30 && d.energised n && !c.opened then
    match openingIn (d.coilRho n) (fld c.det 7 0) (d.coilPoints n trace) with
    | some (k, deep) =>
      let instant := c.start + k * 1000
      if instant ≤ d.now ∧ k ≤ fld c.det 25 20 * 1000 then d.openingFound n instant deep else d
    | none => d
  else d

/-- A closing instant (R209). -/
def Dev.closingFound (d : Dev) (n instant : Nat) (deep : Bool) : Dev :=
  let c := d.solOf n
  let conf := deep && !c.noConf && d.senseOk n
  let d := d.setSol n { c with closedAt := instant }
  let d := d.wr (Reg.SOL_MCLOSE n) (wd ((instant - c.offAt) / 1000))
  let d := d.setBit (Reg.SOL_STATUS n) 16 conf
  match c.reportClose, d.solId n with
  | true, some id => d.measure id instant false conf false none
  | _, _ => d

/-- The closing detector on the samples since slow recovery began (R209). -/
def Dev.closingDetect (d : Dev) (n : Nat) (trace : List CoilSample) : Dev :=
  let c := d.solOf n
  if d.bit (Reg.SOL_CTRL n) 30 && decide (d.solPhase n = 5) && decide (c.closedAt = 0) then
    match closingIn (fld c.det 15 8) (d.coilPoints n trace) with
    | some (k, deep) =>
      let instant := c.slowAt + k * 1000
      if instant ≤ d.now ∧ instant ≤ c.offAt + fld c.det 31 26 * 1000000 then d.closingFound n instant deep else d
    | none => d
  else d

def Dev.openWindowEnd (d : Dev) (n : Nat) : Dev :=
  if d.energised n && decide ((d.solOf n).start + fld (d.solOf n).det 25 20 * 1000000 ≤ d.now) then d.noOpening n else d

/-! ## Pulses (R205, R206, R221) -/

/-- A pulse starts a whole profile, ending what recovery still runs (R205), and its on-time and the next start follow the profile's own
PERIOD, MIN_ON and MIN_OFF (R201); under a continuous level it ends the train. -/
def Dev.pulseStart (d : Dev) (n : Nat) : Dev :=
  let c := d.solOf n
  if c.on && c.train && decide (c.nextPulse ≤ d.now) then
    let d := if d.energised n then d.turnOff n false else d
    let d := d.solStart n false false
    let c := d.solOf n
    let ton := if c.ton = 0 then 0 else pulseOn c.pwm c.level
    if ton = 0 then d.setSol n { c with train := false, ton := 0, pulseOff := 0 }
    else
      d.setSol n { c with
        ton := ton
        nextPulse := c.nextPulse + fld c.pwm 31 16 * 10000
        pulseOff := if d.energised n then c.nextPulse + ton * 10000 else 0 }
  else d

def Dev.pulseEnd (d : Dev) (n : Nat) : Dev :=
  let c := d.solOf n
  if c.pulseOff ≠ 0 ∧ c.pulseOff ≤ d.now then
    (d.setSol n { c with pulseOff := 0 }).turnOff n false
  else d

/-- SolTestPulse: one profile of that length; nothing is energised while something above the command source holds the channel (R265), and a
running profile is never restarted. -/
def Dev.testPulse (d : Dev) (n v : Nat) : WRes :=
  if v < 1 ∨ 1000 < v then d.no 0x0301
  else if d.inField || d.outEnabled 0 n then d.no 0x0401
  else if d.closed || d.forcing (solDieNum n) || d.energised n then d.yes
  else
    let d := d.solStart n false false
    if d.energised n then
      let c := d.solOf n
      (d.setSol n { c with pulseOff := d.now + v * 1000000 }).yes
    else d.yes

def Dev.staleDue (d : Dev) (n : Nat) : Dev :=
  let c := d.solOf n
  if !d.thermStale n && decide (c.sampleAt + 60000000000 ≤ d.now) then (d.setStale n true).fixTemp n else d

/-! ## Boost converters (R198 to R200) -/

/-- The target in mV. -/
def Dev.boostTarget (d : Dev) (i : Nat) : Nat := d.f (Reg.SOL_DIE_CTRL i) 15 8 * 500

/-- The converter runs. -/
def Dev.boostRuns (d : Dev) (i : Nat) : Bool :=
  let x := d.solDieOf i
  d.hostOn && d.bit (Reg.SOL_DIE_CTRL i) 0 && !x.stopped && !x.exceeds && !d.bit (Reg.SOL_DIE_STATUS i) 4

/-- The rail is below 80 % of the target (R198). -/
def Dev.railLow (d : Dev) (i : Nat) : Bool := decide ((d.rd (Reg.SOL_BOOST_V i)).toNat * 10 < d.boostTarget i * 8)

/-- CHARGING follows the converter; a charge from below 80 % begins where it finds the rail so (R200). -/
def Dev.fixCharging (d : Dev) (i : Nat) : Dev :=
  let v := (d.rd (Reg.SOL_BOOST_V i)).toNat
  let on := d.boostRuns i && decide (v < d.boostTarget i)
  let x := d.solDieOf i
  let d := d.setSolDie i { x with
    chargeFrom := if !d.boostRuns i then none else if on && d.railLow i then some (x.chargeFrom.getD v) else x.chargeFrom }
  d.setBit (Reg.SOL_DIE_STATUS i) 1 on

/-- BOOST_READY against the present target, with what follows (R198, R199). -/
def Dev.judgeBoost (d : Dev) (i : Nat) : Dev :=
  let was := d.bit (Reg.SOL_DIE_STATUS i) 0
  let ready := !d.railLow i
  let d := d.setBit (Reg.SOL_DIE_STATUS i) 0 ready
  let x := d.solDieOf i
  let d := if ready then (d.setBit (Reg.SOL_DIE_STATUS i) 3 false).setSolDie i { x with stopped := false }
    else if was then d.setSolDie i { x with notReadyAt := d.now }
    else d
  d.fixCharging i

/-- The rail as measured. -/
def Dev.boostReading (d : Dev) (i mV : Nat) : Dev := (d.wr (Reg.SOL_BOOST_V i) (wd mV)).judgeBoost i

/-- BOOST_EN has gone from 0 to 1, or the die has come up: the 100 ms of R199 run from here. -/
def Dev.boostFrom (d : Dev) (i : Nat) : Dev := (d.setSolDie i { (d.solDieOf i) with notReadyAt := d.now }).judgeBoost i

/-- SOL_DIE_CTRL has been written, its BOOST_EN having been `was`. A charge that no longer comes from below 80 % of the target, or has
passed it, yields no estimate (R200). -/
def Dev.boostSet (d : Dev) (i : Nat) (was : Bool) : Dev :=
  let x := d.solDieOf i
  let past := decide (d.boostTarget i ≤ (d.rd (Reg.SOL_BOOST_V i)).toNat)
  let d := d.setSolDie i { x with chargeFrom := x.chargeFrom.filter (fun v => !past && decide (v * 10 < d.boostTarget i * 8)) }
  if d.bit (Reg.SOL_DIE_CTRL i) 0 && !was then d.boostFrom i else d.judgeBoost i

/-- The rail has not been ready for 100 ms, by its mean now (R199). -/
def Dev.boostFails (d : Dev) (i : Nat) (l : List Nat) : Dev :=
  let x := d.solDieOf i
  match railMv l with
  | none => d
  | some mV =>
    if d.boostTarget i * 8 ≤ mV * 10 then d.boostReading i mV
    else if d.bit (Reg.SOL_DIE_CTRL i) 0 && !d.bit (Reg.SOL_DIE_STATUS i) 0 && !x.stopped && decide (x.notReadyAt + 100000000 ≤ d.now) then
      let was := d.bit (Reg.SOL_DIE_STATUS i) 3
      let d := (d.wr (Reg.SOL_BOOST_V i) (wd mV)).setBit (Reg.SOL_DIE_STATUS i) 3 true
      let d := (d.setSolDie i { x with stopped := true, faultAt := d.now }).fixCharging i
      if was then d else d.event (2 + i) 0x4002 [.h i, .w mV]
    else d

def Dev.boostAgain (d : Dev) (i : Nat) : Dev :=
  let x := d.solDieOf i
  if x.stopped && decide (x.faultAt + 1000000000 ≤ d.now) then
    (d.setSolDie i { x with stopped := false, notReadyAt := d.now }).fixCharging i
  else d

/-- The target is reached, `charge` µC having been delivered: after a charge from below 80 % the capacitance is estimated from the charge
and the rise (R200). -/
def Dev.charged (d : Dev) (i charge : Nat) : Dev :=
  if d.boostRuns i then
    let from_ := (d.solDieOf i).chargeFrom
    let d := (d.boostReading i (d.boostTarget i)).setSolDie i { ((d.boostReading i (d.boostTarget i)).solDieOf i) with chargeFrom := none }
    match from_ with
    | none => d
    | some v =>
      let uF := charge * 1000 / (d.boostTarget i - v)
      let d := d.wr (Reg.SOL_CAP_EST i) (wd (min 65535 uF))
      if uF < 400 ∨ 6000 < uF then
        ((d.setBit (Reg.SOL_DIE_STATUS i) 4 true).fixCharging i).event (2 + i) 0x4003 [.h i, .w uF]
      else d
  else d

/-- The 10 µs means of successive samples. -/
def means10 : Nat → List Nat → List Nat
  | 0, _ => []
  | n + 1, l =>
    match railMv (l.take 10) with
    | none => []
    | some v => v :: means10 n (l.drop 10)

/-- The rail over more than 100 µs, one sample a microsecond (R200). -/
def Dev.overvolt (d : Dev) (i : Nat) (l : List Nat) : Dev :=
  let ms := means10 l.length l
  let top := ms.foldl max 0
  if 10 < ms.length ∧ ms.all (fun x => decide (66000 < x)) ∧ (d.solDieOf i).exceeds = false then
    let d := (d.boostReading i (ms.getLast?.getD 0)).setBit (Reg.SOL_DIE_STATUS i) 5 true
    let x := d.solDieOf i
    ((d.setSolDie i { x with exceeds := true }).fixCharging i).event (2 + i) 0x4004 [.h i, .w top]
  else d

def Dev.overvoltEnd (d : Dev) (i : Nat) (l : List Nat) : Dev :=
  let x := d.solDieOf i
  match railMv l with
  | none => d
  | some mV => if x.exceeds && decide (mV < d.boostTarget i) then (d.setSolDie i { x with exceeds := false }).boostReading i mV else d

/-- A session of at least Service level is open (for the CAP_CLEAR bit of a register write). -/
def Dev.serviceOpen (d : Dev) : Bool := d.sec.sessions.any (fun x => d.live x && decide (2 ≤ x.level))

def Dev.capClear (d : Dev) (i : Nat) : Dev := (d.setBit (Reg.SOL_DIE_STATUS i) 4 false).fixCharging i

/-! ## The replica sense channel (R207) -/

/-- Confidence is forced to 0 on the die. -/
def Dev.distrust (d : Dev) (n : Nat) : Dev :=
  let c := d.solOf n
  let d := if 1 ≤ d.solPhase n ∧ d.solPhase n ≤ 5 then d.setSol n { c with noConf := true } else d
  (d.setBit (Reg.SOL_STATUS n) 17 false).setBit (Reg.SOL_STATUS n) 16 false

def Dev.senseFails (d : Dev) (i : Nat) (tenths : Int) : Dev :=
  if d.bit (Reg.SOL_DIE_STATUS i) 7 then d
  else
    let d := d.setBit (Reg.SOL_DIE_STATUS i) 7 true
    ((dieSols i).foldl Dev.distrust d).event (2 + i) 0x400E [.h i, Param.wI tenths]

def Dev.replica (d : Dev) (i : Nat) (tenths : Int) : Dev :=
  let x := d.solDieOf i
  let d := d.setSolDie i { x with replicaAt := d.now }
  if -400 ≤ tenths ∧ tenths ≤ 400 then
    (d.wr (Reg.SOL_OFFS_REP i) (wd (unsx 16 tenths))).setBit (Reg.SOL_DIE_STATUS i) 7 false
  else d.senseFails i tenths

/-! ## Meanings -/

def execSolBoostEnd (t n : Nat) (raw : Int) (s : State) : Host.Outcome State Fault Refusal := s.put ((s.dev.advance t).boostEnd n raw)
def execSolPeakEnd (t n : Nat) (trace : List Int) (s : State) : Host.Outcome State Fault Refusal := s.put ((s.dev.advance t).peakEnd n trace)
def execSolKneeReached (t n : Nat) (raw : Int) (s : State) : Host.Outcome State Fault Refusal :=
  s.put ((s.dev.advance t).kneeReached n raw)
def execSolSlowRecoveryEnd (t n : Nat) (trace : List Int) (s : State) : Host.Outcome State Fault Refusal := s.put ((s.dev.advance t).slowEnd n trace)
def execSolOpenLoadCheck (t n : Nat) (raw : Int) (s : State) : Host.Outcome State Fault Refusal :=
  s.put ((s.dev.advance t).openLoad n raw)
def execSolOvercurrent (t n : Nat) (raw : Int) (s : State) : Host.Outcome State Fault Refusal :=
  s.put ((s.dev.advance t).overcurrent n raw)
def execSolDriverOvertemp (t n : Nat) (s : State) : Host.Outcome State Fault Refusal := s.put ((s.dev.advance t).driverHot n)
def execSolDriverCooled (t n : Nat) (s : State) : Host.Outcome State Fault Refusal := s.put ((s.dev.advance t).driverCooled n)
def execSolCoilCooldownEnd (t n : Nat) (s : State) : Host.Outcome State Fault Refusal := s.put ((s.dev.advance t).coolEnd n)
def execSolOpeningDetect (t n : Nat) (trace : List CoilSample) (s : State) : Host.Outcome State Fault Refusal :=
  s.put ((s.dev.advance t).openingDetect n trace)
def execSolClosingDetect (t n : Nat) (trace : List CoilSample) (s : State) : Host.Outcome State Fault Refusal :=
  s.put ((s.dev.advance t).closingDetect n trace)
def execSolOpenWindowEnd (t n : Nat) (s : State) : Host.Outcome State Fault Refusal := s.put ((s.dev.advance t).openWindowEnd n)
def execSolPulseStart (t n : Nat) (s : State) : Host.Outcome State Fault Refusal := s.put ((s.dev.advance t).pulseStart n)
def execSolPulseOff (t n : Nat) (s : State) : Host.Outcome State Fault Refusal := s.put ((s.dev.advance t).pulseEnd n)
def execSolThermStale (t n : Nat) (s : State) : Host.Outcome State Fault Refusal := s.put ((s.dev.advance t).staleDue n)
def execSolOffProbe (t n : Nat) (found : Probe) (s : State) : Host.Outcome State Fault Refusal :=
  s.put ((s.dev.advance t).offProbe n found)
def execSolHoldLow (t n : Nat) (trace : List Int) (s : State) : Host.Outcome State Fault Refusal := s.put ((s.dev.advance t).holdLow n trace)
def execSolFeedUv (t die : Nat) (mV : List Nat) (s : State) : Host.Outcome State Fault Refusal := s.put ((s.dev.advance t).feedUnder die mV)
def execSolFeedRecover (t die : Nat) (mV : List Nat) (s : State) : Host.Outcome State Fault Refusal :=
  s.put ((s.dev.advance t).feedBack die mV)

def execSolFaultClear (t : Nat) (via : Via) (n : Nat) (s : State) : Host.Outcome State Fault Refusal :=
  match via with
  | .reg m => s.put ((s.dev.advance t).byMaster m (Reg.SOL_CMD n) true (fun d =>
      if d.solFault n && d.solClearable n then d.solClear n else d))
  | .dict r => s.put ((s.dev.advance t).dictVal r 0x4127 (n + 1) 1 1 (fun d =>
      if !d.solClearable n then d.no 0x0401 else (if d.solFault n then d.solClear n else d).yes))

def execSolFcntClear (t m n : Nat) (s : State) : Host.Outcome State Fault Refusal :=
  s.put ((s.dev.advance t).byMaster m (Reg.SOL_CMD n) true (fun d => d.wr (Reg.SOL_FCNT n) 0))

def execSolTestPulse (t : Nat) (r : Req) (n v : Nat) (s : State) : Host.Outcome State Fault Refusal :=
  s.put ((s.dev.advance t).dictVal r 0x4129 (n + 1) 2 v (fun d => d.testPulse n v))

def execBoostReadyChange (t die : Nat) (mV : List Nat) (s : State) : Host.Outcome State Fault Refusal :=
  let d := s.dev.advance t
  s.put (match railMv mV with | some v => d.boostReading die v | none => d)
def execBoostFault (t die : Nat) (mV : List Nat) (s : State) : Host.Outcome State Fault Refusal := s.put ((s.dev.advance t).boostFails die mV)
def execBoostRestart (t die : Nat) (s : State) : Host.Outcome State Fault Refusal := s.put ((s.dev.advance t).boostAgain die)
def execBoostChargeComplete (t die charge : Nat) (s : State) : Host.Outcome State Fault Refusal :=
  s.put ((s.dev.advance t).charged die charge)
def execBoostOvervolt (t die : Nat) (mV : List Nat) (s : State) : Host.Outcome State Fault Refusal := s.put ((s.dev.advance t).overvolt die mV)
def execBoostOvervoltEnd (t die : Nat) (mV : List Nat) (s : State) : Host.Outcome State Fault Refusal :=
  s.put ((s.dev.advance t).overvoltEnd die mV)

def execBoostCapClear (t : Nat) (via : Via) (die : Nat) (s : State) : Host.Outcome State Fault Refusal :=
  match via with
  | .reg m => s.put ((s.dev.advance t).byMaster m (Reg.SOL_DIE_CTRL die) true (fun d =>
      if d.serviceOpen then d.capClear die else d))
  | .dict r => s.put ((s.dev.advance t).dictVal r 0x4100 (9 + die) 1 1 (fun d => (d.capClear die).yes))

def execSenseReplicaRead (t die : Nat) (tenths : Int) (s : State) : Host.Outcome State Fault Refusal :=
  s.put ((s.dev.advance t).replica die tenths)
def execSenseOffsetTimeout (t die : Nat) (s : State) : Host.Outcome State Fault Refusal :=
  s.put (let d := s.dev.advance t
    if (d.solDieOf die).replicaAt + 5000000 ≤ d.now then d.senseFails die (sx 16 (d.f (Reg.SOL_OFFS_REP die) 15 0)) else d)

end Sys2Proof.Machine
end

