-- ==== Sys2Proof/Machine/LouvreOps.lean ====
section
/-! DEFINITION. Louvre carriers, delayed output edges, periods and the synchronising chain (R225 to R236). Instants count 31.25 ps
units, 32 to a nanosecond. -/
namespace Sys2Proof.Machine

def Dev.lvMod (d : Dev) (n : Nat) : LvMod := SMap.get (fun _ => LvMod.reset) d.lv n
def Dev.setLv (d : Dev) (n : Nat) (x : LvMod) : Dev := { d with lv := SMap.set (fun _ => LvMod.reset) d.lv n x }
def Dev.chainOf (d : Dev) (i : Nat) : LvChain := SMap.get (fun _ => LvChain.reset) d.lvChain i
def Dev.setChain (d : Dev) (i : Nat) (x : LvChain) : Dev := { d with lvChain := SMap.set (fun _ => LvChain.reset) d.lvChain i x }

/-- FT in units of 31.25 ps, to the end of the present nanosecond. -/
def Dev.fine (d : Dev) : Nat := d.now * 32 + 31

def Dev.lvRunning (d : Dev) (n : Nat) : Bool := d.bit (Reg.LV_STATUS n) 0
def Dev.lvFrozen (d : Dev) (n : Nat) : Bool := d.bit (Reg.LV_STATUS n) 2

/-! ## Output edges (R227) -/

/-- Adds a delayed edge. An edge that would come at or before the edge before it removes both; the flag tells of an omitted pulse. -/
def LvOut.push (o : LvOut) (e : Nat) (lv : Bool) : LvOut × Bool :=
  match o.pend.getLast? with
  | some (x, l) =>
    if l = lv then (o, false)
    else if e ≤ x then ({ o with pend := o.pend.dropLast }, !lv)
    else ({ o with pend := o.pend ++ [(e, lv)] }, false)
  | none => if o.level = lv then (o, false) else ({ o with pend := [(e, lv)] }, false)

/-- Edges up to `u` have been made. -/
def LvOut.settle (o : LvOut) (u : Nat) : LvOut :=
  { level := ((o.pend.filter (fun p => decide (p.1 ≤ u))).getLast?.map (fun p => p.2)).getD o.level
    pend := o.pend.filter (fun p => decide (u < p.1)) }

/-- A carrier edge and what it does to outputs A and B. -/
def LvPair.edge (p : LvPair) (rise fall : Nat) (e : Nat × Bool) : LvPair :=
  if p.lev = some e.2 then p
  else
    let at_ (up : Bool) := e.1 + 40 * (if up then rise else fall)
    let a := p.a.push (at_ e.2) e.2
    let b := p.b.push (at_ (!e.2)) (!e.2)
    { p with lev := some e.2, a := a.1, b := b.1, supp := p.supp + b2n a.2 + b2n b.2 }

/-- The pair as it stands at `u`. -/
def LvPair.run (p : LvPair) (rise fall u : Nat) : LvPair :=
  let due := p.carr.filter (fun e => decide (e.1 ≤ u))
  let q := due.foldl (fun q e => LvPair.edge q rise fall e) p
  { q with carr := p.carr.filter (fun e => decide (u < e.1)), a := q.a.settle u, b := q.b.settle u }

/-- The carrier edges of an interval that begins at `b`; what was still to come of the interval before it is cut off there (R226,
R232). -/
def LvPair.interval (p : LvPair) (b per t : Nat) (offTime cut : Bool) : LvPair :=
  let rest := p.carr.filter (fun e => decide (e.1 < b))
  let high := ((rest.getLast?.map (fun e => some e.2)).getD p.lev) == some true
  let fell := p.carr.any (fun e => decide (b ≤ e.1) && !e.2)
  let cutEdge := if cut && high && fell then [(b, false)] else []
  let first := if t = 0 then offTime else !offTime
  let second := if t = 0 ∨ per ≤ t then [] else [(b + 5 * t, offTime)]
  { p with carr := rest ++ cutEdge ++ (b, first) :: second }

/-- RISE and FALL of a pair. -/
def Dev.lvDelay (d : Dev) (n p : Nat) : Nat × Nat :=
  let a := if p = 0 then Reg.LV_DLY0 n else Reg.LV_DLY1 n
  (d.f a 15 0, d.f a 31 16)

def LvMod.pair (x : LvMod) (p : Nat) : LvPair := if p = 0 then x.pair0 else x.pair1

/-- The instant a module's edges have reached: the halt while it is frozen. -/
def LvMod.at_ (x : LvMod) (u : Nat) : Nat := x.frozenAt.getD u

/-- Brings a module's pairs up to `u`. -/
def Dev.lvRun (d : Dev) (n u : Nat) (x : LvMod) : LvMod :=
  let d0 := d.lvDelay n 0
  let d1 := d.lvDelay n 1
  { x with pair0 := x.pair0.run d0.1 d0.2 (x.at_ u), pair1 := x.pair1.run d1.1 d1.2 (x.at_ u) }

/-- The level of output `k` (0 A0, 1 B0, 2 A1, 3 B1) now. -/
def Dev.lvLevel (d : Dev) (n k : Nat) : Bool :=
  let p := k / 2
  let x := d.lvRun n d.fine (d.lvMod n)
  let o := if k % 2 = 0 then (x.pair p).a else (x.pair p).b
  d.lvRunning n && d.bit (Reg.LV_CTRL n) (27 - p) && o.level

/-- Output `k` stays high throughout the period that its module took (R226). -/
def Dev.lvSteady (d : Dev) (n k : Nat) : Bool :=
  let x := d.lvMod n
  let t := if k / 2 = 0 then x.t0 else x.t1
  if (k % 2 == 0) != d.bit (Reg.LV_CTRL n) 30 then decide (x.p ≤ t) && decide (t ≠ 0) else t == 0

/-- Output `k` stays low throughout the period that its module took, or its module drives nothing. -/
def Dev.lvIdle (d : Dev) (n k : Nat) : Bool :=
  let x := d.lvMod n
  let t := if k / 2 = 0 then x.t0 else x.t1
  !d.lvRunning n || !d.bit (Reg.LV_CTRL n) (27 - k / 2) ||
    (if (k % 2 == 0) != d.bit (Reg.LV_CTRL n) 30 then t == 0 else decide (x.p ≤ t) && decide (t ≠ 0))

/-- The count in the running period, in taps (LV_COUNT). -/
def Dev.lvCount (d : Dev) (n : Nat) : Nat :=
  let x := d.lvMod n
  if d.lvRunning n then (x.at_ (d.now * 32) - x.start) / 5 else 0

/-! ## Periods (R228, R229, R234) -/

/-- The staged timing registers as they stand. -/
def Dev.lvStaged (d : Dev) (n : Nat) : LvSet :=
  { at_ := d.now * 32, period := (d.rd (Reg.LV_PERIOD n)).toNat, t0 := (d.rd (Reg.LV_TIME0 n)).toNat, t1 := (d.rd (Reg.LV_TIME1 n)).toNat
    ph := (d.rd (Reg.LV_PHASE1 n)).toNat, cmp := (List.range 4).map (fun j => (d.rd (Reg.LV_CMP n j)).toNat / 32 * 32) }

/-- A set is taken, its period clamped; the sets marked before it are passed over. -/
def Dev.lvTake (d : Dev) (n : Nat) (s : LvSet) : Dev :=
  let lo := (d.rd (Reg.LV_PMIN n)).toNat
  let hi := (d.rd (Reg.LV_PMAX n)).toNat
  let p := max lo (min hi s.period)
  let x := d.lvMod n
  let limited := decide (p ≠ s.period)
  let left := x.commits.filter (fun c => decide (s.at_ < c.at_))
  let y := { x with
    p := p, t0 := s.t0, t1 := s.t1, ph := s.ph, cmp := s.cmp, takenAt := d.now, limEpisode := limited, commits := left }
  let d := (d.setLv n y).setBit (Reg.LV_STATUS n) 1 (!left.isEmpty)
  let d := if limited then d.setBit (Reg.LV_STATUS n) 5 true else d
  if limited && !x.limEpisode then d.event (2 + n / 8) 0x5084 [.h n, .w (s.period * 25 / 160000)] else d

/-- The set that a period start at `b` takes: the one marked last before its 5 ns cycle (R228). -/
def LvMod.dueSet (x : LvMod) (b : Nat) : Option LvSet := (x.commits.filter (fun c => decide (c.at_ / 160 < b / 160))).getLast?

/-- A period starts at `b`; `cut` tells of a synchronising restart. -/
def Dev.lvPeriod (d : Dev) (n b : Nat) (cut : Bool) : Dev :=
  let x := d.lvRun n (b - 1) (d.lvMod n)
  let offTime := d.bit (Reg.LV_CTRL n) 30
  let b1 := b + 5 * (if x.p = 0 then 0 else x.ph % x.p)
  let y := { x with
    start := b, fired := 0, restartAt := x.restartAt.filter (fun r => decide (b < r))
    pair0 := x.pair0.interval b x.p x.t0 offTime cut
    pair1 := x.pair1.interval b1 x.p x.t1 offTime cut }
  let d := d.setLv n y
  d.wr (Reg.LV_PERIODS n) (d.rd (Reg.LV_PERIODS n) + 1)

/-- The earliest synchronising restart still to come. -/
def LvMod.firstRestart (x : LvMod) : Option Nat :=
  x.restartAt.foldl (fun a r => match a with | none => some r | some b => some (min b r)) none

/-- The end of the running period: the synchronising restart where one comes first. -/
def Dev.lvNext (d : Dev) (n : Nat) : Nat :=
  let x := d.lvMod n
  let e := x.start + 5 * x.p
  match x.firstRestart with
  | some r => min r e
  | none => e

/-- A module sends its synchronising pulse at a period start while the chain is open (R232). -/
def Dev.lvSend (d : Dev) (n b : Nat) (chain : Bool) : Dev :=
  if chain && d.bit (Reg.LV_CTRL n) 28 && decide (n % 8 < 7) then d.emit .line (n + 1) 0x5086 [b] else d

/-- A period start that is due: the committed set is taken where it was committed before this 5 ns cycle, and the pulse of SYNC_OUT is
sent while the chain is open. -/
def Dev.lvStart (d : Dev) (n b : Nat) (cut chain : Bool) : Dev :=
  let x := d.lvMod n
  let d := d.setLv n (d.lvRun n (b - 1) x)
  let d := match x.dueSet b with | some s => d.lvTake n s | none => d
  (d.lvPeriod n b cut).lvSend n b chain

/-- EN is written 1 from 0: a period starts at count 0 in the next 5 ns cycle, with the staged set taken at once (R234). -/
def Dev.lvEnable (d : Dev) (n : Nat) (chain : Bool) : Dev :=
  let b := (d.now / 5 + 1) * 160
  let x := d.lvMod n
  let d := d.setLv n { x with pair0 := { LvPair.reset with supp := x.pair0.supp }, pair1 := { LvPair.reset with supp := x.pair1.supp } }
  let d := ((d.lvTake n (d.lvStaged n)).lvPeriod n b false).lvSend n b chain
  let d := (d.setBit (Reg.LV_STATUS n) 0 true).setBit (Reg.LV_STATUS n) 3 false
  d.event (2 + n / 8) 0x5081 [.h n, .h 1]

/-- The module is disabled: all outputs low (R234). A freeze of it lasts until the halt is released, and marked sets stay pending. -/
def Dev.lvDisable (d : Dev) (n cause : Nat) : Dev :=
  if d.lvRunning n then
    let x := d.lvRun n d.fine (d.lvMod n)
    let d := d.setLv n { LvMod.reset with
      ignored := x.ignored, frozenAt := x.frozenAt, commits := x.commits
      pair0 := { LvPair.reset with supp := x.pair0.supp }, pair1 := { LvPair.reset with supp := x.pair1.supp } }
    let d := (d.setBit (Reg.LV_STATUS n) 0 false).setBit (Reg.LV_CTRL n) 31 false
    d.event (2 + n / 8) 0x5081 [.h n, .h cause]
  else d.setBit (Reg.LV_CTRL n) 31 false

/-- The counter of a module stands from now on, and FROZEN is set (R233). -/
def Dev.lvStand (d : Dev) (n : Nat) : Dev :=
  let u := d.now * 32
  let x := if d.lvRunning n then d.lvRun n u (d.lvMod n) else d.lvMod n
  (d.setLv n { x with frozenAt := some u }).setBit (Reg.LV_STATUS n) 2 true

/-- A debug halt of its cluster freezes a module, whether it runs or not (R233). -/
def Dev.lvFreeze (d : Dev) (n : Nat) : Dev :=
  if d.lvFrozen n then d else (d.lvStand n).event (2 + n / 8) 0x5083 [.h n, .h (d.f (Reg.LV_CTRL n) 6 0)]

def LvOut.shift (o : LvOut) (k : Nat) : LvOut := { o with pend := o.pend.map (fun p => (p.1 + k, p.2)) }
def LvPair.shift (p : LvPair) (k : Nat) : LvPair :=
  { p with carr := p.carr.map (fun e => (e.1 + k, e.2)), a := p.a.shift k, b := p.b.shift k }

/-- The release: the counter goes on from its count at the halt. -/
def Dev.lvThaw (d : Dev) (n : Nat) : Dev :=
  let x := d.lvMod n
  match x.frozenAt with
  | none => d
  | some u =>
    let k := d.now * 32 - u
    let y := { x with
      frozenAt := none, start := x.start + k, pair0 := x.pair0.shift k, pair1 := x.pair1.shift k
      restartAt := x.restartAt.map (fun r => r + k), takenAt := x.takenAt + k / 32 }
    let d := (d.setLv n y).setBit (Reg.LV_STATUS n) 2 false
    d.event (2 + n / 8) 0x5083 [.h n, .h (d.f (Reg.LV_CTRL n) 6 0)]

/-- Modules assigned to a cluster. -/
def Dev.lvOf (d : Dev) (c : Nat) : List Nat := (List.range 16).filter (fun n => d.f (Reg.LV_CTRL n) 6 0 == c)

/-! ## The chain (R231) -/

def Dev.chainOpen (d : Dev) (i : Nat) : Bool :=
  let x := d.chainOf i
  x.early || d.bit (Reg.LV_CHAIN i) 1 || decide (d.now < x.resyncUntil)

/-- Records that the chain has opened or closed. -/
def Dev.chainNote (d : Dev) (i cause : Nat) : Dev :=
  let o := d.chainOpen i
  let x := d.chainOf i
  if x.open_ = o then d
  else (d.setChain i { x with open_ := o }).event (2 + i) 0x5085 [.h i, .h (Config.cause 0x5085 cause)]

/-! ## Hinge slots as the modules see them (R251, R253) -/

def hgDie (g : Nat) : Nat := g / 16
def hgSlot (g : Nat) : Nat := g % 16

/-- A register of a slot, by the name of its first instance: die and slot added. -/
def hgReg (r : Nat → Nat → Nat) (g : Nat) : Nat := r (hgDie g) (hgSlot g)

def Dev.hgCtrl (d : Dev) (g hi lo : Nat) : Nat := d.f (hgReg Reg.HG_SCTRL g) hi lo
def Dev.hgRoute (d : Dev) (g hi lo : Nat) : Nat := d.f (hgReg Reg.HG_SROUTE g) hi lo

/-- A slot is enabled, and its die's engine runs slots. -/
def Dev.hgOn (d : Dev) (g : Nat) : Bool := d.hgCtrl g 31 31 == 1 && d.bit (Reg.HG_CTRL (hgDie g)) 0

def Dev.hgGroup (d : Dev) (g : Nat) : Nat := d.hgCtrl g 20 18

def dieSlots (i : Nat) : List Nat := (List.range 16).map (fun s => 16 * i + s)

/-- The enabled members of a slot's group, in slot order; the slot alone without one. -/
def Dev.hgMembers (d : Dev) (g : Nat) : List Nat :=
  if d.hgGroup g = 0 then [g] else (dieSlots (hgDie g)).filter (fun x => d.hgOn x && d.hgGroup x == d.hgGroup g)

/-- A slot that leads: ungrouped, or the lowest enabled member. -/
def Dev.hgLeads (d : Dev) (g : Nat) : Bool := (d.hgMembers g).head? == some g

/-- The module, channel or slot that a slot's destination names. -/
def Dev.hgModule (d : Dev) (g : Nat) : Nat := 8 * hgDie g + d.hgRoute g 26 24

/-- An enabled slot that leads commands this module: it may not lose its cluster, which would make the slot's configuration a reserved
one (R251). -/
def Dev.hgCommands (d : Dev) (n : Nat) : Bool :=
  (dieSlots (n / 8)).any (fun g => d.hgOn g && d.hgLeads g && decide (1 ≤ d.hgRoute g 31 29) && decide (d.hgRoute g 31 29 ≤ 3)
    && d.hgModule g == n)

/-- A destination that R251 reserves whatever the other slots do: a slot that is itself or none of the die's, or a module without a
cluster. -/
def Dev.hgDestBad (d : Dev) (g dest idx : Nat) : Bool :=
  (dest == 5 && (decide (16 ≤ idx) || idx == hgSlot g))
    || (decide (1 ≤ dest) && decide (dest ≤ 3) && d.f (Reg.LV_CTRL (8 * hgDie g + idx % 8)) 6 0 == 127)

end Sys2Proof.Machine
end

