-- ==== Sys2Proof/Machine/CloseOps.lean ====
section
/-! DEFINITION. What decides an output: protection, the close state, the watchdogs' forced states, the command source (R265 to R287).
The level of a load switch or a digital output is a function of the state; a solenoid channel, whose profile has phases, is brought
in line whenever what decides changes. -/
namespace Sys2Proof.Machine

/-! ## The close state and forcing -/

def Dev.loadDieOf (d : Dev) (i : Nat) : LoadDie := SMap.get (fun _ => LoadDie.reset) d.loadDie i
def Dev.setLoadDie (d : Dev) (i : Nat) (x : LoadDie) : Dev := { d with loadDie := SMap.set (fun _ => LoadDie.reset) d.loadDie i x }

/-! ## Load switches (R265 to R269) -/

def lsDie (n : Nat) : Nat := n / 12
def Dev.lsOf (d : Dev) (n : Nat) : LsChan := SMap.get (fun _ => LsChan.reset) d.ls n
def Dev.setLs (d : Dev) (n : Nat) (x : LsChan) : Dev := { d with ls := SMap.set (fun _ => LsChan.reset) d.ls n x }

/-- A level that pulses under a LAMP code (R269). -/
def pulses (lamp level : Nat) : Bool := decide (0 < level) && (decide (level < 65535) || decide (lamp ≠ 0))

/-- The on-time of a period in 10 µs, from the level, the LAMP code and the feed in mV. -/
def lampOn (lamp level feed : Nat) : Nat :=
  let vref := if lamp = 1 then 13500 else 27000
  if lamp = 0 then (roundDiv ((500 * level : Nat) : Int) 65535).toNat
  else if feed ≤ vref then (roundDiv ((500 * level : Nat) : Int) 65535).toNat
  else (roundDiv ((500 * level * vref * vref : Nat) : Int) (65535 * feed * feed)).toNat

/-- SOURCE of a load switch: 0 none, 1 endpoint, 2 Louvre, 3 direct (R265). -/
def Dev.lsSource (d : Dev) (n : Nat) : Nat :=
  if (d.boundTo 1 n).isSome then 1
  else if (d.routedBy 1 n).isSome then 2
  else if d.f (Reg.LS_DIRECT n) 15 0 = 0 then 0 else 3

/-- What the command source asks for now. -/
def Dev.lsDrive (d : Dev) (n : Nat) : Bool :=
  match d.routedBy 1 n with
  | some (m, k) => d.lvLevel m k
  | none =>
    let c := d.lsOf n
    if pulses (d.f (Reg.LS_CTRL n) 30 29) c.level then c.pulseOn else decide (c.level ≠ 0)

/-- Protection holds the switch off: latched fault, thermal shutdown, under-voltage. -/
def Dev.lsTripped (d : Dev) (n : Nat) : Bool :=
  d.bit (Reg.LS_STATUS n) 30 || d.bit (Reg.LS_STATUS n) 21 || d.bit (Reg.LS_STATUS n) 20

/-- A load switch is on: the first row of R265 that holds. -/
def Dev.lsOn (d : Dev) (n : Nat) : Bool :=
  if !d.hostOn || !d.bit (Reg.LS_CTRL n) 31 || d.lsTripped n then false
  else if d.closed then false
  else if d.forcing (lsDie n) then d.bit (Reg.FS_LS (lsDie n)) (n % 12)
  else d.lsDrive n

/-- A pulsing period starts now. -/
def Dev.lsPeriod (d : Dev) (n : Nat) : Dev :=
  let c := d.lsOf n
  let ton := lampOn (d.f (Reg.LS_CTRL n) 30 29) c.level (d.rd (Reg.LS_FEED_V (lsDie n))).toNat
  d.setLs n { c with periodAt := d.now, ton := min 500 ton, pulseOn := decide (0 < ton) }

/-- A load switch is on at full duty: at level 65,535 in a period without an off time, or driven high throughout its Louvre period. -/
def Dev.lsFull (d : Dev) (n : Nat) : Bool :=
  let c := d.lsOf n
  let steady : Bool :=
    match d.routedBy 1 n with
    | some (m, k) => d.lvSteady m k
    | none => !pulses (d.f (Reg.LS_CTRL n) 30 29) c.level || c.ton == 500
  d.lsOn n && (d.forcing (lsDie n) || steady)

/-- Commanded off: what R265 gives, protection aside, is off, and not for a part of a pulsed period alone (R269). -/
def Dev.lsOffAsked (d : Dev) (n : Nat) : Bool :=
  let idle : Bool :=
    match d.routedBy 1 n with
    | some (m, k) => d.lvIdle m k
    | none => (d.lsOf n).level == 0
  !d.lsOn n && !d.lsTripped n && (!d.bit (Reg.LS_CTRL n) 31 || d.closed || d.forcing (lsDie n) || idle)

/-- OPEN and LEAK end with their conditions (R271). -/
def Dev.lsConds (d : Dev) (n : Nat) : Dev :=
  let c := d.lsOf n
  let full := d.lsFull n
  let off := d.lsOffAsked n
  let d := if (c.cond = 1 ∧ ¬ full) ∨ (c.cond = 2 ∧ ¬ off) then d.setLs n { c with cond := 0 } else d
  let d := if full then d else d.setBit (Reg.LS_STATUS n) 19 false
  if off then d else d.setBit (Reg.LS_STATUS n) 18 false


/-- The command source of a load switch asks for a level: its endpoint's action, or a direct command; a pulsed level starts its first
period at once (R269). Within the close state an on is not kept (R287). -/
def Dev.lsCommand (d : Dev) (n level : Nat) : Dev :=
  let c := d.lsOf n
  let level := if d.closed then 0 else level
  let d := d.setLs n { c with level := level }
  (if pulses (d.f (Reg.LS_CTRL n) 30 29) level then d.lsPeriod n else d).lsConds n

/-! ## Digital outputs (R275) -/

def dioDie (n : Nat) : Nat := n / 16

def Dev.dioSource (d : Dev) (n : Nat) : Bool :=
  match d.routedBy 2 n with
  | some (m, k) => d.lvLevel m k
  | none => SMap.get (fun _ => false) d.dioOn n

/-- What R265 asks of a digital output, protection aside. -/
def Dev.dioAsked (d : Dev) (n : Nat) : Bool :=
  if d.closed then false
  else if d.forcing (dioDie n) then d.bit (Reg.FS_DIO (dioDie n)) (n % 16)
  else d.dioSource n

/-- A digital output is on. -/
def Dev.dioLevel (d : Dev) (n : Nat) : Bool :=
  d.hostOn && decide (d.dioMode n = 2) && !d.bit (Reg.DIO_STATUS n) 18 && !d.bit (Reg.DIO_STATUS n) 17 && d.dioAsked n

/-- OUT_LOW and OUT_HIGH end with the command that they contradict (R276). -/
def Dev.dioConds (d : Dev) (n : Nat) : Dev := d.dioAskedNow n (d.dioAsked n)

/-- The conditions of every switch and 24 V output of a die. -/
def Dev.dieConds (d : Dev) (i : Nat) : Dev :=
  let d := ((List.range 12).map (fun j => 12 * i + j)).foldl Dev.lsConds d
  (((List.range 16).map (fun j => 16 * i + j)).filter (fun n => d.dioMode n == 2)).foldl Dev.dioConds d

/-- The conditions of the channels that a Louvre module drives. -/
def Dev.routeConds (d : Dev) (n : Nat) : Dev :=
  (List.range 4).foldl (fun (d : Dev) k => match routeTarget (n / 8) (d.routeCode n k) with
    | some (cls, out) => if cls = 1 then d.lsConds out else d.dioConds out
    | none => d) d

def Dev.dioCommand (d : Dev) (n : Nat) (on : Bool) : Dev :=
  let d : Dev := { d with dioOn := SMap.set (fun _ => false) d.dioOn n (on && !d.closed) }
  d.dioConds n

/-! ## Solenoid channels (R217) -/

/-- The channel turns off as for an off action, by no action of its endpoint. -/
def Dev.solStop (d : Dev) (n : Nat) : Dev :=
  let c := d.solOf n
  let d := d.setSol n { c with on := false, train := false, ton := 0, pulseOff := 0 }
  d.turnOff n false

/-- Brings a solenoid channel in line with what decides its output. -/
def Dev.solSettle (d : Dev) (n : Nat) : Dev :=
  let c := d.solOf n
  if d.closed then
    (d.setSol n { c with want := 0 }).solStop n
  else if d.forcing (solDieNum n) then
    if d.bit (Reg.FS_SOL (solDieNum n)) (n % 32) then d.solForceOn n else d.solStop n
  else if c.want ≠ 0 then (if c.on then d else d.solOn n c.want false)
  else if c.on then d.solStop n
  else d

def Dev.solSettleDie (d : Dev) (i : Nat) : Dev := (dieSols i).foldl Dev.solSettle d

/-- An action of the channel's endpoint fires: it is kept, and it reaches the channel where nothing above the command source holds it
(R265, R279). -/
def Dev.solAction (d : Dev) (n level : Nat) : Dev :=
  let c := d.solOf n
  let d := d.setSol n { c with want := if d.closed then 0 else level }
  if d.closed || d.forcing (solDieNum n) then d
  else if level = 0 then d.solOff n else d.solOn n level true

/-! ## All-close on the buses and links (R287, R307, R327) -/

def Dev.ibEnabled (d : Dev) (p : Nat) : Bool := d.bit (Reg.IB_CTRL p) 31

/-- CLOSE_STATUS bits 9:0. -/
def Dev.closeCauses (d : Dev) : Nat := d.f Reg.CLOSE_STATUS 9 0

/-- HoldUntil of an all-close frame that leaves now (R327). -/
def Dev.holdNow (d : Dev) : Nat := d.now + 5000000

/-- One all-close frame on every enabled bus; each gets its HoldUntil when it leaves (`Dev.frameSend`). -/
def Dev.allCloseSend (d : Dev) : Dev :=
  let epoch := crc16 (leBytes (d.ob Obj.SystemEpochGps) 8)
  let body := leBytes d.holdNow 8 ++ leBytes d.closeCauses 2 ++ leBytes epoch 2
  let d := (List.range 4).foldl (fun (d : Dev) p =>
    if d.ibEnabled p then
      (d.ibPush { port := p, prio := 0, fn := 0, stream := 0, data := body, entries := [], node := 0, on := false }).1
    else d) d
  { d with ib := { d.ib with closeSentAt := d.now } }

/-! ## Dot frames (R301, R302) -/

/-- The bytes between K27.7 and K29.7 (R296). -/
def sillFrame (kind addr : Nat) (payload : List Byte) : List Byte :=
  let b := leBytes kind 1 ++ leBytes addr 1 ++ leBytes payload.length 2 ++ payload
  b ++ leBytes (crc16 b) 2

/-- A frame goes out on DN. -/
def Dev.sillSend (d : Dev) (n kind addr : Nat) (payload : List Byte) : Dev := d.emit .sill n kind (natsOf (sillFrame kind addr payload))

/-- The Address of a broadcast. -/
def sillAll : Nat := 0x80

/-- One event for a tile; an early one goes in a Dot frame whose BaseFt is the start of the frame under way. -/
structure DotEvent where
  tile : Nat
  dot : Nat
  on : Bool
  fireFt : Nat
  engine : Nat
  handle : Nat
  carried : Bool
  early : Bool
  deriving DecidableEq, Repr

/-- The word of an event (R302): an instant before BaseFt is sent with OFFSET 0. -/
def dotWord (base : Nat) (x : DotEvent) : Nat := b2n x.on * 2 ^ 30 + x.dot * 2 ^ 20 + (x.fireFt - base) / 100 % 2 ^ 20

/-- The Dot frame of one tile, twice. -/
def Dev.dotFrame (d : Dev) (n base t : Nat) (xs : List DotEvent) : Dev :=
  if xs.isEmpty then d
  else
    let x := d.tile n t
    let body := leBytes base 8 ++ leBytes x.seq 2 ++ leBytes xs.length 2 ++ xs.flatMap (fun e => leBytes (dotWord base e) 4)
    let d := d.setTile n t { x with seq := (x.seq + 1) % 65536 }
    (d.sillSend n 0x02 t body).sillSend n 0x02 t body

/-- The Dot frames of one link: for each tile that of its early events, BaseFt `f`, and that of the others, BaseFt `base`. -/
def Dev.dotSend (d : Dev) (n f base : Nat) (xs : List DotEvent) : Dev :=
  (List.range 16).foldl (fun (d : Dev) t =>
    let mine := xs.filter (fun x => x.tile == t)
    (d.dotFrame n f t (mine.filter (fun x => x.early))).dotFrame n base t (mine.filter (fun x => !x.early))) d

/-- What the port knows of the dots after an event. -/
def dotAfter (on : SMap Nat) (x : DotEvent) : SMap Nat :=
  SMap.set (fun _ => 0) on (x.tile * 1024 + x.dot) (if x.on then x.fireFt + 1 else 0)

/-- The dots of a tile are closed: after `hold` only the events later than it stand (R307); all are gone where the tile is lost. -/
def Dev.dotsClosed (d : Dev) (n : Nat) (hit : Nat → Bool) (hold : Option Nat) : Dev :=
  let l := d.link n
  let stays (v : Nat) : Bool := match hold with
    | some h => decide (h + 1 < v)
    | none => false
  d.setLink n { l with dotOn := l.dotOn.filter (fun p => !hit (p.1 / 1024) || stays p.2) }

def Dev.linkRunning (d : Dev) (n : Nat) : Bool := d.f (Reg.SL_STATUS n) 2 0 == 3

/-- One Close frame on a running link. -/
def Dev.sillCloseOn (d : Dev) (n : Nat) : Dev :=
  if d.linkRunning n then
    let hold := d.now + 2000000
    let l := d.link n
    let d := (d.setLink n { l with holdUntil := hold }).setBit (Reg.SL_STATUS n) 4 true
    (d.dotsClosed n (fun _ => true) (some hold)).sillSend n 0x03 sillAll (leBytes hold 8)
  else d

def Dev.sillCloseSend (d : Dev) : Dev := (List.range 16).foldl Dev.sillCloseOn d

/-- Running links, a bit each. -/
def Dev.runningLinks (d : Dev) : Nat := (List.range 16).foldl (fun a n => a + b2n (d.linkRunning n) * 2 ^ n) 0

/-- Close frames start or stop on the running links: 0xC006. -/
def Dev.closeFramesNote (d : Dev) : Dev :=
  if d.runningLinks = 0 then d else d.event 0 0xC006 [.h d.runningLinks]

/-- The committed ons of a link up to its last HoldUntil, which its tiles have discarded or which a dot that was on needed no more, go out
again at once, in Dot frames whose BaseFt is the start of the frame under way: DESIGN CHOICE, since OFFSET cannot be negative (R307). -/
def Dev.dotsAgain (d : Dev) (n : Nat) : Dev :=
  let now := d.now
  let hold := (d.link n).holdUntil
  let again (q : QEntry) : Bool := q.committed && q.action != 0 && !q.undeliv && d.qClass q == 4 && d.qOut q / 16384 == n
    && decide (now < q.fireFt) && decide (q.fireFt ≤ hold)
  let due := (d.shq.queue.filter again).map (fun q =>
    ({ tile := d.qOut q / 1024 % 16, dot := d.qOut q % 1024, on := true, fireFt := q.fireFt, engine := q.engine, handle := q.handle
       carried := false, early := true } : DotEvent))
  if !d.linkRunning n || d.ib.dupNumber then d
  else
    let d := d.setQueue (d.shq.queue.map (fun q => if again q then { q with sent := true } else q))
    let d := d.dotSend n d.frame.start d.frame.start due
    d.setLink n { d.link n with dotOn := due.foldl dotAfter (d.link n).dotOn }

/-- After the close state, committed class N ons and levels that the nodes have discarded, and class T ons that the tiles have, are sent
again (R307, R327). -/
def Dev.resendAfterClose (d : Dev) : Dev :=
  let now := d.now
  let d := d.shq.queue.foldl (fun (d : Dev) q =>
    if q.committed ∧ q.action ≠ 0 ∧ now < q.fireFt ∧ q.fireFt ≤ d.ib.holdUntil ∧ d.qClass q = 3 then
      d.nodeSchedule (d.qOut q) q.id q.engine q.handle 0xFFFF q.action q.epoch q.level q.fireFt
    else d) d
  (List.range 16).foldl Dev.dotsAgain d

/-! ## Causes (R282 to R287, R349) -/

/-- The output side of entering the close state. -/
def Dev.closeOutputs (d : Dev) : Dev :=
  let d : Dev := { d with
    ls := d.ls.filterMap (fun p => let x := { p.2 with level := 0 }; if x = LsChan.reset then none else some (p.1, x))
    dioOn := [] }
  (((d.solSettleDie 0).solSettleDie 1).dieConds 0).dieConds 1

/-- CLOSE_STATUS follows the causes; entering and leaving the close state have their effects (R287). -/
def Dev.closeUpdate (d : Dev) (origin : Nat) : Dev :=
  let c := d.causesNow
  let was := d.closed
  let d := d.wr Reg.CLOSE_STATUS (closeWord c)
  if was && c == 0 then
    let d := d.event origin 0x6043 [.h c]
    let d := (List.range 16).foldl (fun (d : Dev) n => d.setBit (Reg.SL_STATUS n) 4 false) d
    let d := ((d.solSettleDie 0).solSettleDie 1).dieConds 0 |>.dieConds 1
    (d.resendAfterClose).closeFramesNote
  else if !was && c != 0 then
    let d := d.event origin 0x6043 [.h c]
    let d := d.incOb Obj.CloseCount
    ((d.closeOutputs.allCloseSend).sillCloseSend).closeFramesNote
  else d

end Sys2Proof.Machine
end

