-- ==== Sys2Proof/Machine/LoadOps.lean ====
section
/-! DEFINITION. Load switches, 24 V channels, watchdogs, safety inputs and the all-close line (R265 to R287). -/
namespace Sys2Proof.Machine

/-! ## Direct commands (R265) -/

/-- A channel that a direct command may not drive: bound, or a Louvre target. -/
def Dev.taken (d : Dev) (cls n : Nat) : Bool := (d.boundTo cls n).isSome || (d.routedBy cls n).isSome

def Dev.lsDirect (d : Dev) (n v : Nat) : Dev := (d.setF (Reg.LS_DIRECT n) 15 0 v).lsCommand n (v % 65536)
def Dev.dioDirect (d : Dev) (n v : Nat) : Dev := (d.setF (Reg.DIO_DIRECT n) 0 0 v).dioCommand n (decide (v % 2 = 1))

/-! ## Protection (R267, R268, R271, R275, R276) -/

def Dev.lsEvent (d : Dev) (n code : Nat) (ps : List Param) : Dev := d.event (2 + lsDie n) code (.h n :: ps)

def Dev.lsLimit (d : Dev) (n : Nat) (on : Bool) : Dev :=
  let was := d.bit (Reg.LS_STATUS n) 22
  let d := d.setBit (Reg.LS_STATUS n) 22 on
  if on && !was then d.lsEvent n 0x6001 [.h 1] else d

def Dev.lsHot (d : Dev) (n : Nat) : Dev :=
  if d.bit (Reg.LS_STATUS n) 21 then d
  else
    let c := d.lsOf n
    let now := d.now
    let trips := now :: c.trips.filter (fun x => decide (now ≤ x + 10000000000))
    let d := (d.setLs n { c with trips := trips.take 8 }).setBit (Reg.LS_STATUS n) 21 true
    let d := d.lsEvent n 0x6001 [.h 2]
    if 8 ≤ trips.length then
      let d := (d.setBit (Reg.LS_STATUS n) 30 true).setF (Reg.LS_STATUS n) 27 24 1
      (d.lsEvent n 0x6002 []).lsConds n
    else d.lsConds n

def Dev.lsCool (d : Dev) (n : Nat) : Dev := d.setBit (Reg.LS_STATUS n) 21 false

/-- The command source asks for off. -/
def Dev.lsAsksOff (d : Dev) (n : Nat) : Bool :=
  match d.routedBy 1 n with
  | some (m, k) => !d.lvLevel m k
  | none => (d.lsOf n).level == 0

def Dev.lsClear (d : Dev) (n : Nat) : Dev :=
  if d.bit (Reg.LS_STATUS n) 30 then
    let c := d.lsOf n
    let d := (d.setLs n { c with trips := [] }).setBit (Reg.LS_STATUS n) 30 false
    (d.setF (Reg.LS_STATUS n) 27 24 0).lsEvent n 0x6006 []
  else d

def dieLs (i : Nat) : List Nat := (List.range 12).map (fun j => 12 * i + j)

def Dev.lsUnder (d : Dev) (i mV : Nat) : Dev :=
  let d0 := d.wr (Reg.LS_FEED_V i) (wd mV)
  if 7000 ≤ mV ∨ d.bit (Reg.LS_STATUS (12 * i)) 20 then d
  else
    let d := ((dieLs i).foldl (fun d n => d.setBit (Reg.LS_STATUS n) 20 true) d0).dieConds i
    d.event (2 + i) 0x6005 [.h i, .w mV]

/-- A switch comes back: pulsing starts a new period (R268). -/
def Dev.lsBack (d : Dev) (n : Nat) : Dev :=
  let d := d.setBit (Reg.LS_STATUS n) 20 false
  if pulses (d.f (Reg.LS_CTRL n) 30 29) (d.lsOf n).level then d.lsPeriod n else d

def Dev.lsRecover (d : Dev) (i mV : Nat) : Dev :=
  if 7800 ≤ mV ∧ d.bit (Reg.LS_STATUS (12 * i)) 20 then
    let d := (dieLs i).foldl Dev.lsBack (d.wr (Reg.LS_FEED_V i) (wd mV))
    d.event (2 + i) 0x6005 [.h i, .w mV]
  else d

/-- A 5 ms period ends and the next starts, with the feed's 1 ms mean (R269). -/
def Dev.lsNextPeriod (d : Dev) (n mV : Nat) : Dev :=
  let c := d.lsOf n
  if pulses (d.f (Reg.LS_CTRL n) 30 29) c.level && decide (c.periodAt + 5000000 ≤ d.now) then
    ((d.wr (Reg.LS_FEED_V (lsDie n)) (wd mV)).lsPeriod n).lsConds n
  else d

def Dev.lsPulseOff (d : Dev) (n : Nat) : Dev :=
  let c := d.lsOf n
  if c.pulseOn && decide (c.ton < 500) && decide (c.periodAt + c.ton * 10000 ≤ d.now) then
    d.setLs n { c with pulseOn := false }
  else d

/-! ## Current sense (R270, R271) -/

/-- A class L firing asks for a dwell; the list stays in FireFt order behind the one being served. -/
def Dev.dwellAdd (d : Dev) (x : Dwell) : Dev :=
  let i := lsDie x.chan
  let c := d.loadDieOf i
  match c.dwells with
  | [] => d.setLoadDie i { c with dwells := [x], dwellAt := d.now }
  | y :: ys =>
    let before := ys.filter (fun z => decide (z.fireFt ≤ x.fireFt))
    let after := ys.filter (fun z => decide (x.fireFt < z.fireFt))
    d.setLoadDie i { c with dwells := y :: before ++ x :: after }

/-- The first sample of a sense trace, one every 10 µs, that lies above 0.1 A after an on or below it after an off (R181). -/
def senseCrossing (opening : Bool) : List Nat → Nat → Option Nat
  | [], _ => none
  | x :: xs, k => if (opening && decide (100 < x)) || (!opening && decide (x < 100)) then some k else senseCrossing opening xs (k + 1)

/-- The served dwell ends on its crossing, which measures the actuation (R181), or after 1 ms; the next one starts where that is
within 1 ms of its FireFt. `mA` are its samples, one every 10 µs from 10 µs after its start (R270). -/
def Dev.dwellEnd (d : Dev) (i : Nat) (mA : List Nat) : Dev :=
  let c := d.loadDieOf i
  match c.dwells with
  | [] => d
  | x :: xs =>
    let instant := c.dwellAt + ((senseCrossing x.opening (mA.take 100) 1).getD 0) * 10000
    let crossed := (senseCrossing x.opening (mA.take 100) 1).isSome && decide (instant ≤ d.now)
    if crossed || decide (c.dwellAt + 1000000 ≤ d.now) then
      let now := d.now
      let rest := xs.dropWhile (fun y => decide (y.fireFt + 1000000 < now))
      let d := d.setLoadDie i { c with dwells := rest, dwellAt := now }
      if crossed && x.measured then d.measure x.id instant x.opening (decide (instant ≤ x.fireFt + 1000000) && decide (x.fireFt ≤ instant)) false none
      else d
    else d

/-- Open-load threshold in mA (R266). -/
def lsThreshold (n : Nat) : Nat := if n % 12 < 8 then 50 else 150

/-- Rating in A (R266). -/
def lsRating (n : Nat) : Nat := if n % 12 < 8 then 5 else 15

/-- The multiplexer may visit a channel: no dwell; fixed on it, or scanning it. -/
def Dev.mayVisit (d : Dev) (n : Nat) : Bool :=
  let i := lsDie n
  (d.loadDieOf i).dwells.isEmpty &&
    (if d.bit (Reg.LS_SENSE i) 31 then d.f (Reg.LS_SENSE i) 3 0 == n % 12 else d.bit (Reg.LS_CTRL n) 28)

/-- A visit of the scan: the mean of its ten samples is published (R270). -/
def Dev.lsScan (d : Dev) (n : Nat) (samples : List Nat) : Dev :=
  if d.mayVisit n then
    let mA := meanOf (samples.take 10)
    let c := d.lsOf n
    let th := lsThreshold n
    let cond := if d.lsFull n && decide (mA < th) then 1 else if d.lsOffAsked n && decide (th < mA) then 2 else 0
    let full := if lsRating n = 5 then 10000 else 30000
    let d := d.wr (Reg.LS_CURR n) (wd (min full mA))
    let d := d.setLs n { c with visitedAt := d.now, cond := cond, condAt := if cond = c.cond then c.condAt else d.now }
    let d := if cond = 1 then d else d.setBit (Reg.LS_STATUS n) 19 false
    if cond = 2 then d else d.setBit (Reg.LS_STATUS n) 18 false
  else d

/-- A condition that its scans have shown for 10 ms. -/
def Dev.lsFlag (d : Dev) (n cond bit code : Nat) : Dev :=
  let c := d.lsOf n
  let holds := if cond = 1 then d.lsFull n else d.lsOffAsked n
  if c.cond = cond ∧ holds ∧ c.condAt + 10000000 ≤ d.now ∧ d.bit (Reg.LS_STATUS n) bit = false then
    (d.setBit (Reg.LS_STATUS n) bit true).lsEvent n code [.w (d.f (Reg.LS_CURR n) 15 0)]
  else d

/-! ## 24 V channels (R274 to R276) -/

/-- The zone of a sample: 0 zero, 1 one, 2 BREAK, 3 INVALID. `r` is the pin voltage over the group supply, in 1/10,000 (R274). -/
def dioZone (wireBreak : Bool) (r : Nat) : Nat :=
  if wireBreak && decide (r ≤ 800) then 2
  else if wireBreak && decide (r ≤ 1200) then 3
  else if r ≤ 2700 then 0
  else if r ≤ 4500 then 3
  else 1

def Dev.dioEvent (d : Dev) (n code : Nat) (ps : List Param) : Dev := d.event (2 + dioDie n) code (.h n :: ps)

/-- The state of an input becomes zone `z`; a change of VALUE is stamped with the first sample of the zone. -/
def Dev.dioState (d : Dev) (n z first : Nat) : Dev :=
  let was := d.bit (Reg.DIO_STATUS n) 23
  let oldZ := d.f (Reg.DIO_STATUS n) 22 20
  let v := decide (z = 1)
  let d := (d.setBit (Reg.DIO_STATUS n) 23 v).setF (Reg.DIO_STATUS n) 22 20 z
  let d := if v = was then d else d.wr64 (Reg.DIO_EDGE_LO n) first
  if 2 ≤ z ∧ z ≠ oldZ then d.dioEvent n 0x6022 [.h z] else d

/-- One sample of an input, at `at_`: its zone becomes the state after DEBOUNCE samples in a row (R274). -/
def Dev.dioSample (d : Dev) (n at_ r : Nat) : Dev :=
  let z := dioZone (d.bit (Reg.DIO_CTRL n) 29) r
  let x := SMap.get (fun _ => DioIn.reset) d.dioIn n
  let y : DioIn := if x.count ≠ 0 ∧ x.zone = z then { x with count := min 15 (x.count + 1) } else { zone := z, count := 1, first := at_ }
  let d : Dev := { d with dioIn := SMap.set (fun _ => DioIn.reset) d.dioIn n y }
  if d.f (Reg.DIO_CTRL n) 27 24 ≤ y.count ∧ (y.count = 1 ∨ y.zone ≠ d.f (Reg.DIO_STATUS n) 22 20) then d.dioState n z y.first else d

/-- Samples of an input in mode 1, the last at the latest whole multiple of SAMPLE_PERIOD (R274). -/
def Dev.dioInput (d : Dev) (n : Nat) (rs : List Nat) : Dev :=
  let per := d.f (Reg.DIO_CTRL n) 6 0 * 100000
  let last := d.now / per * per
  (rs.foldl (fun (p : Dev × Nat) r => (p.1.dioSample n (last - (p.2 - 1) * per) r, p.2 - 1)) (d, rs.length)).1

/-- MODE of a channel has been written: its samples start anew from VALUE 0 in zone 0, the flags of an output go with mode 2, and a group
in under-voltage shows on a new output (R273 to R276). -/
def Dev.dioModeNew (d : Dev) (n was : Nat) : Dev :=
  let mode := d.dioMode n
  if mode = was then d
  else
    let asked := d.dioAsked n
    let d : Dev := { d with
      dioIn := SMap.set (fun _ => DioIn.reset) d.dioIn n DioIn.reset
      dioAsk := SMap.set (fun _ => DioAsk.reset) d.dioAsk n { on := asked, since := d.now } }
    (d.setF (Reg.DIO_STATUS n) 23 15 0).setBit (Reg.DIO_STATUS n) 17 (decide (mode = 2) && bitOf d.groupLow (n / 4))

def Dev.dioProtect (d : Dev) (n : Nat) (limited hot : Bool) : Dev :=
  if d.dioMode n = 2 then
    let wasL := d.bit (Reg.DIO_STATUS n) 19
    let wasH := d.bit (Reg.DIO_STATUS n) 18
    let d := (d.setBit (Reg.DIO_STATUS n) 19 limited).setBit (Reg.DIO_STATUS n) 18 hot
    let d := if limited && !wasL then d.dioEvent n 0x6020 [.h 1] else d
    if hot && !wasH then d.dioEvent n 0x6020 [.h 2] else d
  else d

def groupDios (g : Nat) : List Nat := (List.range 4).map (fun j => 4 * g + j)

/-- UV of a group's outputs (R275). -/
def Dev.groupUnder (d : Dev) (g mV : Nat) : Dev :=
  if 7000 ≤ mV then d
  else
    let was := bitOf d.groupLow g
    let d : Dev := { d.wr (Reg.DIO_GRP_V g) (wd mV) with groupLow := putBits d.groupLow g g 1 }
    let d := (groupDios g).foldl (fun (d : Dev) n => if d.dioMode n = 2 then d.setBit (Reg.DIO_STATUS n) 17 true else d) d
    if was then d else d.event (2 + g / 4) 0x6023 [.h g, .w mV]

def Dev.groupBack (d : Dev) (g mV : Nat) : Dev :=
  if 7800 ≤ mV then
    let was := bitOf d.groupLow g
    let d : Dev := { d.wr (Reg.DIO_GRP_V g) (wd mV) with groupLow := putBits d.groupLow g g 0 }
    let d := (groupDios g).foldl (fun d n => d.setBit (Reg.DIO_STATUS n) 17 false) d
    if was then d.event (2 + g / 4) 0x6023 [.h g, .w mV] else d
  else d

/-- The readback of an output, a sample every 10 µs up to now, against what is asked of it: a flag is set by 1 ms of samples and ends with
the first that agrees (R276). -/
def Dev.dioMismatch (d : Dev) (n : Nat) (rs : List Nat) : Dev :=
  let highs := (rs.map (fun r => decide (4500 < r))).reverse
  match highs with
  | [] => d
  | high :: _ =>
  let d := d.dioConds n
  let since := (SMap.get (fun _ => DioAsk.reset) d.dioAsk n).since
  let long := decide (100 ≤ highs.length) && (highs.take 100).all (fun h => h == high) && decide (since + 1000000 ≤ d.now)
  if d.dioMode n = 2 then
    let low := d.dioAsked n && !high && (long || d.bit (Reg.DIO_STATUS n) 16)
    let exceeds := !d.dioAsked n && high && (long || d.bit (Reg.DIO_STATUS n) 15)
    let wasL := d.bit (Reg.DIO_STATUS n) 16
    let wasH := d.bit (Reg.DIO_STATUS n) 15
    let d := ((d.setBit (Reg.DIO_STATUS n) 16 low).setBit (Reg.DIO_STATUS n) 15 exceeds).setBit (Reg.DIO_STATUS n) 23 high
    let d := if low && !wasL then d.dioEvent n 0x6021 [.h 1] else d
    if exceeds && !wasH then d.dioEvent n 0x6021 [.h 2] else d
  else d

/-! ## Serial watchdogs (R277 to R280, R422) -/

def Dev.wdgEvent (d : Dev) (i : Nat) : Dev :=
  d.event (2 + i) 0x6010 [.h i, .h (d.wdgState i), .h (d.f (Reg.WDG_STATUS i) 15 8)]

/-- A change of state: outputs follow at once. -/
def Dev.setWdg (d : Dev) (i st : Nat) : Dev :=
  if d.wdgState i = st then d
  else
    let d := d.setF (Reg.WDG_STATUS i) 1 0 st
    ((d.wdgEvent i).solSettleDie i).dieConds i

def Dev.wdgExpireNow (d : Dev) (i : Nat) : Dev := (d.incOb (Obj.WdgExpiryCount i)).setWdg i 2

/-- A wrong token. -/
def Dev.wdgWrong (d : Dev) (m i token : Nat) : Dev :=
  let c := d.loadDieOf i
  let d := d.incF (Reg.WDG_STATUS i) 23 16
  let d := d.setLoadDie i { c with wrongEp := true }
  if c.wrongEp then d else d.event (2 + i) 0x6011 [.h i, .h token, .w m]

/-- A timer that even a slow oscillator has run out on before now has expired: expiry comes before a kick (R277, R291). -/
def Dev.wdgOverdue (d : Dev) (i : Nat) : Dev :=
  let late := d.fabricOn && decide ((d.loadDieOf i).kickAt + d.f (Reg.WDG_CTRL i) 25 16 * 1050000 < d.now)
  if d.wdgState i == 1 && !d.wdgHold i && late then d.wdgExpireNow i else d

/-- A kick by master `m` (R278). -/
def Dev.wdgKick (d : Dev) (m i token : Nat) : Dev :=
  let d := d.wdgOverdue i
  let tok := token % 256
  let c := d.loadDieOf i
  if d.bit (Reg.WDG_CTRL i) 15 || d.f (Reg.WDG_CTRL i) 9 0 != m then
    let d := (d.incF (Reg.WDG_STATUS i) 31 24).setLoadDie i { c with foreignEp := true }
    if c.foreignEp then d else d.event (2 + i) 0x6011 [.h i, .h tok, .w m]
  else if d.bit Reg.DB_KICKBLOCK i && !d.wdgHold i then d.wdgWrong m i tok
  else if d.wdgState i = 1 then
    if tok = (d.f (Reg.WDG_STATUS i) 15 8 + 1) % 256 then
      (d.setF (Reg.WDG_STATUS i) 15 8 tok).setLoadDie i { c with kickAt := d.now, wrongEp := false, foreignEp := false }
    else d.wdgWrong m i tok
  else if tok = 0 then
    let d := (d.setF (Reg.WDG_STATUS i) 15 8 0).setLoadDie i { c with kickAt := d.now, wrongEp := false, foreignEp := false }
    d.setWdg i 1
  else d.wdgWrong m i tok

/-- WdgTimeout in ms. -/
def Dev.wdgTimeout (d : Dev) (i : Nat) : Nat := d.f (Reg.WDG_CTRL i) 25 16

/-- Expiry of the timer, on an oscillator within 5 % of nominal; while field time stands still the die's own clock alone tells. -/
def Dev.wdgExpire (d : Dev) (i : Nat) : Dev :=
  let long := !d.fabricOn || decide ((d.loadDieOf i).kickAt + d.wdgTimeout i * 950000 ≤ d.now)
  if d.wdgState i == 1 && !d.wdgHold i && long then d.wdgExpireNow i else d

/-- The hold changes (R280). -/
def Dev.setHold (d : Dev) (i : Nat) (on : Bool) (token level : Nat) : Dev :=
  if d.wdgHold i = on then d
  else
    let c := d.loadDieOf i
    let d := (d.setBit (Reg.WDG_CTRL i) 31 on).setLoadDie i { c with holdToken := token, kickAt := d.now }
    ((d.event (2 + i) 0x6012 [.h i, .h level]).solSettleDie i).dieConds i

def Dev.holdSet (d : Dev) (r : Req) (i : Nat) : WRes :=
  match d.session r with
  | some x => if x.level < 2 then d.no 0x0201 else (d.setHold i true x.token x.level).yes
  | none => d.no 0x0201

/-- A session that ends takes its holds with it. -/
def Dev.holdsEnd (d : Dev) (token level : Nat) : Dev :=
  [0, 1].foldl (fun (d : Dev) i => if (d.loadDieOf i).holdToken = token then d.setHold i false 0 level else d) d

def Dev.timeoutWrite (d : Dev) (i v : Nat) : WRes :=
  if v < 10 ∨ 1000 < v then d.no 0x0301
  else if d.inField then d.no 0x0401
  else
    let d := d.setF (Reg.WDG_CTRL i) 25 16 v
    if d.wdgState i == 1 && !d.wdgHold i && decide ((d.loadDieOf i).kickAt + v * 1000000 ≤ d.now) then (d.wdgExpireNow i).yes
    else d.yes

def Dev.ownerWrite (d : Dev) (i v : Nat) : WRes :=
  if 1023 < v ∧ v ≠ 0xFFFF then d.no 0x0301
  else if d.wdgState i = 1 then d.no 0x0401
  else
    let d := d.setOb (Obj.WdgOwner i) v
    if v = 0xFFFF then (d.setBit (Reg.WDG_CTRL i) 15 true).yes
    else ((d.setBit (Reg.WDG_CTRL i) 15 false).setF (Reg.WDG_CTRL i) 9 0 v).yes

/-- A fail-safe mask is stored, outside the journal (R378): kind 0 SOL, 1 LS, 2 DIO (R279). -/
def Dev.failsafeWrite (d : Dev) (i kind v : Nat) : WRes :=
  if kind = 1 ∧ 0xFFF < v then d.no 0x0301
  else if d.inField then d.no 0x0401
  else
    let a := if kind = 0 then Reg.FS_SOL i else if kind = 1 then Reg.FS_LS i else Reg.FS_DIO i
    let d := d.wr a (wd (if kind = 0 then v else v % 65536))
    let key := objKey 0 (0x4225 + kind) (i + 1)
    let d : Dev := { d with dict := { d.dict with failsafe := (key, v) :: d.dict.failsafe.filter (fun p => p.1 != key) } }
    let d := d.event (2 + i) 0x6013
      [.h i, .w (d.rd (Reg.FS_SOL i)).toNat, .h (d.rd (Reg.FS_LS i)).toNat, .h (d.rd (Reg.FS_DIO i)).toNat]
    ((d.solSettleDie i).dieConds i).yes

/-! ## Safety inputs (R281 to R284) -/

def pairDie (p : Nat) : Nat := p / 4
/-- The channels of a pair, as DIO numbers. -/
def Dev.pairA (d : Dev) (p : Nat) : Nat := 16 * pairDie p + d.f (Reg.SIN_CTRL p) 24 21
def Dev.pairB (d : Dev) (p : Nat) : Nat := 16 * pairDie p + d.f (Reg.SIN_CTRL p) 28 25

def Dev.discLatched (d : Dev) (i : Nat) : Bool := bitOf d.disc i

/-- Sets the state of a pair; each change records 0x6030 and closes or frees the package. -/
def Dev.setPair (d : Dev) (p st : Nat) : Dev :=
  let was := d.f (Reg.SIN_STATUS p) 1 0
  let d := d.setF (Reg.SIN_STATUS p) 1 0 st
  let d := if (was = 1) = (st = 1) then d
    else
      let d := if st = 1 then d else d.incF (Reg.SIN_COUNT p) 31 16
      d.event (2 + pairDie p) 0x6030 [.h p, .h (if st = 1 then 2 else 1)]
  d.closeUpdate (2 + pairDie p)

/-- The zone of a member channel's sample (R274). -/
def Dev.pairZone (d : Dev) (n r : Nat) : Nat := dioZone (d.bit (Reg.DIO_CTRL n) 29) r

/-- A sample of a member channel. -/
def Dev.pairSample (d : Dev) (n r : Nat) : Dev :=
  let z := d.pairZone n r
  (d.setBit (Reg.DIO_STATUS n) 23 (decide (z = 1))).setF (Reg.DIO_STATUS n) 22 20 z

/-- The ticks of a disagreement of `ns` that has not latched, at the nominal 1 ms and below N (R283). -/
def discTicks (n ns : Nat) : Nat := min (n - 1) (max 1 ((ns + 999999) / 1000000))

/-- The counter at a tick `gap` ns after the one that left `was`: ticks of which no command tells have come every 1 ms, and no two lie less
than 0.95 ms apart (R282, R283). -/
def discCount (n was gap : Nat) : Nat := min n (was + max 1 (min ((gap + 500000) / 1000000) (gap / 950000)))

/-- The counter now, where the latest tick told of, at `last` − 1, left `was`: a further tick has come for certain only after 1.05 ms. -/
def Dev.discShown (d : Dev) (n was last : Nat) : Nat :=
  let gap := d.now + 1 - last
  if last = 0 then 0 else if was = n ∨ gap ≤ 1050000 then was else max was (min (n - 1) (was + gap / 1000000))

/-- The length of a disagreement goes into its histogram, at its end or its latch (R476). -/
def Dev.discFeed (d : Dev) (h n len : Nat) : Dev := d.histFeed h 1 (max 1 ((n + 29) / 30 : Nat)) len len

/-- A disagreement of a pair ends: its length is fed unless it was at its latch. -/
def Dev.pairAgree (d : Dev) (p was : Nat) : Dev :=
  let n := d.f (Reg.SIN_CTRL p) 9 0
  if was = 0 || d.f (Reg.SIN_STATUS p) 25 16 == n then d else d.discFeed p n (discTicks n (d.now + 1 - was))

/-- A pair latches DISCREPANCY (R283). -/
def Dev.discLatch (d : Dev) (p : Nat) : Dev :=
  let n := d.f (Reg.SIN_CTRL p) 9 0
  let d : Dev := { d with disc := d.disc + 2 ^ p }
  let d := d.setF (Reg.SIN_STATUS p) 25 16 n
  let d := (d.incF (Reg.SIN_COUNT p) 15 0).incOb (Obj.SinDiscrepancyCount p)
  let active := if d.bit (Reg.SIN_STATUS p) 2 then d.pairA p else d.pairB p
  ((d.discFeed p n n).event (2 + pairDie p) 0x6031 [.h p, .h active]).setPair p 2

/-- The channels of a pair have disagreed since `since` − 1, at the latest at the tick at `last` − 1; 0 where they agree. -/
def Dev.pairSince (d : Dev) (p since last : Nat) : Dev :=
  { d with pairAt := SMap.set (fun _ => 0) d.pairAt p since, sinTickAt := SMap.set (fun _ => 0) d.sinTickAt p last }

/-- The counter of a disagreement after one more tick. -/
def Dev.discTick (d : Dev) (p : Nat) : Nat :=
  let last := SMap.get (fun _ => 0) d.sinTickAt p
  discCount (d.f (Reg.SIN_CTRL p) 9 0) (d.f (Reg.SIN_STATUS p) 25 16) (if last = 0 then 0 else d.now + 1 - last)

/-- A tick of the die at which a pair's channels read the fractions `a` and `b` of R274: a channel is active in zone 1 alone (R282). At
the tick at which the disagreement counter reaches N the pair latches (R283). -/
def Dev.pairTick (d : Dev) (p a b : Nat) : Dev :=
  if d.pairOn p then
    let ua := decide (d.pairZone (d.pairA p) a = 1)
    let ub := decide (d.pairZone (d.pairB p) b = 1)
    let d := (d.pairSample (d.pairA p) a).pairSample (d.pairB p) b
    let d := (d.setBit (Reg.SIN_STATUS p) 2 ua).setBit (Reg.SIN_STATUS p) 3 ub
    let was := SMap.get (fun _ => 0) d.pairAt p
    let since := if ua = ub then 0 else if was = 0 then d.now + 1 else was
    let d := if ua = ub then d.pairAgree p was else d
    let n := d.f (Reg.SIN_CTRL p) 9 0
    let stood := d.f (Reg.SIN_STATUS p) 25 16
    let cnt := if ua = ub then 0 else d.discTick p
    let d := d.pairSince p since (if ua = ub then 0 else d.now + 1)
    let d := d.setF (Reg.SIN_STATUS p) 25 16 (if stood = n ∧ ua ≠ ub then n else cnt)
    let d := if cnt = n ∧ stood ≠ n ∧ d.discLatched p = false then d.discLatch p else d
    d.setPair p (if d.discLatched p then 2 else if ua && ub then 1 else 0)
  else d

/-- The disagreement counter reaches N (R283). -/
def Dev.pairLatch (d : Dev) (p : Nat) : Dev :=
  let n := d.f (Reg.SIN_CTRL p) 9 0
  let since := SMap.get (fun _ => 0) d.pairAt p
  if d.pairOn p && decide (since ≠ 0) && !d.discLatched p && (!d.fabricOn || decide (since + (n - 1) * 950000 ≤ d.now + 1)) then
    d.discLatch p
  else d

def Dev.pairAck (d : Dev) (p : Nat) : WRes :=
  if d.bit (Reg.SIN_STATUS p) 2 || d.bit (Reg.SIN_STATUS p) 3 then d.no 0x0401
  else
    let d : Dev := { d with disc := d.disc - (if d.discLatched p then 2 ^ p else 0) }
    ((d.event (2 + pairDie p) 0x6032 [.h p]).setPair p 0).yes

/-- A channel that a pair may take: free of endpoint, Louvre module and other pairs, and no output (R281). -/
def Dev.pairable (d : Dev) (p n : Nat) : Bool :=
  !d.taken 2 n && d.dioMode n != 2 &&
    !(List.range 8).any (fun q => q != p && d.pairOn q && (d.pairA q == n || d.pairB q == n))

def Dev.setDioMode (d : Dev) (n mode : Nat) : Dev := d.setF (Reg.DIO_CTRL n) 31 30 mode

/-- Channels of a pair enter mode 3. -/
def Dev.pairJoin (d : Dev) (p : Nat) : Dev :=
  let j (d : Dev) (n : Nat) : Dev := (d.setDioMode n 3).setBit (Reg.DIO_CTRL n) 29 true
  j (j d (d.pairA p)) (d.pairB p)

def Dev.pairLeave (d : Dev) (p : Nat) : Dev := (d.setDioMode (d.pairA p) 0).setDioMode (d.pairB p) 0

def Dev.pairEnable (d : Dev) (p : Nat) : WRes :=
  if d.inField || d.pairA p == d.pairB p || !d.pairable p (d.pairA p) || !d.pairable p (d.pairB p) then d.no 0x0401
  else if d.pairOn p then d.yes
  else
    let d := (d.setBit (Reg.SIN_CTRL p) 31 true).pairJoin p
    let d := d.wr (Reg.SIN_STATUS p) (wd (if d.discLatched p then 2 else 0))
    (d.closeUpdate (2 + pairDie p)).yes

def Dev.pairDisable (d : Dev) (p : Nat) : WRes :=
  if d.inField then d.no 0x0401
  else if d.pairOn p then
    let d := (d.setBit (Reg.SIN_CTRL p) 31 false).pairLeave p
    let d := d.pairSince p 0 0
    ((d.wr (Reg.SIN_STATUS p) (wd (if d.discLatched p then 2 else 0))).closeUpdate (2 + pairDie p)).yes
  else d.yes

/-! ## The all-close line (R285, R286) -/

/-- CLOSE of a die's line reading; back to permit only without a latched discrepancy. -/
def Dev.aclUpdate (d : Dev) (i : Nat) : Dev :=
  let a := d.bit (Reg.ACL_STATUS i) 0
  let b := d.bit (Reg.ACL_STATUS i) 1
  (d.setBit (Reg.ACL_STATUS i) 3 (d.discLatched (8 + i))).setBit (Reg.ACL_STATUS i) 2 (!(a && b) || d.discLatched (8 + i))

/-- What five consecutive equal samples of a line channel's loop current, in µA, read: PERMIT, and whether it is held at the limit (R285,
R286). -/
def aclReading (ua : List Nat) : Option (Bool × Bool) :=
  let last := ua.reverse.take 5
  let permit := fun (x : Nat) => decide (6000 ≤ x)
  match last with
  | [] => none
  | x :: _ => if 5 ≤ last.length ∧ last.all (fun y => permit y == permit x) then some (permit x, decide (25000 ≤ x)) else none

/-- A channel of the line (0 A, 1 B) takes a new reading on a die; each change of close or permit records 0x6040. -/
def Dev.aclChange (d : Dev) (i chan : Nat) (permit exceeds : Bool) : Dev :=
  if !d.hostOn then d
  else
    let c := chan % 2
    let was := d.bit (Reg.ACL_STATUS i) 2
    let d := (d.setBit (Reg.ACL_STATUS i) c permit).setBit (Reg.ACL_STATUS i) (4 + c) (permit && exceeds)
    let a := d.bit (Reg.ACL_STATUS i) 0
    let b := d.bit (Reg.ACL_STATUS i) 1
    let x := d.loadDieOf i
    let since := if a = b then 0 else if x.aclAt = 0 then d.now + 1 else x.aclAt
    let cnt := d.f (Reg.ACL_STATUS i) 22 16
    let d := if a = b && x.aclAt != 0 && cnt != 100 then d.discFeed 8 100 (discTicks 100 (d.now + 1 - x.aclAt)) else d
    let d := d.setLoadDie i { x with aclAt := since }
    let d := d.setF (Reg.ACL_STATUS i) 22 16 (if a = b then 0 else if cnt = 100 then 100 else discTicks 100 (d.now + 1 - since))
    let d := d.aclUpdate i
    let d := if d.bit (Reg.ACL_STATUS i) 2 = was then d
      else d.event (2 + i) 0x6040 [.h i, .h (b2n a + 2 * b2n b)]
    d.closeUpdate (2 + i)

def Dev.aclLatch (d : Dev) (i : Nat) : Dev :=
  let x := d.loadDieOf i
  if decide (x.aclAt ≠ 0) && !d.discLatched (8 + i) && (!d.fabricOn || decide (x.aclAt + 99 * 950000 ≤ d.now + 1)) then
    let d : Dev := { d with disc := d.disc + 2 ^ (8 + i) }
    let d := ((d.setF (Reg.ACL_STATUS i) 22 16 100).incOb Obj.AclDiscrepancyCount).discFeed 8 100 100
    let d := d.aclUpdate i
    let d := d.event (2 + i) 0x6041 [.h i, .h (if d.bit (Reg.ACL_STATUS i) 0 then 0 else 1)]
    d.closeUpdate (2 + i)
  else d

/-- AclAck: both channels safe on both dies; the latch clears on both. -/
def Dev.aclAck (d : Dev) : WRes :=
  if [0, 1].any (fun i => d.bit (Reg.ACL_STATUS i) 0 || d.bit (Reg.ACL_STATUS i) 1) then d.no 0x0401
  else
    let d : Dev := { d with disc := d.disc % 256 }
    let d := (d.aclUpdate 0).aclUpdate 1
    ((d.event 2 0x6032 [.h 8]).closeUpdate 2).yes

/-! ## Analog inputs (R288 to R290) -/

def aiDie (n : Nat) : Nat := n / 8
def Dev.aiOf (d : Dev) (n : Nat) : AiChan := SMap.get (fun _ => AiChan.reset) d.ai n
def Dev.setAi (d : Dev) (n : Nat) (x : AiChan) : Dev := { d with ai := SMap.set (fun _ => AiChan.reset) d.ai n x }
def Dev.aiMode (d : Dev) (n : Nat) : Nat := d.f (Reg.AI_CTRL n) 31 30

/-- A trigger at `t0` reaches an input: a conversion waits for it. Triggers of one instant share one conversion (R291). -/
def Dev.aiTrigger (d : Dev) (n t0 : Nat) : Dev :=
  let x := d.aiOf n
  if d.aiMode n = 0 ∨ x.trigSeen.contains t0 then d
  else
    let now := d.now
    d.setAi n { x with
      trigAt := x.trigAt.filter (fun t => decide (t < t0)) ++ t0 :: x.trigAt.filter (fun t => decide (t0 < t))
      trigSeen := t0 :: x.trigSeen.filter (fun t => decide (now ≤ t + 10000)) }

/-- A line pulse is the sample of an enabled Hinge slot that names input `n` (R243, R289). -/
def Dev.lineSlot (d : Dev) (line n : Nat) : Bool :=
  (dieSlots (n / 8)).any (fun g =>
    let lead := (d.hgMembers g).headD g
    d.hgOn g && d.hgCtrl lead 27 26 == 2 && d.hgCtrl lead 25 21 == line && d.hgRoute g 23 20 == n % 8 + 1)

/-- A trigger line of a die is pulsed (R230): its time is kept for the Hinge slots, and the inputs that select it, and those of the slots
that sample on it, are triggered. -/
def Dev.linePulse (d : Dev) (i line : Nat) : Dev :=
  let d : Dev := { d with trigLine := SMap.set (fun _ => 0) d.trigLine (32 * i + line) (d.now + 1) }
  (List.range 8).foldl (fun (d : Dev) j =>
    let n := 8 * i + j
    if (d.bit (Reg.AI_CTRL n) 29 && d.f (Reg.AI_CTRL n) 28 24 == line) || d.lineSlot line n then d.aiTrigger n d.now else d) d

/-- The faults of a result: AI_STATUS bits OVER 4, BREAK 5, HIGH 6 (R288); an input that is off has none. Full scale of each range is code
65,535. -/
def aiFaults (mode code : Nat) : Nat :=
  if mode = 0 then 0
  else if mode = 1 then 16 * b2n (decide (5250 * 65535 < code * 5500))
  else if mode = 2 then 16 * b2n (decide (10500 * 65535 < code * 11000))
  else 32 * b2n (decide (code * 24000 < 3600 * 65535)) + 64 * b2n (decide (21000 * 65535 < code * 24000))

/-- AiValue: µV or nA. -/
def aiScaled (mode code : Nat) : Int :=
  let full : Nat := if mode = 1 then 5500000 else if mode = 2 then 11000000 else if mode = 3 then 24000000 else 0
  roundDiv ((code * full : Nat) : Int) 65535

/-- The mean of AVG results, or of those there are. -/
def aiMean (hist : List Nat) (avg : Nat) : Nat :=
  let xs := hist.take (2 ^ avg)
  if xs.isEmpty then 0 else (roundDiv ((xs.foldl (· + ·) 0 : Nat) : Int) xs.length).toNat

/-- VALID follows the faults. -/
def Dev.aiValid (d : Dev) (n : Nat) : Dev :=
  let s := d.rd (Reg.AI_STATUS n)
  d.setBit (Reg.AI_STATUS n) 0 (decide (fld s 7 2 = 0) && d.aiMode n != 0)

/-- The faults of a result, of bits 2:0 as AI_STATUS 6:4, replace those of the result of its kind before it; one that neither kind has
shown records 0x6050, by its place in R288 (R294). -/
def Dev.aiFaultBits (d : Dev) (n faults : Nat) (triggered : Bool) : Dev :=
  let x := d.aiOf n
  let old := d.f (Reg.AI_STATUS n) 6 4 ||| x.trigFaults
  let new := faults / 16
  let d := if triggered then d.setAi n { x with trigFaults := new } else d.setF (Reg.AI_STATUS n) 6 4 new
  [0, 1, 2].foldl (fun d j => if bitOf new j && !bitOf old j then d.event (2 + aiDie n) 0x6050 [.h n, .h (j + 1)] else d) d

/-- The conversion of a waiting trigger starts; late conversions in a row are one episode of 0x6052 (DEDUCED: R294). -/
def Dev.aiTrigStart (d : Dev) (n : Nat) : Dev :=
  let x := d.aiOf n
  let i := aiDie n
  let c := d.loadDieOf i
  match x.trigAt with
  | [] => d
  | t0 :: later =>
    if d.aiMode n = 0 then d.setAi n { x with trigAt := [] }
    else
    let busy := match c.conv with | some (_, true, _) => true | _ => false
    if busy || (decide (c.lastTrig ≠ 0) && decide (d.now + 1 < c.lastTrig + 10000)) then d
    else
      let again := match c.conv with | some (m, false, _) => some m | _ => c.again
      let late := decide (t0 + 1000 < d.now)
      let d := d.setLoadDie i { c with conv := some (n, true, d.now), again := again, lastConv := d.now + 1, lastTrig := d.now + 1 }
      let d := d.setAi n { x with trigAt := later, trigFrom := t0 + 1 }
      let was := d.bit (Reg.AI_TRIG n) 31
      let d := d.setBit (Reg.AI_TRIG n) 31 late
      if late then
        let d := (d.setBit (Reg.AI_STATUS n) 1 true).incF (Reg.AI_DIE_STATUS i) 15 8
        if was then d else d.event (2 + i) 0x6052 [.h n, .w ((d.now - t0) / 100)]
      else d

/-- The scanned conversion of the latest multiple of AI_PERIOD starts, once for each. -/
def Dev.aiScanStart (d : Dev) (n : Nat) : Dev :=
  let x := d.aiOf n
  let i := aiDie n
  let c := d.loadDieOf i
  let per := (d.rd (Reg.AI_PERIOD n)).toNat * 1000
  let turn := d.now / per * per + 1
  if d.bit (Reg.AI_CTRL n) 23 && d.aiMode n != 0 && decide (x.scanFor < turn) && c.conv.isNone
      && decide (c.lastConv ≤ d.now + 1 - 10000) then
    (d.setLoadDie i { c with conv := some (n, false, d.now), lastConv := d.now + 1 }).setAi n { x with scanFor := turn }
  else d

/-- A result, 4 µs after its conversion started; a scanned conversion that was pre-empted starts again. An input that has been switched
off meanwhile takes none (R288). -/
def Dev.aiDone (d : Dev) (n code : Nat) : Dev :=
  let i := aiDie n
  let c := d.loadDieOf i
  let x := d.aiOf n
  let code := code % 65536
  let f := aiFaults (d.aiMode n) code
  let next : Option (Nat × Bool × Nat) := c.again.map (fun m => (m, false, max d.now (c.lastConv - 1 + 10000)))
  match c.conv with
  | some (m, true, at_) =>
    if m = n ∧ at_ + 4000 ≤ d.now then
      let d := d.setLoadDie i { c with conv := next, again := none }
      if d.aiMode n = 0 then d
      else
        let d := d.setAi n { x with resFrom := x.trigFrom, trigDone := d.now }
        let bad := f != 0 || d.bit (Reg.AI_STATUS n) 7 || d.bit (Reg.AI_STATUS n) 2
        ((d.setF (Reg.AI_TRIG n) 15 0 code).setBit (Reg.AI_TRIG n) 30 bad).aiFaultBits n f true
    else d
  | some (m, false, at_) =>
    if m = n ∧ at_ + 4000 ≤ d.now then
      let d := d.setLoadDie i { c with conv := next, again := none }
      if d.aiMode n = 0 then d
      else
        let hist := code :: x.hist.take 15
        let d := d.setAi n { x with hist := hist, resultAt := d.now }
        let d := d.wr (Reg.AI_VAL n) (wd (aiMean hist (d.f (Reg.AI_CTRL n) 2 0)))
        let d := d.setBit (Reg.AI_STATUS n) 3 false
        (d.aiFaultBits n f false).aiValid n
    else d
  | none => d

def Dev.aiStale (d : Dev) (n : Nat) : Dev :=
  if d.bit (Reg.AI_CTRL n) 23 && d.aiMode n != 0
      && decide ((d.aiOf n).resultAt + 3 * (d.rd (Reg.AI_PERIOD n)).toNat * 1000 ≤ d.now) then
    (d.setBit (Reg.AI_STATUS n) 3 true).aiValid n
  else d

def Dev.aiOverload (d : Dev) (n : Nat) : Dev :=
  if d.aiMode n = 3 then
    let x := d.aiOf n
    let was := d.bit (Reg.AI_STATUS n) 7
    let d := ((d.setAi n { x with offAt := d.now }).setBit (Reg.AI_STATUS n) 7 true).aiValid n
    if was then d else d.event (2 + aiDie n) 0x6050 [.h n, .h 4]
  else d

def Dev.aiRetry (d : Dev) (n : Nat) : Dev :=
  if d.bit (Reg.AI_STATUS n) 7 && decide ((d.aiOf n).offAt + 100000000 ≤ d.now) then
    (d.setBit (Reg.AI_STATUS n) 7 false).aiValid n
  else d

def Dev.supplyTrip (d : Dev) (i mA : Nat) : Dev :=
  if d.bit (Reg.AI_DIE_STATUS i) 0 then
    let d := (d.setBit (Reg.AI_DIE_STATUS i) 0 false).setBit (Reg.AI_DIE_STATUS i) 1 true
    let d := (List.range 8).foldl (fun (d : Dev) j => (d.setBit (Reg.AI_STATUS (8 * i + j)) 2 true).aiValid (8 * i + j)) d
    d.event (2 + i) 0x6051 [.h i, .w mA]
  else d

/-- SENSOR_5V is switched on or off; switching it on clears a trip (the spec names no other end). -/
def Dev.supplySet (d : Dev) (i : Nat) (on : Bool) : Dev :=
  let d := ((d.setBit (Reg.AI_SUP i) 0 on).setBit (Reg.AI_DIE_STATUS i) 0 on)
  if on then
    let d := d.setBit (Reg.AI_DIE_STATUS i) 1 false
    (List.range 8).foldl (fun (d : Dev) j => (d.setBit (Reg.AI_STATUS (8 * i + j)) 2 false).aiValid (8 * i + j)) d
  else d

end Sys2Proof.Machine
end

