-- ==== Sys2Proof/Machine/Loads.lean ====
section
/-! DEFINITION. The meanings of the load-switch, digital, watchdog, safety-input, all-close and analog commands (R265 to R294). -/
namespace Sys2Proof.Machine

def execLsDirectCommand (t : Nat) (via : Via) (n v : Nat) (s : State) : Host.Outcome State Fault Refusal :=
  match via with
  | .reg m => s.put ((s.dev.advance t).byMaster m (Reg.LS_DIRECT n) true (fun d =>
      if d.taken 1 n then d.reject m (Reg.LS_DIRECT n) else d.lsDirect n v))
  | .dict r => s.put ((s.dev.advance t).dictVal r 0x4202 (n + 1) 2 v (fun d =>
      if d.taken 1 n then d.no 0x0401 else (d.lsDirect n v).yes))

def execDioDirectCommand (t : Nat) (via : Via) (n v : Nat) (s : State) : Host.Outcome State Fault Refusal :=
  match via with
  | .reg m => s.put ((s.dev.advance t).byMaster m (Reg.DIO_DIRECT n) true (fun d =>
      if d.taken 2 n then d.reject m (Reg.DIO_DIRECT n) else d.dioDirect n v))
  | .dict r => s.put ((s.dev.advance t).dictVal r 0x4214 (n + 1) 1 v (fun d =>
      if 1 < v then d.no 0x0301 else if d.taken 2 n then d.no 0x0401 else (d.dioDirect n v).yes))

def execLsCurrentLimit (t n : Nat) (limited : Bool) (s : State) : Host.Outcome State Fault Refusal :=
  s.put ((s.dev.advance t).lsLimit n limited)
def execLsThermalShutdown (t n : Nat) (s : State) : Host.Outcome State Fault Refusal := s.put ((s.dev.advance t).lsHot n)
def execLsThermalRestore (t n : Nat) (s : State) : Host.Outcome State Fault Refusal := s.put ((s.dev.advance t).lsCool n)

def execLsFaultClear (t : Nat) (via : Via) (n : Nat) (s : State) : Host.Outcome State Fault Refusal :=
  match via with
  | .reg m => s.put ((s.dev.advance t).byMaster m (Reg.LS_CMD n) true (fun d => if d.lsAsksOff n then d.lsClear n else d))
  | .dict r => s.put ((s.dev.advance t).dictVal r 0x4205 (n + 1) 1 1 (fun d =>
      if d.lsAsksOff n then (d.lsClear n).yes else d.no 0x0401))

def execLsFeedUv (t die mV : Nat) (s : State) : Host.Outcome State Fault Refusal := s.put ((s.dev.advance t).lsUnder die mV)
def execLsFeedRecover (t die mV : Nat) (s : State) : Host.Outcome State Fault Refusal :=
  s.put ((s.dev.advance t).lsRecover die mV)
def execLsPwmPeriod (t n mV : Nat) (s : State) : Host.Outcome State Fault Refusal :=
  s.put ((s.dev.advance t).lsNextPeriod n mV)
def execLsPulseOff (t n : Nat) (s : State) : Host.Outcome State Fault Refusal := s.put ((s.dev.advance t).lsPulseOff n)
def execLsDwellEnd (t die : Nat) (mA : List Nat) (s : State) : Host.Outcome State Fault Refusal :=
  s.put ((s.dev.advance t).dwellEnd die mA)
def execLsSenseScan (t n : Nat) (mA : List Nat) (s : State) : Host.Outcome State Fault Refusal := s.put ((s.dev.advance t).lsScan n mA)
def execLsOpenLoad (t n : Nat) (s : State) : Host.Outcome State Fault Refusal := s.put ((s.dev.advance t).lsFlag n 1 19 0x6003)
def execLsLeakage (t n : Nat) (s : State) : Host.Outcome State Fault Refusal := s.put ((s.dev.advance t).lsFlag n 2 18 0x6004)

def execDioInputChange (t n : Nat) (r : List Nat) (s : State) : Host.Outcome State Fault Refusal :=
  s.put (let d := s.dev.advance t
    if d.dioMode n = 1 then d.dioInput n r else d)
def execDioOutputProtect (t n : Nat) (limited hot : Bool) (s : State) : Host.Outcome State Fault Refusal :=
  s.put ((s.dev.advance t).dioProtect n limited hot)
def execDioGroupUv (t g mV : Nat) (s : State) : Host.Outcome State Fault Refusal := s.put ((s.dev.advance t).groupUnder g mV)
def execDioGroupRecover (t g mV : Nat) (s : State) : Host.Outcome State Fault Refusal :=
  s.put ((s.dev.advance t).groupBack g mV)
def execDioReadbackMismatch (t n : Nat) (r : List Nat) (s : State) : Host.Outcome State Fault Refusal :=
  s.put ((s.dev.advance t).dioMismatch n r)

/-- An expiry that waits behind a kick of the same instant comes first (R291). -/
def Dev.expireFirst (d : Dev) (waiting : List Instr) (i : Nat) : Dev :=
  if waiting.any (fun c => match c with | .wdgExpire t die => t == d.now && die == i | _ => false) then d.wdgExpire i else d

/-- The same for a write of address `a` by a register write or a store. -/
def Dev.kickFirst (d : Dev) (waiting : List Instr) (a : Nat) : Dev :=
  [0, 1].foldl (fun (d : Dev) i => if busAddr a = Reg.WDG_KICK_REG i then d.expireFirst waiting i else d) d

def execWdgKick (t m die token : Nat) (s : State) : Host.Outcome State Fault Refusal :=
  s.put (((s.dev.advance t).expireFirst s.pending die).byMaster m (Reg.WDG_KICK_REG die) true (fun d => d.remapSwitches.wdgKick m die token))
def execWdgExpire (t die : Nat) (s : State) : Host.Outcome State Fault Refusal := s.put ((s.dev.advance t).wdgExpire die)
def execWdgHoldSet (t : Nat) (r : Req) (die : Nat) (s : State) : Host.Outcome State Fault Refusal :=
  s.put ((s.dev.advance t).dictVal r 0x4222 (die + 1) 1 1 (fun d => d.holdSet r die))
def execWdgHoldClear (t : Nat) (r : Req) (die : Nat) (s : State) : Host.Outcome State Fault Refusal :=
  s.put ((s.dev.advance t).dictVal r 0x4222 (die + 1) 1 0 (fun d => (d.setHold die false 0 (d.levelOf r)).yes))
def execWdgTimeoutWrite (t : Nat) (r : Req) (die v : Nat) (s : State) : Host.Outcome State Fault Refusal :=
  s.put ((s.dev.advance t).dictVal r 0x4220 (die + 1) 2 v (fun d => d.timeoutWrite die v))
def execWdgOwnerWrite (t : Nat) (r : Req) (die v : Nat) (s : State) : Host.Outcome State Fault Refusal :=
  s.put ((s.dev.advance t).dictVal r 0x4221 (die + 1) 2 v (fun d => d.ownerWrite die v))

def execFailsafeWrite (t : Nat) (r : Req) (die kind v : Nat) (s : State) : Host.Outcome State Fault Refusal :=
  s.put ((s.dev.advance t).dictVal r (if kind = 0 then 0x4225 else if kind = 1 then 0x4226 else 0x4227) (die + 1)
    (if kind = 0 then 4 else 2) v (fun d => d.failsafeWrite die kind v))

def execSafetyInputChange (t p a b : Nat) (s : State) : Host.Outcome State Fault Refusal :=
  s.put ((s.dev.advance t).pairTick p a b)
def execDiscrepancyLatch (t p : Nat) (s : State) : Host.Outcome State Fault Refusal := s.put ((s.dev.advance t).pairLatch p)
/-- A channel of the pair that becomes active at the tick of an acknowledgement refuses it (R291). -/
def Dev.activeWaits (d : Dev) (waiting : List Instr) (t p : Nat) : Bool :=
  waiting.any (fun c => match c with
    | .safetyInputChange u q a b => u == t && q == p && (d.pairZone (d.pairA p) a == 1 || d.pairZone (d.pairB p) b == 1)
    | _ => false)

/-- The same for the channels of the all-close line. -/
def permitWaits (waiting : List Instr) (t : Nat) : Bool :=
  waiting.any (fun c => match c with
    | .aclChannelChange u _ _ ua => u == t && (match aclReading ua with | some (p, _) => p | none => false)
    | _ => false)

def execSinAck (t : Nat) (r : Req) (p : Nat) (s : State) : Host.Outcome State Fault Refusal :=
  s.put ((s.dev.advance t).dictVal r 0x4235 (p + 1) 1 1 (fun d =>
    if d.activeWaits s.pending t p then d.no 0x0401 else d.pairAck p))
def execSinEnable (t : Nat) (r : Req) (p : Nat) (s : State) : Host.Outcome State Fault Refusal :=
  s.put ((s.dev.advance t).dictVal r 0x4230 (p + 1) 1 1 (fun d => d.pairEnable p))
def execSinDisable (t : Nat) (r : Req) (p : Nat) (s : State) : Host.Outcome State Fault Refusal :=
  s.put ((s.dev.advance t).dictVal r 0x4230 (p + 1) 1 0 (fun d => d.pairDisable p))

def execAclChannelChange (t die chan : Nat) (ua : List Nat) (s : State) : Host.Outcome State Fault Refusal :=
  s.put (let d := s.dev.advance t
    match aclReading ua with | some (permit, exceeds) => d.aclChange die chan permit exceeds | none => d)
def execAclDiscrepancyLatch (t die : Nat) (s : State) : Host.Outcome State Fault Refusal := s.put ((s.dev.advance t).aclLatch die)
def execAclAck (t : Nat) (r : Req) (s : State) : Host.Outcome State Fault Refusal :=
  s.put ((s.dev.advance t).dictVal r 0x4240 2 1 1 (fun d =>
    if permitWaits s.pending t then d.no 0x0401 else d.aclAck))

def execAllCloseRepeat (t : Nat) (s : State) : Host.Outcome State Fault Refusal :=
  s.put (let d := s.dev.advance t
    if d.closed && decide (d.ib.closeSentAt + 2000000 ≤ d.now) then d.allCloseSend else d)
def execSillCloseRepeat (t : Nat) (s : State) : Host.Outcome State Fault Refusal :=
  s.put (let d := s.dev.advance t
    if d.closed then (List.range 16).foldl (fun (d : Dev) n =>
      if (d.link n).holdUntil ≤ d.now + 1000000 then d.sillCloseOn n else d) d
    else d)

def execAiConversionDone (t n code : Nat) (s : State) : Host.Outcome State Fault Refusal := s.put ((s.dev.advance t).aiDone n code)
def execAiScanConversion (t n : Nat) (s : State) : Host.Outcome State Fault Refusal := s.put ((s.dev.advance t).aiScanStart n)
def execAiStale (t n : Nat) (s : State) : Host.Outcome State Fault Refusal := s.put ((s.dev.advance t).aiStale n)
def execAiOverload (t n : Nat) (s : State) : Host.Outcome State Fault Refusal := s.put ((s.dev.advance t).aiOverload n)
def execAiShuntRetry (t n : Nat) (s : State) : Host.Outcome State Fault Refusal := s.put ((s.dev.advance t).aiRetry n)
def execSensorSupplyTrip (t die mA : Nat) (s : State) : Host.Outcome State Fault Refusal :=
  s.put ((s.dev.advance t).supplyTrip die mA)

end Sys2Proof.Machine
end

