-- ==== Sys2Proof/Machine/Louvre.lean ====
section
/-! DEFINITION. The meanings of the Louvre commands (R223 to R241), and writes of a module's control register. -/
namespace Sys2Proof.Machine

/-- Compare `j` fires once per period, where the count reaches it in a period no shorter than it (R230). -/
def Dev.lvCompare (d : Dev) (n j : Nat) : Dev :=
  let x := d.lvMod n
  let v := x.cmp.getD j 0
  if d.lvRunning n && !d.lvFrozen n && decide (j < 4) && !bitOf x.fired j && decide (v ≤ x.p) && decide (x.start + 5 * v ≤ d.fine)
      && decide (x.start + 5 * v ≤ d.lvNext n) then
    let d := d.setLv n { x with fired := x.fired + 2 ^ j }
    let d := if d.bit (Reg.LV_TRIG n) j then d.linePulse (n / 8) (4 * (n % 8) + j) else d
    let c := d.f (Reg.LV_CTRL n) 6 0
    if d.bit (Reg.LV_TRIG n) (4 + j) && decide (c < 64) then (List.range 16).foldl (fun d i => d.raise (16 * c + i) 6) d else d
  else d

/-- The running period ends at `b`: the compares whose value is its whole length fire with it (R230), and the next period starts. -/
def Dev.lvTurn (d : Dev) (n b : Nat) : Dev :=
  let x := d.lvMod n
  let d := ((List.range 4).filter (fun j => decide (x.start + 5 * x.cmp.getD j 0 = b))).foldl (fun (d : Dev) j => d.lvCompare n j) d
  d.lvStart n b (decide (b < x.start + 5 * x.p)) (d.chainOpen (n / 8))

def Dev.lvPeriodStart (d : Dev) (n : Nat) : Dev :=
  let b := d.lvNext n
  if d.lvRunning n && !d.lvFrozen n && decide (b ≤ d.fine) then (d.lvTurn n b).routeConds n else d

/-- A module is disabled, and the channels that it drives go off. -/
def Dev.lvOff (d : Dev) (n cause : Nat) : Dev := (d.lvDisable n cause).routeConds n

/-- LV_COMMIT, or a Hinge transfer: the staged set is marked as it stands (R228). Of the sets marked before it, the last of an earlier
5 ns cycle is kept: a period start in this cycle takes that one. -/
def Dev.lvCommit (d : Dev) (n : Nat) : Dev :=
  let x := d.lvMod n
  let s := d.lvStaged n
  (d.setLv n { x with commits := (x.dueSet s.at_).toList ++ [s] }).setBit (Reg.LV_STATUS n) 1 true

/-- EN := 1 from 0. A module whose cluster is halted starts frozen, and sends no pulse (R233). -/
def Dev.lvEnableWrite (d : Dev) (n : Nat) : Dev :=
  let d := d.setBit (Reg.LV_STATUS n) 3 false
  if d.bit (Reg.LV_CTRL n) 31 then d
  else
    let halted := d.halted (d.f (Reg.LV_CTRL n) 6 0)
    let d := (d.setLv n { (d.lvMod n) with frozenAt := none }).setBit (Reg.LV_CTRL n) 31 true
    let d := d.lvEnable n (d.chainOpen (n / 8) && !halted)
    (if !halted then d else if d.lvFrozen n then d.lvStand n else d.lvFreeze n).routeConds n

/-- The assigned cluster has changed: the module is frozen where the new one is halted, and released where it is not (R233). -/
def Dev.lvFollow (d : Dev) (n : Nat) : Dev := if d.halted (d.f (Reg.LV_CTRL n) 6 0) then d.lvFreeze n else d.lvThaw n

/-- A register write of LV_CTRL: configuration only while EN is 0, a cluster only while it is powered (R224). -/
def Dev.lvCtrlWrite (d : Dev) (m n : Nat) (w : Word) : Dev :=
  let a := Reg.LV_CTRL n
  let cur := d.rd a
  if fbit cur 31 then
    let d := if fld w 30 0 / 128 / 512 = fld cur 30 0 / 128 / 512 ∧ fld w 6 0 = fld cur 6 0 then d else d.reject m a
    if fbit w 31 then d else d.lvOff n 1
  else
    let c := fld w 6 0
    let off := (decide (c < 64) && !d.clusterOn c) || (c == 127 && d.hgCommands n)
    let w' := if off then putFld w 6 0 (fld cur 6 0) else w
    let d := d.regStore m a (putBit w' 31 false)
    let d := (if off then d.reject m a else d).lvFollow n
    if fbit w 31 then d.lvEnableWrite n else d

def Dev.lvTimeout (d : Dev) (n : Nat) : Dev :=
  let ms := d.f (Reg.LV_CTRL n) 25 16
  if decide (ms ≠ 0) && d.lvRunning n && !d.lvFrozen n && decide ((d.lvMod n).takenAt + ms * 1000000 ≤ d.now) then
    ((d.lvOff n 2).setBit (Reg.LV_STATUS n) 3 true).event (2 + n / 8) 0x5082 [.h n, .h ms]
  else d

/-- A synchronising pulse arrives (R232): with the chain open it acts on a module that runs and is not frozen; with the chain closed it is
ignored and counted whatever the module does. -/
def Dev.lvPulse (d : Dev) (n : Nat) : Dev :=
  let x := d.lvMod n
  if n % 8 = 0 ∨ d.bit (Reg.LV_CTRL n) 29 = false then d
  else if d.chainOpen (n / 8) then
    (if d.lvRunning n && !d.lvFrozen n then
      d.setLv n { x with restartAt := x.restartAt ++ [d.now * 32 + 5 * (d.rd (Reg.LV_SYNC_PHASE n)).toNat] }
    else d)
  else
    let was := d.bit (Reg.LV_STATUS n) 6
    let d := (d.setLv n { x with ignored := x.ignored + 1 }).setBit (Reg.LV_STATUS n) 6 true
    if was then d else d.event (2 + n / 8) 0x5086 [.h n]

def Dev.lvResync (d : Dev) (i : Nat) : Dev :=
  let x := d.chainOf i
  (d.setChain i { x with resyncUntil := d.now + 100000000 }).chainNote i 2

def Dev.chainTimeout (d : Dev) (i : Nat) : Dev :=
  let x := d.chainOf i
  if x.resyncUntil ≠ 0 ∧ x.resyncUntil ≤ d.now then (d.setChain i { x with resyncUntil := 0 }).chainNote i 2 else d

def Dev.lvTest (d : Dev) (i v : Nat) : Dev := (d.setBit (Reg.LV_CHAIN i) 1 (decide (v % 2 = 1))).chainNote i 1

/-- The package enters Field: the start-up opening ends (R231). -/
def Dev.chainsField (d : Dev) : Dev :=
  [0, 1].foldl (fun (d : Dev) i =>
    let x := d.chainOf i
    (d.setChain i { x with early := false }).chainNote i 0) d

/-! ## Carrier and output edges (R226, R227) and the synchronising restart (R232) -/

def LvMod.setPair (x : LvMod) (p : Nat) (y : LvPair) : LvMod := if p = 0 then { x with pair0 := y } else { x with pair1 := y }

/-- The carrier edges of a pair up to `u` reach its delay stages. -/
def LvPair.carrierTo (p : LvPair) (rise fall u : Nat) : LvPair :=
  let due := p.carr.filter (fun e => decide (e.1 ≤ u))
  let q := due.foldl (fun q e => LvPair.edge q rise fall e) p
  { q with carr := p.carr.filter (fun e => decide (u < e.1)) }

def Dev.lvCarrier (d : Dev) (n p : Nat) : Dev :=
  let x := d.lvMod n
  if d.lvRunning n && decide (p < 2) then
    let dl := d.lvDelay n p
    d.setLv n (x.setPair p ((x.pair p).carrierTo dl.1 dl.2 (x.at_ d.fine)))
  else d

/-- Output `k` (0 A0, 1 B0, 2 A1, 3 B1) takes the delayed edges that have come. -/
def LvPair.outTo (p : LvPair) (odd : Bool) (u : Nat) : LvPair :=
  if odd then { p with b := p.b.settle u } else { p with a := p.a.settle u }

def Dev.lvOutput (d : Dev) (n k : Nat) : Dev :=
  if decide (k < 4) then
    let d := d.lvCarrier n (k / 2)
    let x := d.lvMod n
    if d.lvRunning n then
      (d.setLv n (x.setPair (k / 2) ((x.pair (k / 2)).outTo (decide (k % 2 = 1)) (x.at_ d.fine)))).routeConds n
    else d
  else d

/-- LV_SYNC_PHASE after a pulse the module ends its period and starts a new one. -/
def Dev.lvRestart (d : Dev) (n : Nat) : Dev :=
  let x := d.lvMod n
  match x.firstRestart with
  | none => d
  | some r =>
    if d.lvRunning n && !d.lvFrozen n && decide (r ≤ d.fine) && decide (r ≤ x.start + 5 * x.p) then (d.lvTurn n r).routeConds n else d

/-! ## Meanings -/

def execLvCarrierEdge (t n p : Nat) (s : State) : Host.Outcome State Fault Refusal := s.put ((s.dev.advance t).lvCarrier n p)
def execLvOutputEdge (t n k : Nat) (s : State) : Host.Outcome State Fault Refusal := s.put ((s.dev.advance t).lvOutput n k)
def execLvSyncRestart (t n : Nat) (s : State) : Host.Outcome State Fault Refusal := s.put ((s.dev.advance t).lvRestart n)


def execLvPeriodStart (t n : Nat) (s : State) : Host.Outcome State Fault Refusal := s.put ((s.dev.advance t).lvPeriodStart n)
def execLvCompare (t n j : Nat) (s : State) : Host.Outcome State Fault Refusal := s.put ((s.dev.advance t).lvCompare n j)

def execLvCommit (t m n : Nat) (s : State) : Host.Outcome State Fault Refusal :=
  s.put ((s.dev.advance t).byMaster m (Reg.LV_COMMIT_REG n) true (fun d => d.lvCommit n))

def execLvEnable (t : Nat) (via : Via) (n : Nat) (s : State) : Host.Outcome State Fault Refusal :=
  match via with
  | .reg m => s.put ((s.dev.advance t).byMaster m (Reg.LV_CTRL n) true (fun d =>
      d.lvCtrlWrite m n (putBit (d.rd (Reg.LV_CTRL n)) 31 true)))
  | .dict r => s.put ((s.dev.advance t).dictVal r 0x5100 (n + 1) 1 1 (fun d => (d.lvEnableWrite n).yes))

def execLvDisable (t : Nat) (via : Via) (n : Nat) (s : State) : Host.Outcome State Fault Refusal :=
  match via with
  | .reg m => s.put ((s.dev.advance t).byMaster m (Reg.LV_CTRL n) true (fun d =>
      d.lvCtrlWrite m n (putBit (d.rd (Reg.LV_CTRL n)) 31 false)))
  | .dict r => s.put ((s.dev.advance t).dictVal r 0x5100 (n + 1) 1 0 (fun d => (d.lvOff n 1).yes))

/-- A halt of a cluster that waits behind an event of its own fabric cycle (R238). -/
def Dev.haltWaits (d : Dev) (waiting : List Instr) (c : Nat) : Bool :=
  waiting.any (fun i => match i with
    | .clusterHalt t r v => decide (cycleOf t = cycleOf d.now) && v == c && decide (v < 64) && !d.mustWait r 0x2102 && d.generalCode r true 0x2102 1 0 (leBytes v 1) == 0
    | _ => false)

/-- CMD_TIMEOUT expires; a halt of the same cycle comes first and suspends it (R235, R238). -/
def execLvCmdTimeout (t n : Nat) (s : State) : Host.Outcome State Fault Refusal :=
  let d := s.dev.advance t
  s.put (if d.haltWaits s.pending (d.f (Reg.LV_CTRL n) 6 0) then d else d.lvTimeout n)
def execLvSyncPulse (t n : Nat) (s : State) : Host.Outcome State Fault Refusal := s.put ((s.dev.advance t).lvPulse n)

def execLvResync (t : Nat) (via : Via) (die : Nat) (s : State) : Host.Outcome State Fault Refusal :=
  match via with
  | .reg m => s.put ((s.dev.advance t).byMaster m (Reg.LV_CHAIN die) true (fun d => d.lvResync die))
  | .dict r => s.put ((s.dev.advance t).dictVal r 0x5111 (die + 1) 1 1 (fun d => (d.lvResync die).yes))

def execLvChainTimeout (t die : Nat) (s : State) : Host.Outcome State Fault Refusal := s.put ((s.dev.advance t).chainTimeout die)

def execLvTest (t : Nat) (via : Via) (die v : Nat) (s : State) : Host.Outcome State Fault Refusal :=
  match via with
  | .reg m => s.put ((s.dev.advance t).byMaster m (Reg.LV_CHAIN die) true (fun d =>
      if d.inField && decide (v % 2 = 1) then d.reject m (Reg.LV_CHAIN die) else d.lvTest die v))
  | .dict r => s.put ((s.dev.advance t).dictVal r 0x5110 (die + 1) 1 v (fun d =>
      if 1 < v then d.no 0x0301 else if d.inField && decide (v = 1) then d.no 0x0401 else (d.lvTest die v).yes))

end Sys2Proof.Machine
end

