-- ==== Sys2Proof/Machine/HingeOps.lean ====
section
/-! DEFINITION. Hinge slots: measurement, profile, block-floating compensator, groups, destinations (R242 to R259). -/
namespace Sys2Proof.Machine

def Dev.hgOf (d : Dev) (g : Nat) : HgSlot := SMap.get (fun _ => HgSlot.reset) d.hg g
def Dev.setHg (d : Dev) (g : Nat) (x : HgSlot) : Dev := { d with hg := SMap.set (fun _ => HgSlot.reset) d.hg g x }

def Dev.hgStat (d : Dev) (g bit : Nat) (b : Bool) : Dev := d.setBit (hgReg Reg.HG_SSTATUS g) bit b

/-! ## Staging (R258) -/

/-- The staged registers of a slot. -/
def hgStaged (g : Nat) : List Nat :=
  [hgReg Reg.HG_SEXP g, hgReg Reg.HG_U_MIN g, hgReg Reg.HG_U_MAX g, hgReg Reg.HG_OUT_SCALE g, hgReg Reg.HG_OUT_BIAS g,
   hgReg Reg.HG_HYS_BAND g]
  ++ (List.range 4).map (fun j => Reg.HG_BP (hgDie g) (hgSlot g) j)
  ++ (List.range 5).flatMap (fun r => (List.range 7).map (fun i => Reg.HG_COEF (hgDie g) (hgSlot g) r i))
  ++ (List.range 5).map (fun r => Reg.HG_CEXP (hgDie g) (hgSlot g) r)

/-- A staged register as the slot has taken it. -/
def HgSlot.val (x : HgSlot) (a : Nat) : Word := SMap.get regReset x.taken a

/-- The breakpoint registers of a slot. -/
def hgBps (g : Nat) : List Nat := (List.range 4).map (fun j => Reg.HG_BP (hgDie g) (hgSlot g) j)

/-- Whether F32 values rise strictly. -/
def risingF : List Word → Bool
  | a :: b :: rest => fLt a b && risingF (b :: rest)
  | _ => true

/-- The staged breakpoints do not rise strictly: a reserved encoding of the set (R255). Those that stand already are none. -/
def Dev.hgBpBad (d : Dev) (g : Nat) : Bool :=
  !risingF ((hgBps g).map (fun a => d.rd a)) && (hgBps g).any (fun a => d.rd a != (d.hgOf g).val a)

/-- The slot takes its staged set, without breakpoints that do not rise. -/
def Dev.hgTake (d : Dev) (g : Nat) : Dev :=
  let x := d.hgOf g
  let as := if d.hgBpBad g then (hgStaged g).filter (fun a => !(hgBps g).contains a) else hgStaged g
  let t := as.foldl (fun m a => SMap.set regReset m a (d.rd a)) x.taken
  d.setHg g { x with taken := t, commitAt := none }

def Dev.hgCommit (d : Dev) (g : Nat) : Dev :=
  let x := d.hgOf g
  d.setHg g { x with commitAt := some d.now }

/-- A commit through HG_COMMIT: a reserved breakpoint set is rejected, the rest of the set is committed (R8, R258). -/
def Dev.hgCommitReg (d : Dev) (m g : Nat) : Dev :=
  let bad := d.hgBpBad g
  let d := d.hgCommit g
  if bad then d.reject m (Reg.HG_BP (hgDie g) (hgSlot g) 0) else d

/-- A commit through SlotCommit. -/
def Dev.hgCommitObj (d : Dev) (g : Nat) : WRes := if d.hgBpBad g then d.no 0x0301 else (d.hgCommit g).yes

/-! ## Measurement (R245 to R247) -/

/-- The value of an analog code in its input's unit. -/
def Dev.aiReading (d : Dev) (n code : Nat) : Word :=
  let m := d.aiMode n
  let full : Nat := if m = 1 then 55 else if m = 2 then 110 else 240
  fOfRat ((code * full : Nat) : Int) 655350

/-- An analog reading: of the conversion that the trigger at `t0` started, where its result came within 5 µs of it; without a trigger, which
is the case at an enabling, the input's latest result. A result with a fault is none (R246). -/
def Dev.hgAnalog (d : Dev) (n : Nat) (trig : Option Nat) : Option Word :=
  let x := d.aiOf n
  let triggered := if d.bit (Reg.AI_TRIG n) 30 then none else some (d.aiReading n (d.f (Reg.AI_TRIG n) 15 0))
  match trig with
  | some t0 => if x.resFrom = t0 + 1 ∧ x.trigDone ≤ t0 + 5000 then triggered else none
  | none =>
    if d.aiMode n = 0 then none
    else if x.resFrom ≠ 0 ∧ x.resultAt ≤ x.trigDone then triggered
    else if d.bit (Reg.AI_STATUS n) 0 then some (d.aiReading n (d.f (Reg.AI_VAL n) 15 0))
    else none

/-- The reading `x` of a source code at a trigger, or at an enabling, none where it is not available. -/
def Dev.hgSource (d : Dev) (g code : Nat) (trig : Option Nat) : Option Word :=
  let i := hgDie g
  if 1 ≤ code ∧ code ≤ 8 then d.hgAnalog (8 * i + code - 1) trig
  else if 9 ≤ code ∧ code ≤ 12 then
    let n := 4 * i + code - 9
    let p := (d.rd (Reg.FI_PERIOD n)).toNat
    if d.bit Reg.SPD_STATUS (16 + n) then none
    else if d.bit Reg.SPD_STATUS n then some 0
    else if p = 0 then none
    else some (fOfRat 100000000 p)
  else if code = 13 then some (fOfRat ((d.rd (Reg.SOL_BOOST_V i)).toNat : Int) 1000)
  else if code = 14 then
    let at_ := (d.hgOf g).fwAt
    if at_ ≠ 0 ∧ trig.getD d.now + 1 < at_ + (d.rd (hgReg Reg.HG_FWIN_TIMEOUT g)).toNat * 1000 then some (d.rd (hgReg Reg.HG_FWIN g)) else none
  else none

/-- y = IN_SCALE · x + IN_OFFSET. -/
def Dev.hgScale (d : Dev) (g : Nat) (x : Word) : Word :=
  fAdd (fMul (d.rd (hgReg Reg.HG_IN_SCALE g)) x) (d.rd (hgReg Reg.HG_IN_OFFSET g))

/-- The measurement and whether it is valid. INPUT 0 is valid only for a pure profile source to DEST 5, which in a
group is its leader's. -/
def Dev.hgMeasure (d : Dev) (g : Nat) (trig : Option Nat) : Word × Bool :=
  let inp := d.hgRoute g 23 20
  if inp = 0 then (0, d.hgRoute ((d.hgMembers g).headD g) 31 29 == 5 && d.hgCtrl g 29 29 == 1)
  else
    match d.hgSource g inp trig with
    | none => (d.rd (hgReg Reg.HG_SY g), false)
    | some x =>
      let y := d.hgScale g x
      (y, fLe (d.rd (hgReg Reg.HG_IN_MIN g)) y && fLe y (d.rd (hgReg Reg.HG_IN_MAX g)))

/-! ## Set-point and region (R255, R256) -/

/-- One step of the profile generator on (r, v, a): the new triple and PROF_DONE. -/
def profStep (target r v a vmax amax jmax tt : Word) : Word × Word × Word × Bool :=
  let dd := fSub target r
  let near := fLe (fAbs dd) (fMul (fMul (fMul jmax tt) tt) tt) && fLe (fAbs v) (fMul amax tt)
  if near then (target, 0, 0, true)
  else
    let stop := fDiv (fMul (fAbs v) amax) (fMul 0x40000000 jmax)
    let left := fSub (fAbs dd) stop
    let left := if fLt left 0 then 0 else left
    let root := fSqrt (fMul (fMul 0x40000000 amax) left)
    let mag := if fLt vmax root then vmax else root
    let vt := if fNeg dd then fNegate mag else mag
    let aw := fClamp (fDiv (fMul (fSub vt v) jmax) amax) (fNegate amax) amax
    let jt := fMul jmax tt
    let a' := fAdd a (fClamp (fSub aw a) (fNegate jt) jt)
    let v' := fClamp (fAdd v (fMul a' tt)) (fNegate vmax) vmax
    (fAdd r (fMul v' tt), v', a', false)

/-- The region that σ selects, from the present one (R255). -/
def regionOfSigma (bp : Nat → Word) (hys sigma : Word) (region : Nat) : Nat :=
  let up (r : Nat) : Nat := if r < 4 && fLe (fAdd (bp r) hys) sigma then r + 1 else r
  let down (r : Nat) : Nat := if 0 < r && fLt sigma (fSub (bp (r - 1)) hys) then r - 1 else r
  let r := up (up (up (up region)))
  down (down (down (down r)))

def Dev.hgRegion (d : Dev) (g : Nat) : Nat := d.f (hgReg Reg.HG_SSTATUS g) 11 9

/-- σ of a slot, none where it is not available. -/
def Dev.hgSigma (d : Dev) (g : Nat) (trig : Option Nat) (r : Word) : Option Word :=
  let src := d.hgRoute g 19 16
  if src = 15 then some r
  else
    match d.hgSource g src trig with
    | none => none
    | some x => some (if src = d.hgRoute g 23 20 then d.hgScale g x else x)

/-- The region for this sample, from the region `from_`. -/
def Dev.hgNewRegion (d : Dev) (g : Nat) (trig : Option Nat) (r : Word) (from_ : Nat) : Nat :=
  let x := d.hgOf g
  let src := d.hgRoute g 19 16
  if src = 0 then 0
  else
    match d.hgSigma g trig r with
    | none => from_
    | some s =>
      if fNan s then from_
      else regionOfSigma (fun j => x.val (Reg.HG_BP (hgDie g) (hgSlot g) j)) (x.val (hgReg Reg.HG_HYS_BAND g)) s from_

/-- The region is recomputed; a change is counted. -/
def Dev.hgSetRegion (d : Dev) (g : Nat) (trig : Option Nat) (r : Word) : Dev :=
  let new := d.hgNewRegion g trig r (d.hgRegion g)
  let d := if new = d.hgRegion g then d else d.incOb (Obj.RegionChanges g)
  d.setF (hgReg Reg.HG_SSTATUS g) 11 9 new

/-! ## The compensator (R248 to R250) -/

def i24 (w : Word) : Int := sx 24 (fld w 23 0)
def i6 (n : Nat) : Int := sx 6 n

/-- A value converted into a stage: mantissa, and whether it saturated. -/
def toStage (w : Word) (x : Int) : Int × Bool :=
  if fNan w then (0, true)
  else if fInf w then (if fNeg w then -8388607 else 8388607, true)
  else
    let k := 23 - x
    let m := if 0 ≤ k then rhaDiv (fInt w * 2 ^ k.toNat) (2 ^ 149) else rhaDiv (fInt w) (2 ^ (149 + (-k).toNat))
    let c := clampI (-8388607) 8388607 m
    (c, decide (c ≠ m))

/-- A 64-bit saturating value. -/
def sat64 (i : Int) : Int := clampI (-9223372036854775808) 9223372036854775807 i

/-- A product shifted to the accumulator scale, and whether it saturated. -/
def toAcc (p shift : Int) : Int × Bool :=
  let v := if 0 ≤ shift then p * 2 ^ min 127 shift.toNat else p / (2 ^ (-shift).toNat : Int)
  (sat64 v, decide (sat64 v ≠ v))

/-- u_raw as a mantissa of stage U; whether a product, the accumulator or the mantissa saturated, which makes the sample a saturated one;
and whether the rounded result did, which is an overflow (R250). -/
def hgEquation (b a : List Int) (xb xa xe xu : Int) (e u : List Int) : Int × Bool × Bool :=
  let eb := (List.zip b e).map (fun p => toAcc (p.1 * p.2) (xb + xe - xu - 7))
  let ua := (List.zip a u).map (fun p => toAcc (p.1 * p.2) (xa - 7))
  let step (s t : Int × Bool) : Int × Bool :=
    let v := s.1 + t.1
    (sat64 v, s.2 || t.2 || decide (sat64 v ≠ v))
  let s := (eb ++ ua).foldl step (0, false)
  let m := (s.1 + 32768) / 65536
  let c := clampI (-8388607) 8388607 m
  (c, s.2 || decide (c ≠ m), decide (c ≠ m))

/-- A change of a slot's validity (R247, R264). -/
def Dev.hgValidity (d : Dev) (g : Nat) (valid : Bool) : Dev := d.event (2 + hgDie g) 0x5002 [.h g, .h (if valid then 2 else 1)]

/-- What one slot's evaluation gives before its group decides. -/
structure HgEval where
  g : Nat
  offer : Word
  raw : Int
  sat : Bool
  valid : Bool
  e : List Int
  deriving DecidableEq, Repr

/-- One slot's sample at `t0`: staged set, measurement, set-point, region, equation (R246 to R256). The interval of the first sample after
enabling, which no previous sample bounds, is open up to the cap of 100 ms. -/
def Dev.hgEvaluate (d : Dev) (g t0 : Nat) : Dev × HgEval :=
  let x := d.hgOf g
  let d := match x.commitAt with | some c => (if c / 5 < t0 / 5 then d.hgTake g else d) | none => d
  let x := d.hgOf g
  let came := x.target.filter (fun p => decide (p.2 / 5 < t0 / 5))
  let d := d.setHg g { x with target := x.target.filter (fun p => decide (t0 / 5 ≤ p.2 / 5)) }
  let d := match came.getLast? with
    | some (w, _) => d.wr (hgReg Reg.HG_TARGET g) w
    | none => d
  let x := d.hgOf g
  let (y, valid) := d.hgMeasure g (some t0)
  let d := d.wr (hgReg Reg.HG_SY g) y
  let d := if valid = x.valid then d else d.hgValidity g valid
  let target := d.rd (hgReg Reg.HG_TARGET g)
  let open_ := (Config.freeWord d.fresh).toNat % 100000001
  let first := decide (x.lastAt = 0)
  let dt := if first then open_ else min 100000000 (t0 + 1 - x.lastAt)
  let d := if first then d.bump else d
  let (r, v, a, done) :=
    if d.hgCtrl g 29 29 = 1 then
      profStep target (d.rd (hgReg Reg.HG_SR g)) x.v x.a (d.rd (hgReg Reg.HG_V_MAX g)) (d.rd (hgReg Reg.HG_A_MAX g))
        (d.rd (hgReg Reg.HG_J_MAX g)) (fOfRat (dt : Int) 1000000000)
    else (target, x.v, x.a, false)
  let d := (d.wr (hgReg Reg.HG_SR g) r).hgStat g 8 done
  let d := d.hgSetRegion g (some t0) r
  let reg := d.hgRegion g
  let co (i : Nat) : Int := i24 (x.val (Reg.HG_COEF (hgDie g) (hgSlot g) reg i))
  let ce := x.val (Reg.HG_CEXP (hgDie g) (hgSlot g) reg)
  let se := x.val (hgReg Reg.HG_SEXP g)
  let xe := i6 (fld se 5 0)
  let xu := i6 (fld se 13 8)
  let n := if d.hgCtrl g 30 30 = 1 then 4 else 3
  let (em, esat) := toStage (fSub r y) xe
  let es := em :: x.e.take 3
  let (raw, osat, beyond) := hgEquation ([co 0, co 1, co 2, co 3].take n) ([co 4, co 5, co 6].take (n - 1)) (i6 (fld ce 5 0)) (i6 (fld ce 13 8))
    xe xu es x.u
  let uraw := fOfStage raw xu
  let lim := fClamp uraw (x.val (hgReg Reg.HG_U_MIN g)) (x.val (hgReg Reg.HG_U_MAX g))
  let hold := d.hgCtrl g 28 28 = 0
  let safe := d.rd (hgReg Reg.HG_U_SAFE g)
  let (sm, _) := toStage safe xu
  let offer := if valid then lim else if hold then x.offered else safe
  let sat := valid && (osat || lim != uraw)
  let exceeds := valid && beyond
  let d := (d.hgStat g 5 sat).hgStat g 4 (valid && esat)
  let d := d.hgStat g 3 valid
  let d := if exceeds then
      let d := ((d.hgStat g 30 true).setBit (Reg.HG_STATUS (hgDie g)) 30 true).incOb (Obj.OverflowCount g)
      let d := d.incF (hgReg Reg.HG_SCNT2 g) 15 0
      if x.ovEpisode then d else d.event (2 + hgDie g) 0x5003 [.h g, .h reg]
    else d
  let e' := if valid then es else if hold then x.e else [0, 0, 0, 0]
  let u' := if valid || hold then x.u else [sm, sm, sm]
  let d := d.setHg g { x with
    e := e', u := u', v := v, a := a, lastAt := t0 + 1, offered := offer, valid := valid, ovEpisode := exceeds }
  let d := d.wr (hgReg Reg.HG_SCOUNT g) (d.rd (hgReg Reg.HG_SCOUNT g) + 1)
  (d, { g := g, offer := offer, raw := raw, sat := sat, valid := valid, e := e' })

/-! ## Destinations (R244, R251, R252) -/

/-- A module that no longer follows its commits: disabled, frozen or with a routed channel forced (R254). -/
def Dev.lvForced (d : Dev) (n : Nat) : Bool :=
  (List.range 4).any (fun k =>
    match routeTarget (n / 8) (d.routeCode n k) with
    | some (cls, out) =>
      let die := if cls = 1 then lsDie out else dioDie out
      d.closed || d.forcing die
    | none => false)

def Dev.lvDeaf (d : Dev) (n : Nat) : Bool := !d.lvRunning n || d.lvFrozen n || d.lvForced n

/-- A rounded result, an open value where it is not a number. -/
def Dev.hgRound (d : Dev) (z : Word) (lo hi : Nat) : Dev × Nat :=
  match fToNat z lo hi with
  | some v => (d, v)
  | none => (d.bump, max lo (min hi (Config.freeWord d.fresh).toNat))

/-- A commit to a Louvre module; in the cycle of a period start it is deferred, which sets LATE (R244). -/
def Dev.hgLouvre (d : Dev) (g n : Nat) : Dev :=
  let x := d.hgOf g
  let cyc := d.now * 32 / 160
  let late := d.lvRunning n && (cyc == (d.lvMod n).start / 160 || cyc == d.lvNext n / 160)
  let d := d.lvCommit n
  if late then
    let d := ((d.hgStat g 29 true).setBit (Reg.HG_STATUS (hgDie g)) 29 true).incOb (Obj.LateCommitCount g)
    let d := d.incF (hgReg Reg.HG_SCNT2 g) 31 16
    let d := d.setHg g { x with lateEpisode := true }
    if x.lateEpisode then d else d.event (2 + hgDie g) 0x5005 [.h g, .h n]
  else d.setHg g { x with lateEpisode := false }

/-- The result of a group goes to its leader's destination; a module without a cluster is commanded by the dictionary alone (R224), and a
leader with a reserved configuration writes nothing (R251). -/
def Dev.hgApply (d : Dev) (g : Nat) (u : Word) : Dev :=
  let x := d.hgOf g
  let z := fAdd (fMul (x.val (hgReg Reg.HG_OUT_SCALE g)) u) (x.val (hgReg Reg.HG_OUT_BIAS g))
  let dest := d.hgRoute g 31 29
  let n := d.hgModule g
  let pair := d.hgRoute g 27 27
  let timeReg := if pair = 0 then Reg.LV_TIME0 n else Reg.LV_TIME1 n
  if x.barred ∨ (1 ≤ dest ∧ dest ≤ 3 ∧ d.f (Reg.LV_CTRL n) 6 0 = 127) then d
  else if dest = 1 then
    let (d, v) := d.hgRound z 0 0xFFFFFFFF
    (d.wr timeReg (wd v)).hgLouvre g n
  else if dest = 2 then
    let (d, v) := d.hgRound z 0 0xFFFFFFFF
    (d.wr (Reg.LV_PERIOD n) (wd v)).hgLouvre g n
  else if dest = 3 then
    let duty := fClamp z 0x37800000 f1
    let (d, v) := d.hgRound (fDiv (fOfInt ((d.rd timeReg).toNat : Int)) duty) 0 0xFFFFFFFF
    (d.wr (Reg.LV_PERIOD n) (wd v)).hgLouvre g n
  else if dest = 4 ∨ dest = 5 then d.setHg g { x with result := some z }
  else if dest = 0 then d.setHg g { x with result := some u }
  else d

/-- The result of the previous sample takes effect (DEST 0, 4 and 5, R244); `ms` are the members of the group. -/
def Dev.hgPrevious (d : Dev) (g t0 : Nat) (ms : List Nat) : Dev :=
  let x := d.hgOf g
  match x.result with
  | none => d
  | some z =>
    let d := d.setHg g { x with result := none }
    let idx := d.hgRoute g 28 24
    if d.hgRoute g 31 29 = 0 then ms.foldl (fun (d : Dev) m => d.wr (hgReg Reg.HG_SU m) z) d
    else if d.hgRoute g 31 29 = 4 then
      let (d, v) := d.hgRound z 100 2500
      { d with hyst := SMap.set (fun _ => 0) d.hyst (32 * hgDie g + idx) (1 + hgSlot g * 4096 + v) }
    else if d.hgRoute g 31 29 = 5 then
      let o := 16 * hgDie g + idx % 16
      let y := d.hgOf o
      d.setHg o { y with target := y.target ++ [(z, t0)] }
    else d

/-! ## A sample (R243, R244, R253, R254) -/

/-- The instant of the trigger that a leading slot's sample answers: a whole multiple of its period, or a pulse of its line, that has
not been sampled, lies at most 10 µs back and comes after the enabling (R259). -/
def Dev.hgInstant (d : Dev) (g : Nat) : Option Nat :=
  let x := d.hgOf g
  let per := d.hgCtrl g 16 0 * 1000
  let t0 :=
    if d.hgCtrl g 27 26 = 1 then d.now / per * per + 1
    else if d.hgCtrl g 27 26 = 2 then SMap.get (fun _ => 0) d.trigLine (32 * hgDie g + d.hgCtrl g 25 21)
    else 0
  if t0 ≠ 0 ∧ x.lastAt < t0 ∧ x.since < t0 ∧ d.now + 1 ≤ t0 + 10000 then some (t0 - 1) else none

/-- An analog input of the slot whose conversion may still come within its 5 µs. -/
def Dev.hgWaiting (d : Dev) (g t0 : Nat) : Bool :=
  let inp := d.hgRoute g 23 20
  decide (1 ≤ inp) && decide (inp ≤ 8) && decide ((d.aiOf (8 * hgDie g + inp - 1)).resFrom ≠ t0 + 1) && decide (d.now < t0 + 5000)

def lowestOffer : List HgEval → Option HgEval
  | [] => none
  | x :: xs =>
    match lowestOffer xs with
    | none => some x
    | some y => if fLt y.offer x.offer then some y else some x

/-- What each member pushes into its U stage, its WINNER and HOLDING bits (R254), and the applied output, which with DEST 0 takes effect
only at the next sample (R244). -/
def Dev.hgPush (d : Dev) (leader winner : Nat) (applied : Word) (ev : HgEval) : Dev :=
  let g := ev.g
  let x := d.hgOf g
  let dest := d.hgRoute leader 31 29
  let deaf := decide (1 ≤ dest) && decide (dest ≤ 3) && d.lvDeaf (d.hgModule leader)
  let goes := decide (g = winner) && !ev.sat && ev.valid && !deaf
  let next := if goes then ev.raw else x.u.headD 0
  let d := if ev.valid then d.setHg g { x with u := next :: x.u.take 2 } else d
  let d := (d.hgStat g 7 (decide (g = winner))).hgStat g 6 (!goes)
  if dest = 0 then d else d.wr (hgReg Reg.HG_SU g) applied

/-- A change of a group's winner is counted, and recorded at most once per second (R253). -/
def Dev.hgWinner (d : Dev) (leader winner : Nat) : Dev :=
  let grp := d.hgGroup leader
  if grp = 0 then d
  else
    let k := 8 * hgDie leader + grp
    let was := SMap.get (fun _ => 0) d.hgWin k
    let d : Dev := { d with hgWin := SMap.set (fun _ => 0) d.hgWin k (hgSlot winner + 1) }
    if was = hgSlot winner + 1 ∨ was = 0 then d
    else
      let d := d.incOb (Obj.WinnerChanges leader)
      let n := SMap.get (fun _ => 0) d.hgWins k + 1
      let e := d.eventEvery 1000000000 (2 + hgDie leader) 0x5004 k [.h (hgDie leader), .h grp, .w n]
      let told := decide (e.rcd.evLast ≠ d.rcd.evLast)
      { e with hgWins := SMap.set (fun _ => 0) e.hgWins k (if told then 0 else n) }

/-- The copied registers of a slot (R262). -/
def Dev.hgCopies (d : Dev) (g : Nat) : List (Nat × Word) :=
  [Reg.HG_SY, Reg.HG_SR, Reg.HG_SU, Reg.HG_SCOUNT, Reg.HG_SSTATUS].map (fun r => (hgReg r g, d.rd (hgReg r g)))

/-- The copies of a Latch at a sample instant show the values after that sample (R261). -/
def Dev.hgLatched (d : Dev) (t0 : Nat) (ms : List Nat) : Dev :=
  d.amendBanks (fun i => i == t0) (ms.flatMap d.hgCopies)

/-- The slots that sample with leader `g` at `t0`: the members that were enabled before it (R243, R259). -/
def Dev.hgSampled (d : Dev) (g t0 : Nat) : List Nat := (d.hgMembers g).filter (fun m => decide ((d.hgOf m).since < t0 + 1))

/-- What the evaluations of a leader's group give: the group decides and applies (R253, R254). -/
def Dev.hgDecide (d : Dev) (t0 g : Nat) (evs : List HgEval) : Dev :=
  match lowestOffer evs with
  | none => d
  | some w =>
    let d := evs.foldl (fun (d : Dev) ev => d.hgPush g w.g w.offer ev) d
    ((d.hgWinner g w.g).hgApply g w.offer).hgLatched t0 (evs.map (fun ev => ev.g))

/-- The triggers of some leading slots at one instant are served: the previous results take effect, all their slots are evaluated in slot
order, and each group decides (R244). -/
def Dev.hgServe (d : Dev) (t0 : Nat) (leaders : List Nat) : Dev :=
  let groups := leaders.map (fun g => (g, d.hgSampled g t0))
  let slots := (leaders.flatMap (fun g => dieSlots (hgDie g))).eraseDups.filter (fun m => groups.any (fun p => p.2.contains m))
  let d := groups.foldl (fun (d : Dev) p => p.2.foldl (fun (d : Dev) m => d.hgPrevious m t0 p.2) d) d
  let (d, evs) := slots.foldl (fun (p : Dev × List HgEval) m =>
    let r := p.1.hgEvaluate m t0
    (r.1, p.2 ++ [r.2])) (d, [])
  groups.foldl (fun (d : Dev) p => d.hgDecide t0 p.1 (evs.filter (fun ev => p.2.contains ev.g))) d

/-- The leading slots up to `g` whose trigger at `t0` has not been served. -/
def Dev.hgTriggered (d : Dev) (g t0 : Nat) : List Nat :=
  (dieSlots (hgDie g)).filter (fun s => decide (s ≤ g) && d.hgOn s && d.hgLeads s && d.hgInstant s == some t0)

/-- The same, with every leader below a slot that one of them samples, in `k` rounds. -/
def Dev.hgDue (d : Dev) (g t0 : Nat) : Nat → List Nat
  | 0 => d.hgTriggered g t0
  | k + 1 => d.hgTriggered ((d.hgDue g t0 k).foldl (fun a s => (d.hgMembers s).foldl max (max a s)) g) t0

/-- A slot's sample: the slots triggered at one instant are evaluated in slot order, so that lower ones that are still due come first, and
none is evaluated while a conversion that they wait for may still come (R244, R261). -/
def Dev.hgSample (d : Dev) (g : Nat) : Dev :=
  if d.hgOn g && d.hgLeads g then
    match d.hgInstant g with
    | none => d
    | some t0 =>
      let due := d.hgDue g t0 4
      if due.any (fun s => (d.hgSampled s t0).any (fun m => d.hgWaiting m t0)) then d else d.hgServe t0 due
  else d

/-! ## Enabling (R251, R258, R259) -/

/-- What a leading slot writes: kind and place, none for DEST 0. -/
def Dev.hgTargetOf (d : Dev) (g : Nat) : Option (Nat × Nat) :=
  let dest := d.hgRoute g 31 29
  if dest = 1 then some (1, 2 * d.hgModule g + d.hgRoute g 27 27)
  else if dest = 2 ∨ dest = 3 then some (2, d.hgModule g)
  else if dest = 4 then some (4, d.hgRoute g 28 24)
  else if dest = 5 then some (5, d.hgRoute g 28 24 % 16)
  else none

/-- A configuration that R244, R251 and R253 reserve. A slot that is barred writes nothing that another could write too. -/
def Dev.hgReserved (d : Dev) (g : Nat) : Bool :=
  let dest := d.hgRoute g 31 29
  let n := d.hgModule g
  let leads := (d.hgMembers g).all (fun m => decide (g ≤ m))
  let louvre := decide (1 ≤ dest) && decide (dest ≤ 3)
  let others := (dieSlots (hgDie g)).filter (fun x => x != g && d.hgOn x && d.hgLeads x && !(d.hgOf x).barred
    && !(d.hgGroup g != 0 && d.hgGroup x == d.hgGroup g))
  leads &&
    ((louvre && !(d.hgCtrl g 27 26 == 2 && d.hgCtrl g 25 21 / 4 == n % 8))
      || d.hgDestBad g dest (d.hgRoute g 28 24)
      || ((d.hgTargetOf g).isSome && others.any (fun x => d.hgTargetOf x == d.hgTargetOf g)))

/-- Enabling a slot (R259). A committed set that it has not taken yet stays pending until its first sample (R258); U_INIT and the region go
by that set. -/
def Dev.hgEnable (d : Dev) (g : Nat) : Dev :=
  let own := d.hgOf g
  let x := if own.commitAt.isSome then (d.hgTake g).hgOf g else own
  let was := d.bit (hgReg Reg.HG_SSTATUS g) 3
  let xu := i6 (fld (x.val (hgReg Reg.HG_SEXP g)) 13 8)
  let (m, _) := toStage (d.rd (hgReg Reg.HG_U_INIT g)) xu
  let (y, valid) := d.hgMeasure g none
  let r := if valid then y else d.rd (hgReg Reg.HG_TARGET g)
  let d := d.setHg g { HgSlot.reset with
    taken := x.taken, fwAt := x.fwAt, u := [m, m, m], offered := d.rd (hgReg Reg.HG_U_INIT g), valid := valid, since := d.now + 1 }
  let d := (d.wr (hgReg Reg.HG_SR g) r).wr (hgReg Reg.HG_SU g) (d.rd (hgReg Reg.HG_U_INIT g))
  let d := d.setF (hgReg Reg.HG_SSTATUS g) 11 9 (d.hgNewRegion g none r 0)
  let d := d.setHg g { (d.hgOf g) with taken := own.taken, commitAt := own.commitAt }
  let d := d.setBit (hgReg Reg.HG_SCTRL g) 31 true
  let d := (d.hgStat g 0 true).hgStat g 3 valid
  let d := (d.setBit (Reg.HG_STATUS (hgDie g)) (hgSlot g) true).event (2 + hgDie g) 0x5001 [.h g, .h 1]
  if valid = was then d else d.hgValidity g valid

/-- A hysteretic channel's set-point that this slot gave. -/
def hystOf (g : Nat) (p : Nat × Nat) : Bool := p.1 / 32 == hgDie g && (p.2 - 1) / 4096 == hgSlot g

/-- The slots of a die that have come to lead since `was`, and those barred before, are judged as slots that lead: one whose configuration
is reserved writes nothing (R251, R261). -/
def Dev.hgJudge (d : Dev) (i : Nat) (was : List Nat) : Dev :=
  ((dieSlots i).filter (fun x => d.hgOn x && d.hgLeads x && (!was.contains x || (d.hgOf x).barred))).foldl (fun (d : Dev) x =>
    d.setHg x { d.hgOf x with barred := d.hgReserved x }) d

/-- The slots of a die that lead. -/
def Dev.hgLeaders (d : Dev) (i : Nat) : List Nat := (dieSlots i).filter (fun x => d.hgOn x && d.hgLeads x)

/-- Disabling a slot: its writes stop at once, and a hysteretic channel returns to HOLD_I. -/
def Dev.hgDisable (d : Dev) (g cause : Nat) : Dev :=
  if d.hgCtrl g 31 31 = 0 then d
  else
    let x := d.hgOf g
    let led := d.hgLeaders (hgDie g)
    let d := d.setHg g { x with result := none, lastAt := 0, barred := false }
    let d := (d.setBit (hgReg Reg.HG_SCTRL g) 31 false).hgStat g 0 false
    let d := d.setBit (Reg.HG_STATUS (hgDie g)) (hgSlot g) false
    let d : Dev := { d with hyst := d.hyst.filter (fun p => !hystOf g p) }
    (d.event (2 + hgDie g) 0x5001 [.h g, .h cause]).hgJudge (hgDie g) led

/-- SlotEnable 1: nothing runs while HG_CTRL.EN is 0. -/
def Dev.hgEnableObj (d : Dev) (g : Nat) : WRes :=
  if d.hgReserved g then d.no 0x0301 else if d.bit (Reg.HG_CTRL (hgDie g)) 0 then (d.hgEnable g).yes else d.no 0x0401

def Dev.hgDisableAll (d : Dev) (i : Nat) : Dev :=
  let d := (dieSlots i).foldl (fun (d : Dev) g => d.hgDisable g 2) d
  d.setBit (Reg.HG_CTRL i) 0 false

/-- A slot whose TARGET another enabled slot writes (R256). -/
def Dev.hgTargeted (d : Dev) (g : Nat) : Bool :=
  (dieSlots (hgDie g)).any (fun x => d.hgOn x && d.hgLeads x && d.hgTargetOf x == some (5, hgSlot g))

end Sys2Proof.Machine
end

