-- ==== Sys2Proof/Machine/Hinge.lean ====
section
/-! DEFINITION. The meanings of the Hinge commands (R243 to R259). -/
namespace Sys2Proof.Machine

/-- A slot on a timer starts the conversion of its analog input at its sample instant, which its group's leader gives (R243, R253): such a
trigger of the last 10 µs reaches the input. Those of a line reach it with the pulse (`Dev.linePulse`). -/
def Dev.hgTimerTrigger (d : Dev) (n : Nat) : Dev :=
  (dieSlots (aiDie n)).foldl (fun (d : Dev) g =>
    let lead := (d.hgMembers g).headD g
    let per := d.hgCtrl lead 16 0 * 1000
    let t0 := d.now / per * per
    if d.hgOn g && d.hgCtrl lead 27 26 == 1 && d.hgRoute g 23 20 == n % 8 + 1 && decide (d.now ≤ t0 + 10000)
        && decide ((d.hgOf g).since < t0 + 1) && decide ((d.hgOf lead).since < t0 + 1) then
      d.aiTrigger n t0
    else d) d

/-- A write of a slot's EN bit from 0 to 1 through its register; HG_CTRL.EN 0 keeps it 0 (DESIGN CHOICE: R259 only says that it disables
every slot). -/
def Dev.hgEnableReg (d : Dev) (m g : Nat) : Dev :=
  if d.hgCtrl g 31 31 = 1 then d
  else if d.hgReserved g then d.reject m (hgReg Reg.HG_SCTRL g)
  else if d.bit (Reg.HG_CTRL (hgDie g)) 0 then d.hgEnable g
  else d

def execAiTriggeredConversion (t n : Nat) (s : State) : Host.Outcome State Fault Refusal :=
  s.put (((s.dev.advance t).hgTimerTrigger n).aiTrigStart n)

def execHingeSample (t g : Nat) (s : State) : Host.Outcome State Fault Refusal := s.put ((s.dev.advance t).hgSample g)

def execHingeCommit (t : Nat) (via : Via) (g : Nat) (s : State) : Host.Outcome State Fault Refusal :=
  match via with
  | .reg m => s.put ((s.dev.advance t).byMaster m (Reg.HG_COMMIT_REG (hgDie g)) true (fun d => d.hgCommitReg m g))
  | .dict r => s.put ((s.dev.advance t).dictVal r (0x5010 + g) 0x2C 1 1 (fun d => d.hgCommitObj g))

def execHingeSlotEnable (t : Nat) (via : Via) (g : Nat) (s : State) : Host.Outcome State Fault Refusal :=
  match via with
  | .reg m => s.put ((s.dev.advance t).byMaster m (hgReg Reg.HG_SCTRL g) true (fun d => d.hgEnableReg m g))
  | .dict r => s.put ((s.dev.advance t).dictVal r (0x5010 + g) 1 1 1 (fun d =>
      if d.hgCtrl g 31 31 = 1 then d.yes else d.hgEnableObj g))

def execHingeSlotDisable (t : Nat) (via : Via) (g : Nat) (s : State) : Host.Outcome State Fault Refusal :=
  match via with
  | .reg m => s.put ((s.dev.advance t).byMaster m (hgReg Reg.HG_SCTRL g) true (fun d => d.hgDisable g 1))
  | .dict r => s.put ((s.dev.advance t).dictVal r (0x5010 + g) 1 1 0 (fun d => (d.hgDisable g 1).yes))

def execHingeDisableAll (t : Nat) (via : Via) (die : Nat) (s : State) : Host.Outcome State Fault Refusal :=
  match via with
  | .reg m => s.put ((s.dev.advance t).byMaster m (Reg.HG_CTRL die) true (fun d => d.hgDisableAll die))
  | .dict r => s.put ((s.dev.advance t).dictVal r 0x5000 (die + 1) 1 0 (fun d => (d.hgDisableAll die).yes))

end Sys2Proof.Machine
end

