-- ==== Sys2Proof/Machine/Sill.lean ====
section
/-! DEFINITION. Sill links: bring-up, polling, loss and status (R297 to R314). Dot frames are built at the frame start. -/
namespace Sys2Proof.Machine

/-- SL_TSTAT and TileSerial follow a tile. -/
def Dev.fixTile (d : Dev) (n t : Nat) : Dev :=
  let x := d.tile n t
  let d := d.wr (Reg.SL_TSTAT n t) (wd (x.dots * 65536 + x.flags % 256 * 256 + 2 * b2n x.swapped + b2n (x.present && !x.lost)))
  d.setOb (Obj.TileSerial n t) x.serial

def Dev.linkState (d : Dev) (n : Nat) : Nat := d.f (Reg.SL_STATUS n) 2 0
def Dev.setLinkState (d : Dev) (n st : Nat) : Dev := d.setF (Reg.SL_STATUS n) 2 0 st

/-- Enumerate goes out with next address 0 (R299). -/
def Dev.sillEnumerate (d : Dev) (n : Nat) : Dev :=
  let l := d.link n
  let d := d.setLink n { l with answers := 0, lastIdentAt := d.now, polled := none, reenumAt := d.now }
  (d.setLinkState n 2).sillSend n 0x04 0 (leBytes 0 1)

/-- The committed ons of a tile that is lost or SWAPPED are undeliverable; the first of an episode is recorded (R304, R311). -/
def Dev.dotsUndeliverable (d : Dev) (n t : Nat) : Dev :=
  let now := d.now
  let gone (q : QEntry) : Bool := q.committed && q.action != 0 && !q.undeliv && d.qClass q == 4 && d.qOut q / 1024 == 16 * n + t
    && decide (now < q.fireFt)
  let k := (d.shq.queue.filter gone).length
  if k = 0 then d
  else
    let l := d.link n
    let ov := Reg.SL_OVF n
    let d := d.setQueue (d.shq.queue.map (fun q => if gone q then { q with undeliv := true } else q))
    let d := (d.setF ov 31 16 (d.f ov 31 16 + k)).setBit (Reg.SL_STATUS n) 3 true
    if l.overflowing then d
    else ((d.setLink n { l with overflowing := true }).incOb (Obj.SillUndeliverable n)).event 0 0xC005 [.h n, .w 0, .w k]

/-- A tile is lost, and every tile behind it (R308). -/
def Dev.loseTile (d : Dev) (n t : Nat) : Dev :=
  let x := d.tile n t
  if x.present && !x.lost then
    let d := ((d.setTile n t { x with lost := true, missed := 0 }).dotsClosed n (fun j => j == t) none |>.fixTile n t).event 0 0xC002 [.h n, .h t]
    d.dotsUndeliverable n t
  else d

def Dev.loseFrom (d : Dev) (n t : Nat) : Dev := ((List.range 16).filter (fun j => decide (t ≤ j))).foldl (fun d j => d.loseTile n j) d

/-- 0xC001 at a change between running and lost: 1 running, 2 lost. A re-enumeration of a link that was not lost is no change. -/
def Dev.linkNote (d : Dev) (n : Nat) (up : Bool) : Dev :=
  let l := d.link n
  if l.ran = up then d else (d.setLink n { l with ran := up }).event 0 0xC001 [.h n, .h (if up then 1 else 2)]

/-- The link is lost: every tile with it. A link that has not locked yet has nothing to lose. -/
def Dev.loseLink (d : Dev) (n : Nat) : Dev :=
  if d.linkState n ≠ 2 ∧ d.linkState n ≠ 3 then d
  else
    let l := d.link n
    let d := d.setLink n { l with polled := none, badFrames := 0, reenumAt := d.now }
    let d := ((d.loseFrom n 0).setLinkState n 4).incOb (Obj.SillLinkLossCount n)
    d.linkNote n false

/-- A frame with a bad Crc on UP; the third in a row loses the link. -/
def Dev.badUp (d : Dev) (n : Nat) : Dev :=
  let l := d.link n
  let d := (d.incF (Reg.SL_ERR n) 15 0).setLink n { l with badFrames := l.badFrames + 1 }
  if 3 ≤ l.badFrames + 1 then d.loseLink n else d

def Dev.goodUp (d : Dev) (n : Nat) : Dev :=
  let l := d.link n
  d.setLink n { l with badFrames := 0 }

/-- SillEnable, or SL_CTRL.EN: commas start, or the link goes down. -/
def Dev.sillEnable (d : Dev) (n : Nat) (on : Bool) : Dev :=
  let was := d.bit (Reg.SL_CTRL n) 31
  let d := d.setBit (Reg.SL_CTRL n) 31 on
  if on && !was then d.setLinkState n 1
  else if !on && was then
    ((d.loseFrom n 0).setLinkState n 0).linkNote n false
  else d

/-- An Identity frame: the tile of the next position (R299, R310). -/
def Dev.identity (d : Dev) (n : Nat) (b : List Byte) : Dev :=
  let l := d.link n
  let t := l.answers
  if d.linkState n ≠ 2 ∨ 16 ≤ t then d
  else
    let serial := leAt b 6 4
    let dots := leAt b 10 2
    let d := d.setLink n { l with answers := t + 1, lastIdentAt := d.now }
    let x := d.tile n t
    let used := decide (1 ≤ dots) && decide (dots ≤ 1024)
    let swapped := x.swapped || (match x.firstSerial with | some s => s != serial | none => false)
    let back := used && !(x.present && !x.lost)
    let y := { x with
      present := used, lost := false, tileType := leAt b 4 2, serial := serial, firstSerial := some (x.firstSerial.getD serial)
      swapped := swapped, dots := if used then dots else 0, caps := byteAt b 12, driveDelay := leAt b 13 2, missed := 0 }
    let d := (d.setTile n t y).fixTile n t
    let d := if back then d.event 0 0xC002 [.h n, .h t] else d
    let d := if !used || swapped then d.dotsUndeliverable n t else d
    if !used || (swapped && !x.swapped) then d.event 0 0xC003 [.h n, .h t, .w serial] else d

/-- The enumeration ends 50 µs after its last answer. Each tile is polled, and its round trip, an entry of `rts`, gives its Offset; one whose
answer does not come has missed a Poll and gets no Configure frame (R299). -/
def Dev.enumDone (d : Dev) (n : Nat) (rts : List Nat) : Dev :=
  let l := d.link n
  if d.linkState n = 2 ∧ l.lastIdentAt + 50000 ≤ d.now then
    let d := d.setF (Reg.SL_STATUS n) 12 8 l.answers
    let d := d.loseFrom n l.answers
    let d := (List.range l.answers).foldl (fun (d : Dev) t =>
      let x := d.tile n t
      let d := d.sillSend n 0x06 t []
      match rts[t]? with
      | none => d.setTile n t { x with missed := x.missed + 1 }
      | some rt =>
        let off := (rt - 1000) / 2
        let d := (d.setTile n t { x with offset := off }).wr (Reg.SL_TOFF n t) (wd off)
        d.sillSend n 0x05 t (leBytes off 4 ++ leBytes (d.f (Reg.SL_CTRL n) 13 8) 1)) d
    (d.setLinkState n 3).linkNote n true
  else d

/-- A Time frame on every enabled link, at a whole millisecond of FT (R298). -/
def Dev.sillTime (d : Dev) : Dev :=
  if d.fabricOn && decide (d.now % 1000000 = 0) then
    (List.range 16).foldl (fun (d : Dev) n =>
      if d.bit (Reg.SL_CTRL n) 31 then d.sillSend n 0x01 sillAll (leBytes d.now 8 ++ leBytes d.ftClass 1) else d) d
  else d

/-- The tile polled after tile `t`: the next one that answers. -/
def Dev.nextPoll (d : Dev) (n t : Nat) : Option Nat :=
  let ok (j : Nat) : Bool := (d.tile n j).present && !(d.tile n j).lost
  (((List.range 16).map (fun j => (t + j) % 16)).filter ok).head?

def Dev.sillPoll (d : Dev) (n : Nat) : Dev :=
  let l := d.link n
  if d.linkRunning n && l.polled.isNone && decide (l.lastPollAt + d.f (Reg.SL_CTRL n) 7 0 * 50000 ≤ d.now) then
    match d.nextPoll n l.pollNext with
    | none => d
    | some t => (d.setLink n { l with polled := some t, pollNext := (t + 1) % 16, lastPollAt := d.now }).sillSend n 0x06 t []
  else d

/-- A 48-bit FT extended to the instant nearest to now. -/
def extend48 (now low : Nat) : Nat :=
  let m := 2 ^ 48
  let base := now / m * m + low % m
  if base + m / 2 < now then base + m else if now + m / 2 < base ∧ m ≤ base then base - m else base

/-- A measured instant of a dot reaches the action it belongs to. Its confidence is open. -/
def Dev.dotMeasured (d : Dev) (n t : Nat) (x : Nat × Bool × Nat) : Dev :=
  match d.boundTo 4 (16384 * n + 1024 * t + x.1 % 1024) with
  | none => d
  | some id => (d.bump).measure id (extend48 d.now x.2.2) (!x.2.1) (fbit (Config.freeWord d.fresh) 0) false none

/-- A Status payload (R309): the frame's bytes from its Kind on. -/
def tileReport (b : List Byte) : TileReport :=
  { flags := byteAt b 4, temperature := sx 8 (byteAt b 5), lastSeq := leAt b 6 2, late := leAt b 8 2, crcErrors := leAt b 10 2
    faults := leAt b 12 128
    meas := (List.range (byteAt b 140)).map (fun i =>
      let w := leAt b (144 + 8 * i) 2
      (w % 1024, w.testBit 15, leAt b (146 + 8 * i) 6)) }

/-- The Status answer of the polled tile (R309). A tile fault is its TILE_FAULT, a dot fault a bit of DotFault: DEDUCED. -/
def Dev.sillStatus (d : Dev) (n : Nat) (st : TileReport) : Dev :=
  let l := d.link n
  match l.polled with
  | none => d
  | some t =>
    if !d.linkRunning n || decide (128 < st.meas.length) then d
    else
      let key := st.flags % 2 + 2 * st.faults
      let seen := SMap.get (fun _ => 0) l.faultSeen t
      let begins := decide (key &&& seen ≠ key)
      let d := d.setLink n { l with polled := none, faultSeen := SMap.set (fun _ => 0) l.faultSeen t key }
      let x := d.tile n t
      let y := { x with
        missed := 0, flags := st.flags % 256, temperature := st.temperature, lastSeq := st.lastSeq, lateEvents := st.late
        crcErrors := st.crcErrors, dotFaults := st.faults }
      let d := (d.setTile n t y).fixTile n t
      let d := if begins then d.event 0 0xC004 [.h n, .h t, .h (st.flags % 256)] else d
      if bitOf x.caps 0 then st.meas.foldl (fun d m => d.dotMeasured n t m) d else d

/-! ## Frames on UP (R296, R297) -/

/-- A frame between K27.7 and K29.7: Kind, Address, Length, payload, Crc. -/
def sillCrcOk (b : List Byte) : Bool :=
  let n := leAt b 2 2
  decide (n ≤ 4108) && b.length == n + 6 && crc16 (b.take (4 + n)) == leAt b (4 + n) 2

/-- Symbol errors on UP (R310). -/
def Dev.symErrors (d : Dev) (n k : Nat) : Dev :=
  let r := Reg.SL_ERR n
  d.setF r 31 16 (d.f r 31 16 + k)

/-- A frame on UP. One of another kind, or whose Length is not its kind's, is discarded and counted with those of bad Crc, but it is no
such frame for R308: DESIGN CHOICE. -/
def Dev.sillUp (d : Dev) (n sym : Nat) (b : List Byte) : Dev :=
  if !d.bit (Reg.SL_CTRL n) 31 || decide (16 ≤ n) then d
  else
    let d := d.symErrors n sym
    if !sillCrcOk b then d.badUp n
    else
      let d := d.goodUp n
      if byteAt b 0 = 0x82 ∧ leAt b 2 2 = 11 then d.identity n b
      else if byteAt b 0 = 0x86 ∧ leAt b 2 2 = 140 + 8 * byteAt b 140 then d.sillStatus n (tileReport b)
      else d.incF (Reg.SL_ERR n) 15 0

/-- The link is lost in the fabric cycle of an answer, which is then discarded (R311). -/
def lossWaits (waiting : List Instr) (t n : Nat) : Bool :=
  waiting.any (fun i => match i with
    | .sillLinkLoss t2 n2 _ => decide (cycleOf t2 = cycleOf t) && n2 == n
    | _ => false)

/-- A Poll unanswered for 50 µs; the third in a row loses the tile, on tile 0 the link (R308). -/
def Dev.pollMissed (d : Dev) (n : Nat) : Dev :=
  let l := d.link n
  match l.polled with
  | none => d
  | some t =>
    if l.lastPollAt + 50000 ≤ d.now then
      let d := d.setLink n { l with polled := none }
      let x := d.tile n t
      let k := x.missed + 1
      let d := d.setTile n t { x with missed := k }
      if k < 3 then d
      else if t = 0 then d.loseLink n
      else
        let l := d.link n
        (d.setLink n { l with reenumAt := d.now }).loseFrom n t
    else d

def Dev.anyLost (d : Dev) (n : Nat) : Bool := (List.range 16).any (fun t => (d.tile n t).lost)

/-- While a tile is lost, a new enumeration every second; a lost link locks again first. -/
def Dev.reenumTimer (d : Dev) (n : Nat) : Dev :=
  let l := d.link n
  if d.bit (Reg.SL_CTRL n) 31 && (d.anyLost n || decide (d.linkState n = 4)) && decide (l.reenumAt + 1000000000 ≤ d.now) then
    if d.linkState n = 4 then (d.setLink n { l with reenumAt := d.now }).setLinkState n 1
    else if d.linkState n = 3 then d.sillEnumerate n
    else d.setLink n { l with reenumAt := d.now }
  else d

/-- SillReenumerate: the present serials are accepted, and the link enumerates again (R299). -/
def Dev.reenumerate (d : Dev) (n : Nat) : Dev :=
  let d := (List.range 16).foldl (fun (d : Dev) t =>
    let x := d.tile n t
    if x.swapped then (d.setTile n t { x with swapped := false, firstSerial := some x.serial }).fixTile n t else d) d
  if d.linkState n = 2 ∨ d.linkState n = 3 then d.sillEnumerate n else d

/-! ## Meanings -/

def execSillEnable (t : Nat) (via : Via) (n : Nat) (s : State) : Host.Outcome State Fault Refusal :=
  match via with
  | .reg m => s.put ((s.dev.advance t).byMaster m (Reg.SL_CTRL n) true (fun d => d.sillEnable n true))
  | .dict r => s.put ((s.dev.advance t).dictVal r 0x4300 (n + 1) 1 1 (fun d =>
      if d.inField then d.no 0x0401 else (d.sillEnable n true).yes))

def execSillSymbolLock (t n : Nat) (s : State) : Host.Outcome State Fault Refusal :=
  s.put (let d := s.dev.advance t
    if d.linkState n = 1 then d.sillEnumerate n else d)

def execSillIdentityRx (t n sym : Nat) (b : List Byte) (s : State) : Host.Outcome State Fault Refusal :=
  s.put ((s.dev.advance t).sillUp n sym b)
def execSillEnumComplete (t n : Nat) (rts : List Nat) (s : State) : Host.Outcome State Fault Refusal :=
  s.put ((s.dev.advance t).enumDone n rts)
def execSillTimeFrame (t : Nat) (s : State) : Host.Outcome State Fault Refusal := s.put (s.dev.advance t).sillTime
def execSillPoll (t n : Nat) (s : State) : Host.Outcome State Fault Refusal := s.put ((s.dev.advance t).sillPoll n)
def execSillStatusRx (t n sym : Nat) (b : List Byte) (s : State) : Host.Outcome State Fault Refusal :=
  let d := s.dev.advance t
  s.put (if lossWaits s.pending t n then d else d.sillUp n sym b)
def execSillPollTimeout (t n : Nat) (s : State) : Host.Outcome State Fault Refusal := s.put ((s.dev.advance t).pollMissed n)
def execSillLinkLoss (t n sym : Nat) (s : State) : Host.Outcome State Fault Refusal :=
  s.put (((s.dev.advance t).symErrors n sym).loseLink n)
def execSillReenumTimer (t n : Nat) (s : State) : Host.Outcome State Fault Refusal := s.put ((s.dev.advance t).reenumTimer n)

def execSillReenumerate (t : Nat) (via : Via) (n : Nat) (s : State) : Host.Outcome State Fault Refusal :=
  match via with
  | .reg m => s.put ((s.dev.advance t).byMaster m (Reg.SL_CTRL n) true (fun d => if d.serviceOpen then d.reenumerate n else d))
  | .dict r => s.put ((s.dev.advance t).dictVal r 0x4305 (n + 1) 1 1 (fun d => (d.reenumerate n).yes))

end Sys2Proof.Machine
end

