-- ==== Sys2Proof/Machine/IbOps.lean ====
section
/-! DEFINITION. The implement buses in running: windows, sending, silence, nodes' reports and status, firmware frames
(R321 to R335). -/
namespace Sys2Proof.Machine

/-! ## Rounds and windows (R321 to R323) -/

/-- Start and end of window `j` of the round that starts at `s`. -/
def windowSpan (s j : Nat) : Nat × Nat := (s + 250000 * j + 25000, s + 250000 * j + 225000)
def Dev.openSpan (d : Dev) (s : Nat) : Nat × Nat := (s + d.roundNs - d.openNs, s + d.roundNs - 25000)

def Dev.roundAt (d : Dev) (t : Nat) : Nat := t / d.roundNs * d.roundNs

/-- The condition of R323: age × drift bound below 12.5 µs, class 0, 1 or 2. -/
def Dev.windowsOk (d : Dev) : Bool :=
  match d.syncAge with
  | none => false
  | some a => decide (a * d.ob Obj.FtDriftBound < 12500 * 1000000000) && decide (d.ftClass ≤ 2)

/-- At a round start: the condition is tested, and the windows usable in this round follow (R323, R33). -/
def Dev.roundWindows (d : Dev) (p : Nat) : Dev :=
  if d.ibEnabled p then
    let ok := d.windowsOk
    let was := d.bit (Reg.IB_STATUS p) 4
    let d := d.setBit (Reg.IB_STATUS p) 4 ok
    let d := if ok = was then d else d.event 0 0x7004 [.h p, .w ((d.syncAge.getD 0xFFFFFFFFFFFFFFFF) / 1000000)]
    let map := if ok && !d.ib.dupNumber then d.windowsOf p (d.ob Obj.PackageNumber) else 0
    (d.wr (Reg.IB_WIN_LO p) (wd map)).wr (Reg.IB_WIN_HI p) (wd (map / 2 ^ 32))
  else d

/-- Offs not yet reported, and epochs not yet adopted, are sent again (R140, R180). -/
def Dev.roundRepeats (d : Dev) : Dev :=
  let now := d.now
  let d : Dev := { d with ib := { d.ib with offs := d.ib.offs.filter (fun o => decide (now < o.fireFt + 100000000)) } }
  let waiting := d.pair.batch.map (fun x => x.handle)
  let d := d.ib.offs.foldl (fun (d : Dev) o => if waiting.contains o.handle then d else d.schedNow o 0 none) d
  d.ib.nodes.foldl (fun (d : Dev) n =>
    n.adopt.foldl (fun (d : Dev) a => d.nodeEpochSet (n.port * 4096 + n.node * 64 + a.1) a.2) d) d

/-! ## Silence in force (R328) -/

def Dev.silenceNote (d : Dev) : Dev :=
  (List.range 4).foldl (fun (d : Dev) p =>
    if d.ibEnabled p then d.event 0 0x7007 [.h p, .q d.ib.silenceUntil] else d) d

def Dev.setSilenced (d : Dev) (on : Bool) : Dev :=
  (List.range 4).foldl (fun (d : Dev) p => d.setBit (Reg.IB_STATUS p) 5 on) { d with ib := { d.ib with silenced := on } }

/-- A silence whose UntilFt has passed ends. -/
def Dev.silenceEnd (d : Dev) : Dev :=
  if d.ib.silenced && decide (d.ib.silenceUntil ≤ d.now) then (d.setSilenced false).silenceNote else d

/-! ## Sending (R322, R335) -/

/-- Worst-case duration of a frame in ns (R322). -/
def frameNs (n : Nat) : Nat :=
  if n ≤ 8 then 80000 else if n ≤ 12 then 90000 else if n ≤ 16 then 95000 else if n ≤ 20 then 105000
  else if n ≤ 24 then 115000 else if n ≤ 32 then 130000 else if n ≤ 48 then 160000 else 195000

/-- A frame of this length may start now: in a window usable in this round, or in the open window, and ending within it. While another
package sends under this one's number only the open window is left (R33). -/
def Dev.fitsWindow (d : Dev) (p n : Nat) : Bool :=
  let s := d.roundAt d.now
  let e := d.now + frameNs n
  let usable := (d.rd (Reg.IB_WIN_LO p)).toNat + 2 ^ 32 * (d.rd (Reg.IB_WIN_HI p)).toNat
  let o := d.openSpan s
  (decide (o.1 ≤ d.now) && decide (e ≤ o.2)) ||
    (List.range 64).any (fun j =>
      bitOf usable j && !d.ib.dupNumber && decide ((windowSpan s j).1 ≤ d.now) && decide (e ≤ (windowSpan s j).2))

/-- The frame of lowest priority number, in order of writing within one (R335). -/
def firstTx (port : Nat) (tx : List TxFrame) : Option TxFrame :=
  let mine := tx.filter (fun f => f.port == port)
  ((List.range 8).filterMap (fun p => mine.find? (fun f => f.prio == p))).head?

/-- A node of a port whose last status shows it without configuration (R333). -/
def Dev.nodeBare (d : Dev) (port node : Nat) : Bool :=
  match d.ibNode port node with | some n => n.heard && !bitOf n.flags 3 | none => false

/-- An epoch-set frame carries the epoch of a schedule's entry to its endpoint (R140, R329). -/
def sameEpoch (set sched : TxFrame) : Bool :=
  byteAt set.data 4 == byteAt sched.data 4 && leAt set.data 6 2 == leAt sched.data 6 2

/-- The frame that a port would send next (R335). A schedule lets the configure of its node go first (R340), and the epoch-set of its own
epoch (R140); a node without configuration gets configure, then every epoch, then schedules (R333). -/
def Dev.nextTx (d : Dev) (port : Nat) : Option TxFrame :=
  match firstTx port d.ib.tx with
  | none => none
  | some f =>
    let first (p : TxFrame → Bool) : Option TxFrame := d.ib.tx.find? (fun g => g.port == port && g.stream == f.stream && p g)
    let bare := d.nodeBare port f.stream
    if f.fn = 0x08 then
      some (((first (fun g => g.fn == 0x0B)).orElse (fun _ => first (fun g => g.fn == 0x0A && (bare || sameEpoch g f)))).getD f)
    else if f.fn = 0x0A ∧ bare then some ((first (fun g => g.fn == 0x0B)).getD f)
    else some f

/-- A queue entry whose schedule has left the port. -/
def Dev.markSent (d : Dev) (refs : List (Nat × Nat)) : Dev :=
  d.setQueue (d.shq.queue.map (fun (q : QEntry) =>
    if refs.contains (q.engine, q.handle) then { q with sent := true } else q))

/-- A frame may start on a port now: no frame that the port sends is still under way (R322); priority 0 at any time, others within windows
and not during silence. While another package sends under this one's number, only an all-close, which windows do not bind (R327), starts
outside the open window (R33). -/
def Dev.mayStart (d : Dev) (p : Nat) (f : TxFrame) : Bool :=
  decide (SMap.get (fun _ => 0) d.ib.sendEnd p ≤ d.now + 1)
    && (if f.prio = 0 then f.fn == 0 || !d.ib.dupNumber || d.fitsWindow p f.data.length
      else !d.ib.silenced && d.fitsWindow p f.data.length)

/-- A frame as it leaves: an all-close holds until 5 ms from now (R327). -/
def Dev.leaving (d : Dev) (f : TxFrame) : TxFrame :=
  if f.prio = 0 ∧ f.fn = 0 then { f with data := leBytes d.holdNow 8 ++ f.data.drop 8 } else f

/-- A port starts its next frame where it may; the frame occupies the bus for its worst-case duration. -/
def Dev.frameSend (d : Dev) (p : Nat) : Dev :=
  if !d.fabricOn || !d.ibEnabled p || d.f (Reg.IB_STATUS p) 3 2 == 2 then d
  else
    let d := d.silenceEnd
    match d.nextTx p with
    | none => d
    | some g =>
      if !d.mayStart p g then d
      else
        let f := d.leaving g
        let d : Dev := { d with ib := { d.ib with
          tx := d.ib.tx.eraseP (fun x => x == g)
          sendEnd := SMap.set (fun _ => 0) d.ib.sendEnd p (d.now + frameNs f.data.length + 1)
          holdUntil := if f.prio = 0 ∧ f.fn = 0 then d.holdNow else d.ib.holdUntil } }
        let d := d.markSent f.entries
        let d : Dev := if f.on then
            { d with shq := { d.shq with undel := d.shq.undel.filter (fun x => !(x.1 == p && x.2 == f.stream)) } } else d
        let d : Dev := if f.fn = 1 ∧ f.prio = 0 then
            { d with tmst := { d.tmst with txPrev := SMap.ins d.tmst.txPrev p d.now } } else d
        d.emit .ib p (ibIdent f.prio f.fn f.node f.stream) (natsOf f.data)

/-- IB_TX_RESULT of the writing master. -/
def Dev.txResult (d : Dev) (m p c : Nat) : Dev := d.wrM m (Reg.IB_TX_RESULT p) (wd (2 ^ 31 + c))

/-- IB_TX_CMD: a firmware frame is queued, or refused by length, guardian or a full queue (R335). -/
def Dev.ibTxCmd (d : Dev) (m p : Nat) : Dev :=
  let id := (d.rdM m (Reg.IB_TX_ID p)).toNat
  let n := d.fM m (Reg.IB_TX_LEN p) 6 0
  let prio := bitsOf id 28 26
  let fn := bitsOf id 25 20
  if 64 < n then d.txResult m p 3
  else if prio = 0 ∨ fn < 0x30 ∨ bitsOf id 19 6 ≠ d.ob Obj.PackageNumber then
    (d.setBit (Reg.IB_STATUS p) 30 true).txResult m p 2
  else
    let bytes := ((List.range 16).flatMap (fun i => leBytes (d.rdM m (Reg.IB_TX_DATA p i)).toNat 4)).take n
    let x := d.ibPush
      { port := p, prio := prio, fn := fn, stream := bitsOf id 5 0, data := fdPad bytes, entries := [], node := 0, on := false }
    x.1.txResult m p (if x.2 then 0 else 1)

/-- A change of a port's error state (R315). -/
def Dev.ibErrorState (d : Dev) (p st tec rec : Nat) : Dev :=
  let was := d.f (Reg.IB_STATUS p) 3 2
  let d := (d.setF (Reg.IB_ERR p) 7 0 tec).setF (Reg.IB_ERR p) 15 8 rec
  if st = was ∨ 2 < st then d
  else
    let d := d.setF (Reg.IB_STATUS p) 3 2 st
    let d := if st = 2 then d.incF (Reg.IB_ERR p) 31 16 else d
    d.event 0 0x7001 [.h p, .h st]

/-! ## Silence (R328) -/

/-- A silence is in force until an FT; one whose UntilFt has passed already changes nothing (DEDUCED). -/
def Dev.silenceTo (d : Dev) (until_ : Nat) : Dev :=
  let d := d.silenceEnd
  if until_ ≤ d.now then d
  else
    let was := d.ib.silenced
    let d : Dev := { d with ib := { d.ib with silenceUntil := until_ } }
    if was then d else (d.setSilenced true).silenceNote

/-- IbSilence: the time master sends the frame on every enabled bus and keeps it itself. -/
def Dev.writeSilence (d : Dev) (v : Nat) : WRes :=
  let own := d.ob Obj.PackageNumber
  if d.now + 1000000000 < v then d.no 0x0301
  else if d.tmst.master ≠ own ∨ own = 0 then d.no 0x0401
  else
    let d := (List.range 4).foldl (fun (d : Dev) p =>
      if d.ibEnabled p then
        let (d, s) := d.ibSeq p 2 0
        let data := leBytes s 2 ++ leBytes 0 2 ++ leBytes v 8 ++ leBytes d.epochCheck 2 ++ leBytes 0 2
        (d.ibPush { port := p, prio := 0, fn := 2, stream := 0, data := data, entries := [], node := 0, on := false }).1
      else d) d
    (d.silenceTo v).yes

/-- A priority-0 frame that the guardian refuses: 0x7006 with the count since the last record, at most once per second. Where the
guardian enforces, it drives the frame off the bus (R326, R328). -/
def Dev.guardRefuse (d : Dev) (p sender : Nat) : Dev :=
  let n := SMap.get (fun _ => 0) d.ib.refSince p + 1
  let d : Dev := { d with ib := { d.ib with refSince := SMap.set (fun _ => 0) d.ib.refSince p n } }
  let before := d.rcd.evLast
  let d := d.eventEvery 1000000000 0 0x7006 p [.h p, .w sender, .w n]
  let d : Dev := if d.rcd.evLast = before then d else { d with ib := { d.ib with refSince := SMap.set (fun _ => 0) d.ib.refSince p 0 } }
  if d.bit (Reg.IB_CTRL p) 29 then d.emit .ib p 0x20000000 [] else d

def Dev.silenceRx (d : Dev) (p sender v : Nat) : Dev :=
  if !d.fabricOn then d
  else if sender ≠ d.tmst.master ∨ sender = 0 then d.guardRefuse p sender
  else if d.now + 1000000000 < v then d
  else d.silenceTo v

/-! ## Sequence numbers (R319, R320) -/

/-- What becomes of a number: the stream's new state, and 0 accepted, 1 duplicate, 2 too old, 3 accepted as a reset. -/
def IbStream.judge (x : IbStream) (s now : Nat) : IbStream × Nat :=
  let dd := (s + 65536 - x.highest % 65536) % 65536
  let back := 65536 - dd
  if dd = 0 then (x, 1)
  else if dd ≤ 32767 then ({ x with highest := s, seen := (x.seen * 2 ^ (min dd 64) + 1) % 2 ^ 64 }, 0)
  else if 65473 ≤ dd then
    if bitOf x.seen back then (x, 1) else ({ x with seen := putBits x.seen back back 1 }, 0)
  else
    let old := now :: x.old.take 7
    if 8 ≤ old.length ∧ now < old.getLastD now + 1000000000 then ({ x with highest := s, seen := 1, old := [] }, 3)
    else ({ x with old := old }, 2)

/-- The first frame of a stream (R319). -/
def IbStream.first (p who fn stream s : Nat) : IbStream :=
  { port := p, sender := who, fn := fn, stream := stream, highest := s, seen := 1, old := [] }

/-- Counts a judged number; answers whether its frame goes on. -/
def Dev.seqCount (d : Dev) (p who fn outcome : Nat) : Dev × Bool :=
  match outcome with
  | 0 => (d, true)
  | 1 => (d.addOb (Obj.IbDuplicates p) 1, false)
  | 2 => (d.addOb (Obj.IbTooOld p) 1, false)
  | _ => ((d.addOb (Obj.IbTooOld p) 1).event 0 0x700A [.h p, .w who, .h fn], true)

/-- Judges a frame's Seq; answers whether it goes on. -/
def Dev.seqJudge (d : Dev) (p who fn stream s : Nat) : Dev × Bool :=
  let same (x : IbStream) : Bool := x.port == p && x.sender == who && x.fn == fn && x.stream == stream
  let put (d : Dev) (x : IbStream) : Dev :=
    { d with ib := { d.ib with streams := x :: d.ib.streams.filter (fun y => !same y) } }
  match d.ib.streams.find? same with
  | none => (put d (IbStream.first p who fn stream s), true)
  | some x =>
    let q := x.judge s d.now
    (put d q.1).seqCount p who fn q.2

/-- A frame of a node that begins with a Seq goes on where its number is taken. -/
def Dev.nodeSeq (d : Dev) (p node fn : Nat) (data : List Byte) (f : Dev → Dev) : Dev :=
  if !d.fabricOn then d
  else
    let q := d.seqJudge p (0x3E00 + node) fn 0 (leAt data 0 2)
    if q.2 then f q.1 else q.1

/-! ## Nodes (R325, R330, R331, R333) -/

/-- The endpoint bound to a node's output, with its place. -/
def Dev.nodeEndpoint (d : Dev) (p node ep : Nat) : Option (Nat × Nat × Nat) :=
  match d.boundTo 3 (p * 4096 + node * 64 + ep) with
  | none => none
  | some id => match d.ownerOf id with
    | some (e, s) => some (id, e, s)
    | none => none

/-- One entry of a node report. -/
def Dev.nodeReport (d : Dev) (p node : Nat) (b : List Byte) : Dev :=
  let ep := byteAt b 0 % 64
  let kf := byteAt b 1
  let epoch := leAt b 2 2
  let handle := leAt b 4 2
  let out := p * 4096 + node * 64 + ep
  match d.nodeEndpoint p node ep with
  | none => d
  | some (id, e, s) =>
    let own := d.epEpoch e s
    match kf % 4 with
    | 0 => if epochMatches own epoch then d.offDone out handle else d.staleSeen e s epoch
    | 1 =>
      if epochMatches own epoch then
        (d.offDone out handle).measure id (leAt b 8 8) (!bitOf kf 5) (bitOf kf 4) false (some handle)
      else d.staleSeen e s epoch
    | 2 =>
      d.withNode p node (fun (n : IbNode) => { n with adopt := n.adopt.filter (fun a => !(a.1 == ep && a.2 == epoch)) })
    | _ => if epochMatches own epoch then d.addOb (Obj.NodeRefusals p node) 1 else d.staleSeen e s epoch

/-- The entries of a node report frame. -/
def Dev.nodeReports (d : Dev) (p node : Nat) (data : List Byte) : Dev :=
  if d.fabricOn then
    (List.range (min 3 (byteAt data 2))).foldl (fun (d : Dev) i => d.nodeReport p node ((data.drop (4 + 16 * i)).take 16)) d
  else d

/-- The epochs of all endpoints of a node are sent (R333). -/
def Dev.nodeEpochs (d : Dev) (p node : Nat) : Dev :=
  (List.range 64).foldl (fun (d : Dev) ep =>
    match d.nodeEndpoint p node ep with
    | some (_, e, s) => d.nodeEpochSet (p * 4096 + node * 64 + ep) (d.epEpoch e s)
    | none => d) d

/-- A node status: the node is heard; a lost node is found, one without configuration gets it (R331, R333). -/
def Dev.nodeStatusRx (d : Dev) (p node : Nat) (data : List Byte) : Dev :=
  if !d.fabricOn then d
  else match d.ibNode p node with
  | none => d
  | some n =>
    if byteAt data 3 < 1 ∨ 64 < byteAt data 3 then d
    else
      let flags := byteAt data 2
      let was := d.nodeState p node
      let now := d.now
      let d := d.withNode p node (fun (n : IbNode) => { n with heardAt := now, heard := true, flags := flags, drift := leAt data 4 4 })
      let d :=
        if was = 3 then
          ((d.setNodeState p node (if n.before = 1 then 2 else n.before)).event 0 0x7005 [.h p, .h node]).nodeConfigure p node
        else if was = 1 then d.setNodeState p node 2
        else d
      if bitOf flags 3 then d else (d.nodeConfigure p node).nodeEpochs p node

/-- A class N on or level is discarded as undeliverable, with a cancel; its schedule leaves the port's queue (R180). -/
def Dev.undeliverable (d : Dev) (q : QEntry) : Dev :=
  let bus := bitsOf (d.qOut q) 13 12
  let node := bitsOf (d.qOut q) 11 6
  let d : Dev := { d with
    ib := { d.ib with tx := d.ib.tx.filter (fun f => !(f.on && f.entries.contains (q.engine, q.handle))) }
    pair := { d.pair with batch := d.pair.batch.filter (fun x => !(x.engine == q.engine && x.handle == q.handle && !x.cancel)) } }
  let d := (d.cancelIfNode q).dropEntry q 7
  if d.shq.undel.contains (bus, node) then d
  else Dev.event { d with shq := { d.shq with undel := (bus, node) :: d.shq.undel } } 0 0x302B [.h bus, .h node]

/-- A node not heard for NodeTimeout is lost: schedules that wait for it in the port's queue do not leave any more (R333). -/
def Dev.nodeTimeout (d : Dev) (p node : Nat) : Dev :=
  match d.ibNode p node with
  | none => d
  | some n =>
    if d.fabricOn && decide (d.nodeState p node ≠ 3) && decide (n.heardAt + d.ob Obj.NodeTimeout * 1000000 ≤ d.now) then
      let was := d.nodeState p node
      let d := d.withNode p node (fun (n : IbNode) => { n with before := was })
      let d := (d.setNodeState p node 3).event 0 0x7005 [.h p, .h node]
      let d : Dev := { d with ib := { d.ib with tx := d.ib.tx.filter (fun f => !(f.port == p && f.fn == 8 && f.stream == node)) } }
      (d.shq.queue.filter (fun q => q.action != 0 && d.qClass q == 3 && d.qOut q / 64 == p * 64 + node)).foldl Dev.undeliverable d
    else d

/-- Node configure once a second for each controlled node (R331). -/
def Dev.nodePeriodic (d : Dev) : Dev :=
  if d.fabricOn then
    d.ib.nodes.foldl (fun (d : Dev) n => if n.configAt + 1000000000 ≤ d.now then d.nodeConfigure n.port n.node else d) d
  else d

def Dev.roundNumber (d : Dev) : Nat := d.now / d.roundNs

/-- A node's windows come back after 1,000 rounds with no intrusion (R325). -/
def Dev.windowsRestore (d : Dev) (p node : Nat) : Dev :=
  match d.ibNode p node with
  | none => d
  | some n =>
    if d.fabricOn && n.removed && decide (n.removedAt + 1000 < d.roundNumber) then
      let d := d.withNode p node (fun (n : IbNode) => { n with removed := false, intrusions := [], before := if n.before = 4 then 2 else n.before })
      let d := if d.nodeState p node = 4 then d.setNodeState p node 2 else d
      (d.nodeConfigure p node).event 0 0x7003 [.h p, .h node]
    else d

/-- A receive object held for a package that has been silent for 60 s (R334). -/
def Dev.objRelease (d : Dev) (p o : Nat) : Dev :=
  { d with ib := { d.ib with objects := d.ib.objects.filter (fun x =>
      !(x.port == p && x.obj == o && !x.node && decide (x.heardAt + 60000000000 ≤ d.now))) } }

/-! ## Meanings -/

def execNodeWindowsRestore (t port node : Nat) (s : State) : Host.Outcome State Fault Refusal :=
  s.put ((s.dev.advance t).windowsRestore port node)
def execIbSilence (t : Nat) (r : Req) (v : Nat) (s : State) : Host.Outcome State Fault Refusal :=
  s.put ((s.dev.advance t).dictVal r 0x1306 1 8 v (fun d => d.writeSilence v))
def execIbSilenceRx (t port sender v : Nat) (s : State) : Host.Outcome State Fault Refusal :=
  s.put ((s.dev.advance t).silenceRx port sender v)
def execSilenceEnd (t : Nat) (s : State) : Host.Outcome State Fault Refusal := s.put (s.dev.advance t).silenceEnd
def execNodeReportRx (t port node : Nat) (data : List Byte) (s : State) : Host.Outcome State Fault Refusal :=
  s.put ((s.dev.advance t).nodeSeq port node 0x10 data (fun (d : Dev) => d.nodeReports port node data))
def execNodeStatusRx (t port node : Nat) (data : List Byte) (s : State) : Host.Outcome State Fault Refusal :=
  s.put ((s.dev.advance t).nodeSeq port node 0x11 data (fun (d : Dev) => d.nodeStatusRx port node data))
def execNodeTimeout (t port node : Nat) (s : State) : Host.Outcome State Fault Refusal :=
  s.put ((s.dev.advance t).nodeTimeout port node)
def execNodeConfigurePeriodic (t : Nat) (s : State) : Host.Outcome State Fault Refusal := s.put (s.dev.advance t).nodePeriodic
def execIbTxQueue (t m port : Nat) (s : State) : Host.Outcome State Fault Refusal :=
  s.put ((s.dev.advance t).byMaster m (Reg.IB_TX_CMD port) true (fun d => d.ibTxCmd m port))
def execIbFrameSend (t port : Nat) (s : State) : Host.Outcome State Fault Refusal := s.put ((s.dev.advance t).frameSend port)
def execIbErrorState (t port st tec rec : Nat) (s : State) : Host.Outcome State Fault Refusal :=
  s.put (let d := s.dev.advance t
    if d.fabricOn then d.ibErrorState port st tec rec else d)
def execIbRxObjectRelease (t port obj : Nat) (s : State) : Host.Outcome State Fault Refusal :=
  s.put ((s.dev.advance t).objRelease port obj)

end Sys2Proof.Machine
end

