-- ==== Sys2Proof/Machine/Transom.lean ====
section
/-! DEFINITION. The Transom and the host ports: lanes, dropped frames, host stop, pose-in, as-applied-out, Keyhole
(R344 to R355). -/
namespace Sys2Proof.Machine

/-! ## Lanes (R345) -/

/-- ALL_UP, HOST_UP and TransomState follow the lanes. -/
def Dev.fixLanes (d : Dev) : Dev :=
  let m := d.f Reg.TR_LANES 7 0
  let d := (d.setBit Reg.TR_STATUS 0 (m == 255)).setBit Reg.TR_STATUS 1 (m % 2 == 1)
  d.setOb Obj.TransomState (if m = 0 then 0 else if m = 255 then 1 else 2)

def Dev.setTrLane (d : Dev) (l : Nat) (up : Bool) : Dev :=
  if decide (l < 8) && d.laneUp l != up then ((d.setBit Reg.TR_LANES l up).fixLanes).event 0 0x7013 [.h l] else d

/-- A down lane retrains every 10 ms. -/
def Dev.retrain (d : Dev) (l : Nat) (locked : Bool) : Dev :=
  let last := SMap.get (fun _ => 0) d.tr.retrainAt l
  if d.fabricOn && decide (l < 8) && !d.laneUp l && (last == 0 || decide (last - 1 + 10000000 ≤ d.now)) then
    let d : Dev := { d with tr := { d.tr with retrainAt := SMap.set (fun _ => 0) d.tr.retrainAt l (d.now + 1) } }
    if locked then d.setTrLane l true else d
  else d

/-! ## Dropped frames (R347, R348) -/

/-- Maximum payload of a kind, and whether it may cross towards the field (R347). -/
def kindMost (k : Nat) : Option Nat := [none, some 4112, some 4112, some 1004, some 1424, some 2000, some 1416, some 16].getD k none
def kindToField (k : Nat) : Bool := k == 1 || k == 3 || k == 4 || k == 6 || k == 7
def kindToHost (k : Nat) : Bool := k == 2 || k == 5 || k == 6

/-- The cause of dropping a message frame: unlisted kind, wrong direction, length above the kind's maximum, bad CRC; a frame whose Length
is not that of its payload fails its CRC. 0 for a good frame. -/
def transomFault (toField : Bool) (b : List Byte) : Nat :=
  let kind := byteAt b 0
  let len := leAt b 2 2
  match kindMost kind with
  | none => 1
  | some most =>
    if !(if toField then kindToField kind else kindToHost kind) then 2
    else if most < len then 3
    else if b.length ≠ 16 + len ∨ crc32 (b.take (12 + len)) ≠ leAt b (12 + len) 4 then 4
    else 0

/-- A message frame comes in on a lane: a bad one is dropped. The number that an event gives a cause is open. What a good frame carries
arrives by its kind's own row. -/
def Dev.transomFrame (d : Dev) (lane : Nat) (toField : Bool) (b : List Byte) : Dev :=
  if !d.fabricOn then d
  else
    let c := transomFault toField b
    if c = 0 then d else d.transomDrop lane (byteAt b 0) (Config.cause 0x7010 c)

/-! ## Host stop (R349) -/

/-- HostStopState: 0 released, 1 stop, 2 lane lost. -/
def Dev.hostStopState (d : Dev) : Nat := if d.tr.laneLost then 2 else if d.tr.laneStop then 1 else 0

/-- STOP_IN and STOP_LOST follow the stop lane; a change of the stop enters or leaves the close state. -/
def Dev.stopUpdate (d : Dev) : Dev :=
  let stop := d.tr.laneStop || (d.tr.laneLost && d.ob Obj.StopLaneLossAction == 1)
  let was := d.bit Reg.TR_STATUS 2
  let d := (d.setBit Reg.TR_STATUS 2 stop).setBit Reg.TR_STATUS 3 d.tr.laneLost
  let d := d.setOb Obj.HostStopState d.hostStopState
  if stop = was then d else (d.event 0 0x7011 [.h d.tr.source]).closeUpdate 0

/-- The host half asserts a stop: HostStop is 1, or host firmware asserts one. -/
def Dev.stopAsked (d : Dev) : Bool := d.ob Obj.HostStop == 1 || d.tr.fwStop

/-- Host firmware begins or ends its own assertion. -/
def Dev.fwStopSet (d : Dev) (on : Bool) : Dev := if d.hostOn then { d with tr := { d.tr with fwStop := on } } else d

/-- Three periods at 4 MHz; with `firmware`, because host firmware asserts the stop. -/
def Dev.stopAssert (d : Dev) (firmware : Bool) : Dev :=
  let d := if firmware then d.fwStopSet true else d
  if !d.fabricOn || d.tr.laneStop then d
  else
    let src := if d.ob Obj.HostStop = 1 then 2 else if d.tr.fwStop then 3 else 1
    ({ d with tr := { d.tr with laneStop := true, source := if d.bit Reg.TR_STATUS 2 then d.tr.source else src } } : Dev).stopUpdate

/-- Three periods at 1 MHz, which the host half drives once HostStop is 0 and host firmware asserts no stop; with `firmware`, host firmware
has just ended its assertion. -/
def Dev.stopRelease (d : Dev) (firmware : Bool) : Dev :=
  let d := if firmware then d.fwStopSet false else d
  if d.fabricOn && !d.tr.laneLost && !d.stopAsked then ({ d with tr := { d.tr with laneStop := false } } : Dev).stopUpdate else d

/-- 5 µs without an edge. -/
def Dev.stopLost (d : Dev) : Dev :=
  if !d.fabricOn || d.tr.laneLost then d
  else
    let was := d.bit Reg.TR_STATUS 2
    let d : Dev := { d with tr := { d.tr with laneLost := true, source := if was then d.tr.source else 4 } }
    let d := (d.setBit Reg.TR_LANES 8 false).event 0 0x7012 [.h 1]
    d.stopUpdate

/-- Edges return: a stop in force stays until three periods at 1 MHz (R364). -/
def Dev.stopReturn (d : Dev) : Dev :=
  if !d.fabricOn || (!d.tr.laneLost && d.bit Reg.TR_LANES 8) then d
  else
    let lost := d.tr.laneLost
    let d : Dev := { d with tr := { d.tr with laneLost := false, laneStop := d.bit Reg.TR_STATUS 2 } }
    let d := d.setBit Reg.TR_LANES 8 true
    let d := if lost then d.event 0 0x7012 [.h 2] else d
    d.stopUpdate

/-! ## Pose-in (R350) -/

def poseRing : Nat := dramBase + 0x7A000000

/-- The host die takes pose data, of a datagram or of host firmware, stamps it with its host FT, and queues it for the Transom; a full
queue drops its oldest frame (R348). One of another length is dropped and counted (R363), which R350 and R363 give no counter:
TransomDropped takes it, DESIGN CHOICE. -/
def Dev.poseDatagram (d : Dev) (b : List Byte) : Dev :=
  if !d.hostOn then d
  else if b.length < 1 ∨ 1004 < b.length then d.transomDrop 1 3 (Config.cause 0x7010 3)
  else
    let q := d.tr.poseQ
    let d := if 64 ≤ q.length then d.transomDrop 1 3 (Config.cause 0x7010 5) else d
    let q := if 64 ≤ q.length then q.drop 1 else q
    ({ d with tr := { d.tr with poseQ := q ++ [(d.hostNow, !d.laneValid, b)] } } : Dev).bump

/-- An entry of the pose-in ring. -/
def poseEntry (gen stamp : Nat) (unaligned : Bool) (b : List Byte) : List Byte :=
  leBytes gen 4 ++ leBytes b.length 2 ++ leBytes (b2n unaligned) 2 ++ leBytes stamp 8 ++ b
    ++ List.replicate (1004 - b.length) 0 ++ leBytes gen 4

/-- A pose-in message is written into the ring. -/
def Dev.poseWrite (d : Dev) (stamp : Nat) (unaligned : Bool) (b : List Byte) : Dev :=
  if d.frozen 0x420 then d
  else if d.frozen 0x411 then d.addOb Obj.PoseInOverwritten 1
  else
    let w := d.rd Reg.PIN_WR
    let full := decide (1024 ≤ (w - d.rd Reg.PIN_RD).toNat)
    let gen := (w + 1).toNat
    let d := d.setBytes (poseRing + 1024 * (w.toNat % 1024)) (poseEntry gen stamp unaligned b)
    let d := (d.wr Reg.PIN_WR (w + 1)).addOb Obj.PoseInCount 1
    if full then (d.addOb Obj.PoseInOverwritten 1).setBit Reg.TR_STATUS 29 true else d

/-- The oldest waiting pose-in message crosses, on M1 or the lane that stands in for it. -/
def Dev.poseIn (d : Dev) : Dev :=
  match d.fabricOn, d.laneFor 1, d.tr.poseQ with
  | true, some lane, (stamp, un, b) :: rest =>
    let d : Dev := { d with tr := { d.tr with poseQ := rest } }
    let m : TrMsg :=
      { kind := 3, lane := 1, toField := true, stamp := stamp, unaligned := un, payload := b, next := [], port := 0 }
    (d.crossNow m lane).poseWrite stamp un b
  | _, _, _ => d

/-! ## As-applied-out (R351) -/

/-- TR_TX_RESULT of the writing master. -/
def Dev.trResult (d : Dev) (m c : Nat) : Dev := d.wrM m Reg.TR_TX_RESULT (wd (2 ^ 31 + c))

/-- The host Ethernet port whose subnet holds an address; HE0 where none does: DESIGN CHOICE. -/
def Dev.routeTo (d : Dev) (dst : Nat) : Nat :=
  ((List.range 3).find? (fun p =>
    let mask := d.objVal 0 0x1121 (p + 1)
    dst &&& mask == d.objVal 0 0x1120 (p + 1) &&& mask)).getD 0

/-- What the host die does with an as-applied message: to host firmware, and as a datagram to AsAppliedDest. -/
def Dev.asNext (d : Dev) (bytes : List Byte) : List Out :=
  let dst := d.ob Obj.AsAppliedDest
  ⟨.hostFw, 5, 0, natsOf bytes⟩ ::
    (if dst = 0 then [] else [⟨.udp, d.routeTo dst, d.ob Obj.AsAppliedPort, dst :: natsOf bytes⟩])

/-- TR_TX_CMD, on M4 and M5 alternately. -/
def Dev.asApplied (d : Dev) (m : Nat) : Dev :=
  let n := d.fM m Reg.TR_TX_LEN 11 0
  if n < 1 ∨ 2000 < n then d.reject m Reg.TR_TX_LEN
  else if !d.bit Reg.TR_STATUS 1 then (d.setBit Reg.TR_STATUS 30 true).trResult m 2
  else
    let lane := d.tr.asLane
    let bytes := ((List.range ((n + 3) / 4)).flatMap (fun i => leBytes (d.rdM m (Reg.TR_TX_DATA i)).toNat 4)).take n
    let x := d.crossOut (d.fieldMsg 5 lane bytes (d.asNext bytes))
    if d.crossFull 5 false then (x.setBit Reg.TR_STATUS 30 true).trResult m 1
    else ({ x with tr := { x.tr with asLane := 9 - lane } } : Dev).trResult m 0

/-! ## Host ports (R354, R355) -/

/-- The Keyhole is attached or detached. -/
def Dev.setKeyhole (d : Dev) (on : Bool) : Dev :=
  if d.hostOn && d.tr.keyhole != on then
    Dev.event { d with tr := { d.tr with keyhole := on } } 4 0x7016 [.h (if on then 1 else 2)]
  else d

/-- KeyholeState: 0 detached, 1 attached, 2 session open. -/
def Dev.keyholeState (d : Dev) : Nat :=
  if !d.tr.keyhole then 0 else if d.sec.sessions.any (fun x => decide (x.transport = .keyhole) && d.live x) then 2 else 1

/-- A host Ethernet link goes up or down. -/
def Dev.hostLink (d : Dev) (p : Nat) (up : Bool) : Dev :=
  if d.hostOn && decide (p < 3) && d.ob (Obj.HostLinkState p) != b2n up then
    (d.setOb (Obj.HostLinkState p) (b2n up)).event 4 0x7015 [.h p]
  else d

/-- HostStop: the host half drives its pattern; the field half follows when it has seen three periods. -/
def Dev.writeHostStop (d : Dev) (v : Nat) : WRes := if 1 < v then d.no 0x0301 else (d.setOb Obj.HostStop v).yes

/-! ## Meanings -/

def execTransomFrameRx (t lane : Nat) (toField : Bool) (b : List Byte) (s : State) : Host.Outcome State Fault Refusal :=
  s.put ((s.dev.advance t).transomFrame lane toField b)
def execLaneDown (t lane : Nat) (s : State) : Host.Outcome State Fault Refusal :=
  s.put (let d := s.dev.advance t
    if d.fabricOn then d.setTrLane lane false else d)
def execHostStopWrite (t : Nat) (r : Req) (v : Nat) (s : State) : Host.Outcome State Fault Refusal :=
  s.put ((s.dev.advance t).dictVal r 0x1100 3 1 v (fun d => d.writeHostStop v))
def execHostStopAssert (t : Nat) (firmware : Bool) (s : State) : Host.Outcome State Fault Refusal :=
  s.put ((s.dev.advance t).stopAssert firmware)
def execHostStopRelease (t : Nat) (firmware : Bool) (s : State) : Host.Outcome State Fault Refusal :=
  s.put ((s.dev.advance t).stopRelease firmware)
def execStopLaneLost (t : Nat) (s : State) : Host.Outcome State Fault Refusal := s.put (s.dev.advance t).stopLost
def execStopLaneReturn (t : Nat) (s : State) : Host.Outcome State Fault Refusal := s.put (s.dev.advance t).stopReturn
def execPoseInDatagram (t : Nat) (b : List Byte) (s : State) : Host.Outcome State Fault Refusal :=
  s.put ((s.dev.advance t).poseDatagram b)
def execPoseIn (t : Nat) (s : State) : Host.Outcome State Fault Refusal := s.put (s.dev.advance t).poseIn
def execAsAppliedOut (t m : Nat) (s : State) : Host.Outcome State Fault Refusal :=
  s.put ((s.dev.advance t).byMaster m Reg.TR_TX_CMD true (fun d => d.asApplied m))
def execKeyholeAttach (t : Nat) (s : State) : Host.Outcome State Fault Refusal := s.put ((s.dev.advance t).setKeyhole true)
def execKeyholeDetach (t : Nat) (s : State) : Host.Outcome State Fault Refusal := s.put ((s.dev.advance t).setKeyhole false)
def execHostLinkChange (t port : Nat) (up : Bool) (s : State) : Host.Outcome State Fault Refusal :=
  s.put ((s.dev.advance t).hostLink port up)

end Sys2Proof.Machine
end

