-- ==== Sys2Proof/Machine/Image.lean ====
section
/-! DEFINITION. Boot images: layout, checks, access windows, and loading engines from them (R19, R27, R409 to R412, R418, R419,
R428). The two boot slots lie in the model's memory above the device's own address space. -/
namespace Sys2Proof.Machine

/-! ## Slots -/

def imageBase (slot : Nat) : Nat := 0x400000000 + slot * 0x1000000
def imageSize : Nat := 0x1000000

/-- Bytes of a slot. They are held inverted, so that an erased byte, 0xFF, is one that memory does not list. -/
def Dev.imgBytes (d : Dev) (slot off n : Nat) : List Byte := (d.bytes (imageBase slot + off) n).map (fun b => ~~~b)
def Dev.img (d : Dev) (slot off n : Nat) : Nat := leNat (d.imgBytes slot off n)
def Dev.imgWrite (d : Dev) (slot off : Nat) (b : List Byte) : Dev := d.setBytes (imageBase slot + off) (b.map (fun x => ~~~x))
/-- Where the model holds the host die's firmware (R410): below the boot slots, above the device's own memories. -/
def hostFwBase : Nat := 0x300000000
def hostFwSize : Nat := 4194304

/-- A slot is erased. -/
def Dev.imgErase (d : Dev) (slot : Nat) : Dev := d.clearMem (imageBase slot) imageSize

/-- SlotState of R499: 0 EMPTY, 1 CONFIRMED, 2 PENDING, 3 BAD. -/
def bootSlotKey (slot : Nat) : Nat := 0x220301 + slot
def Dev.bootSlot (d : Dev) (slot : Nat) : Nat := d.ob (bootSlotKey slot)

/-- BootImageVersion reads 0 for an empty slot (R382). -/
def Dev.setBootSlot (d : Dev) (slot st : Nat) : Dev :=
  (d.setOb (bootSlotKey slot) st).setOb (Obj.BootImageVersion slot) (if st = 0 then 0 else d.img slot 12 4)

def Dev.imgLen (d : Dev) (s : Nat) : Nat := d.img s 8 4
def Dev.imgCount (d : Dev) (s : Nat) : Nat := d.img s 7 1

/-- A section entry (R410). -/
structure Section where
  ty : Nat
  target : Nat
  off : Nat
  len : Nat
  crc : Nat
  deriving DecidableEq, Repr

def Dev.imgSection (d : Dev) (s i : Nat) : Section :=
  let o := 256 + 16 * i
  { ty := d.img s o 1, target := d.img s (o + 2) 2, off := d.img s (o + 4) 4, len := d.img s (o + 8) 4, crc := d.img s (o + 12) 4 }

def Dev.imgSections (d : Dev) (s : Nat) : List Section := (List.range (d.imgCount s)).map (fun i => d.imgSection s i)

def Section.names (x : Section) (c : Nat) : Bool := x.target == c || x.target == 0xFFFF

/-! ## Keys (R427, R428) -/

/-- State and bytes of a root key slot. -/
def Dev.keyState (d : Dev) (k : Nat) : Nat := (d.sec.keys.getD k (0, [])).1
def Dev.keyBytes (d : Dev) (k : Nat) : List Byte := if k < 4 then Config.vendorKey k else (d.sec.keys.getD k (0, [])).2

/-- The digest of an image, over every byte before its signature. -/
def Dev.imgDigest (d : Dev) (s : Nat) : List Byte := sha256 (d.imgBytes s 0 (d.imgLen s - 64))

/-- The key is programmed and not revoked and the signature verifies. -/
def Dev.imgSigned (d : Dev) (s : Nat) : Bool :=
  let k := d.img s 6 1
  d.keyState k == 1 && ecdsaOk (d.keyBytes k) (d.imgDigest s) (d.imgBytes s (d.imgLen s - 64) 64)

/-! ## Access windows (R418, R419) -/

/-- An entry of a window request: master, window, flags, base word, limit word. -/
structure Grant where
  master : Nat
  window : Nat
  flags : Nat
  base : Nat
  limit : Nat
  rest : Nat
  deriving DecidableEq, Repr

def grantOf (b : List Byte) : Grant :=
  { master := leAt b 0 2, window := byteAt b 2, flags := byteAt b 3, base := leAt b 4 4, limit := leAt b 8 4, rest := leAt b 12 4 }

/-- The field ranges of every entry, and the rules of R418 for one that opens a window. -/
def Grant.ok (g : Grant) : Bool :=
  let fields := decide (g.master < 1024) && decide (g.window < 8) && g.flags % 128 == 0 && g.rest == 0
  let opens := bitOf g.flags 7 && bitOf g.base 0
  let lo := g.base / 256 * 256
  let hi := g.limit / 256 * 256 + 255
  let shape := bitsOf g.base 7 3 == 0 && g.limit % 256 == 0 && decide (g.base / 256 ≤ g.limit / 256)
    && decide (0x40020000 ≤ lo) && decide (hi ≤ 0x4011FFFF)
    && (!(bitOf g.base 2) || decide (hi < 0x400E0000) || decide (0x400F0000 ≤ lo))
  fields && (!opens || shape)

def Dev.install (d : Dev) (g : Grant) : Dev :=
  let on := bitOf g.flags 7
  (d.wrM g.master (Reg.WIN_BASE g.window) (if on then wd g.base else 0)).wrM g.master (Reg.WIN_LIM g.window)
    (if on then wd g.limit else 0)

/-- Bytes in pieces of `n`. -/
def pieces (n : Nat) : Nat → List Byte → List (List Byte)
  | 0, _ => []
  | k + 1, bs => bs.take n :: pieces n k (bs.drop n)

def grantsOf (bs : List Byte) : List Grant := (pieces 16 (bs.length / 16) bs).map grantOf

/-- A register address of the per-engine window words. -/
def isWinWord (k : Nat) : Bool :=
  let a := k % 0x100000000
  decide (0x400E0100 ≤ a) && decide (a < 0x400E0140)

/-- The windows at a start: those of the image, then those of WindowExtra, in order (R419). -/
def Dev.loadWindows (d : Dev) (s : Nat) : Dev :=
  let d : Dev := { d with regs := SMap.keep (fun k => !isWinWord k) d.regs }
  let d := (d.imgSections s).foldl (fun (d : Dev) x =>
    if x.ty = 6 then (grantsOf (d.imgBytes s x.off x.len)).foldl Dev.install d else d) d
  (grantsOf (d.dom Obj.WindowExtra 0 (16 * d.ob Obj.WindowExtraCount))).foldl Dev.install d

/-! ## Firmware-defined objects (R412) -/

/-- A type by its code (R369). -/
def tyOfCode (c : Nat) : Option OTy :=
  [OTy.u8, .u16, .u32, .u64, .i16, .i32, .i64, .f32, .bf24, .time64, .str, .dom].find? (fun t => t.code == c)

def accOfCode (c : Nat) : Option Acc := if c = 0 then some .ro else if c = 1 then some .rw else if c = 2 then some .wo
  else if c = 3 then some .const else none

/-- `n` bytes at an offset of shared memory lie in the firmware data areas that R157 names such whatever CACHE_EN is (R412). The offset
counts from the start of shared memory: DEDUCED. -/
def fwStorage (o n : Nat) : Bool :=
  decide (o + n ≤ 0x10000) || (decide (0x58000 ≤ o) && decide (o + n ≤ 0x5F800)) || (decide (0x5FC00 ≤ o) && decide (o + n ≤ 0x5FE00))

/-- One entry of the object table, where every field is one that the table permits. -/
def fwObjOf (b : List Byte) : Option FwObj :=
  let idx := leAt b 0 2
  let sub := byteAt b 2
  match tyOfCode (byteAt b 3), accOfCode (byteAt b 4) with
  | some ty, some acc =>
    let flags := byteAt b 6
    let size := leAt b 8 4
    let store := leAt b 12 4
    let dflt := leAt b 16 8
    let small := decide (1 ≤ ty.bytes)
    let sizeOk := if small then size == ty.bytes else decide (size ≤ 1048576)
    let direct := bitOf flags 1
    let storeOk := if direct then small && store % ty.bytes == 0 && fwStorage store ty.bytes else store == 0
    if decide (0xA000 ≤ idx) && decide (idx ≤ 0xAFFF) && decide (1 ≤ sub) && decide (byteAt b 5 ≤ 3) && decide (flags < 8)
        && byteAt b 7 == 0 && sizeOk && storeOk && (small || dflt == 0) && leAt b 24 8 == 0 then
      some { idx := idx, sub := sub, ty := ty, acc := acc, level := byteAt b 5, flags := flags, size := size, storage := store
             dflt := dflt }
    else none
  | _, _ => none

def Dev.imgTable (d : Dev) (s : Nat) : List (Option FwObj) :=
  (d.imgSections s).flatMap (fun x => if x.ty = 4 then (pieces 32 (x.len / 32) (d.imgBytes s x.off x.len)).map fwObjOf else [])

/-- No index and subindex comes twice. -/
def distinctObjs : List FwObj → Bool
  | [] => true
  | x :: xs => !xs.any (fun y => y.idx == x.idx && y.sub == x.sub) && distinctObjs xs

def Dev.tableOk (d : Dev) (s : Nat) : Bool :=
  let t := d.imgTable s
  let n := d.img s 56 2
  t.length == n && decide (n ≤ 1024) && t.all Option.isSome && distinctObjs (t.filterMap id)
    && (t.isEmpty || d.img s 54 2 != 0xFFFF)

/-! ## The checks of an image (R409 to R411, R428, R501) -/

def Dev.headerFits (d : Dev) (s : Nat) : Bool :=
  let n := d.imgLen s
  decide (n ≤ imageSize) && n % 256 == 0 && decide (256 + 16 * d.imgCount s + 64 ≤ n)

def Dev.headerGood (d : Dev) (s : Nat) : Bool :=
  d.img s 0 4 == 0x4942565A && d.img s 4 2 == 1 && decide (1 ≤ d.imgCount s) && decide (d.imgCount s ≤ 63)

/-- Longest permitted content of a section type; 0 where the type is not in the table. -/
def sectionMost (ty : Nat) : Nat := [0, 131072, 65536, 32768, 32768, 4194304, 16777216].getD ty 0

def Dev.sectionOk (d : Dev) (s : Nat) (x : Section) : Bool :=
  decide (x.len ≤ sectionMost x.ty) && decide (1 ≤ x.ty) && decide (x.ty ≤ 6) && (x.ty != 1 || decide (4 ≤ x.len))
    && (x.ty == 4 || x.ty == 6 || decide (1 ≤ x.len)) && (decide (x.target < 64) || x.target == 0xFFFF)
    && decide (x.off + x.len ≤ d.imgLen s) && crc32 (d.imgBytes s x.off x.len) == x.crc
    && (x.ty != 4 || x.len == 32 * d.img s 56 2)
    && (x.ty != 6 || (x.len % 16 == 0 && (grantsOf (d.imgBytes s x.off x.len)).all Grant.ok))

/-- Every cluster names a code section, and EntryOffset lies within it. -/
def Dev.codeOk (d : Dev) (s : Nat) : Bool :=
  let e := d.img s 60 4
  (List.range 64).all (fun c =>
    let i := d.img s (64 + c) 1
    let x := d.imgSection s i
    decide (i < d.imgCount s) && x.ty == 1 && decide (0x160000 ≤ e) && decide (e < 0x160000 + x.len))

/-- The failing check: 0 none, 1 signature or key, 2 header, 3 section, 4 hardware issue, 5 object table. -/
def Dev.imgCode (d : Dev) (s : Nat) (signed : Bool) : Nat :=
  if !d.headerFits s then 2
  else if !signed then 1
  else if !d.headerGood s then 2
  else if !((d.imgSections s).all (fun x => d.sectionOk s x) && d.codeOk s) then 3
  else if Config.hardwareIssue < d.img s 52 2 then 4
  else if !d.tableOk s then 5
  else 0

/-- The security block's decision, with its record (R428). -/
def Dev.imgCheck (d : Dev) (s : Nat) : Nat × Dev :=
  let signed := d.imgSigned s
  let c := d.imgCode s signed
  (c, d.event 4 0x8020 [.h (d.img s 6 1), .h (if signed then 1 else 2)])

/-! ## Loading (R27, R410, R411) -/

/-- Registers of an engine that its release resets: control, status, timer, interrupts, fault, doorbell. -/
def isEngineReg (a : Nat) : Bool := decide (0x40000004 ≤ a) && decide (a < 0x40000040)

/-- An engine is released at EntryOffset: IE 0, IRQ_EN 0, every general and vector register 0 (R411). -/
def Dev.engineStart (d : Dev) (e entry : Nat) : Dev :=
  let d : Dev := { d with
    regs := SMap.keep (fun k => !(k / 0x100000000 == e + 1 && isEngineReg (k % 0x100000000))) d.regs
    greg := SMap.keep (fun k => k / 32 != e) d.greg
    vreg := SMap.keep (fun k => k / 256 != e) d.vreg
    lowHeld := SMap.keep (fun k => k / 0x100000000 != e) d.lowHeld
    frame := { d.frame with busy := SMap.keep (fun k => k != e) d.frame.busy } }
  let clock := d.dieTicks (dieOf e)
  d.setEngine e { Eng.reset with pc := entry, running := true, releasedAt := clock }

def Dev.entryOffset (d : Dev) : Nat := d.img d.start.slot 60 4

/-- The host die's firmware: the type 5 section of the image, loaded into the host die (R410). -/
def Dev.loadHost (d : Dev) (s : Nat) : Dev :=
  (d.imgSections s).foldl (fun (d : Dev) x =>
    if x.ty = 5 then (d.clearMem hostFwBase hostFwSize).setBytes hostFwBase (d.imgBytes s x.off x.len) else d) d

def clusterEngines (c : Nat) : List Nat := (List.range 16).map (fun i => 16 * c + i)

/-- The working data sections of a cluster. -/
def Dev.loadWorking (d : Dev) (c : Nat) : Dev :=
  let s := d.start.slot
  (d.imgSections s).foldl (fun (d : Dev) x =>
    if x.ty == 3 && x.names c then
      let bs := d.imgBytes s x.off x.len
      (clusterEngines c).foldl (fun (d : Dev) e => d.setBytes (localBase e + 0x8000) bs) d
    else d) d

/-- The shared data sections of a cluster. -/
def Dev.loadShared (d : Dev) (c : Nat) : Dev :=
  let s := d.start.slot
  (d.imgSections s).foldl (fun (d : Dev) x =>
    if x.ty == 2 && x.names c then d.setBytes (sharedBase c) (d.imgBytes s x.off x.len) else d) d

/-- The instruction-store code that ClusterCode names for a cluster (R409, R410). -/
def Dev.loadCode (d : Dev) (c : Nat) : Dev :=
  let s := d.start.slot
  let x := d.imgSection s (d.img s (64 + c) 1)
  d.setBytes (sharedBase c + 0x60000) (d.imgBytes s x.off x.len)

/-- A cluster that has just powered up is loaded and released. -/
def Dev.clusterLoad (d : Dev) (c : Nat) : Dev :=
  let entry := d.entryOffset
  (clusterEngines c).foldl (fun (d : Dev) e => d.engineStart e entry) (((d.loadCode c).loadShared c).loadWorking c)

/-- The memories of a cluster are cleared: local memories, record areas and shared memory. -/
def Dev.clusterClear (d : Dev) (c : Nat) : Dev :=
  let d := (clusterEngines c).foldl (fun (d : Dev) e => d.clearMem (localBase e) 0x10000) d
  d.clearMem (sharedBase c) 0x80000

end Sys2Proof.Machine
end

