-- ==== Sys2Proof/Machine/Security.lean ====
section
/-! DEFINITION. Releases, debug halts, keys and sessions (R21, R419 to R433). -/
namespace Sys2Proof.Machine

/-! ## Debug halt (R21, R233, R426) -/

/-- A session holds a cluster; several may hold one, which resumes with the last of them (R426: DEDUCED). -/
def Dev.haltCluster (d : Dev) (c token : Nat) : Dev :=
  let was := d.halted c
  let d : Dev := { d with sec := { d.sec with halts := (c, token) :: d.sec.halts.filter (fun p => p != (c, token)) } }
  if was then d else (d.lvOf c).foldl Dev.lvFreeze d

def Dev.resumeCluster (d : Dev) (c : Nat) : Dev :=
  if d.halted c then
    let d : Dev := { d with sec := { d.sec with halts := d.sec.halts.filter (fun p => p.1 != c) } }
    (d.lvOf c).foldl Dev.lvThaw d
  else d

/-- What a session that ends held of clusters (R433). -/
def Dev.haltsEnd (d : Dev) (token : Nat) : Dev :=
  let mine := d.sec.halts.filter (fun p => p.2 == token)
  let d : Dev := { d with sec := { d.sec with halts := d.sec.halts.filter (fun p => p.2 != token) } }
  mine.foldl (fun (d : Dev) p => if d.halted p.1 then d else (d.lvOf p.1).foldl Dev.lvThaw d) d

/-- Every debug halt ends. -/
def Dev.resumeAll (d : Dev) : Dev := d.sec.halts.foldl (fun (d : Dev) p => d.resumeCluster p.1) d

def Dev.writeHalt (d : Dev) (r : Req) (v : Nat) : WRes := if 63 < v then d.no 0x0301 else (d.haltCluster v r.token).yes
def Dev.writeResume (d : Dev) (v : Nat) : WRes := if 63 < v then d.no 0x0301 else (d.resumeCluster v).yes

/-! ## Release (R424) -/

/-- DeadboltRelease: every freeze of the cluster ends and its 16 engines restart. -/
def Dev.writeRelease (d : Dev) (c : Nat) : WRes :=
  if 63 < c then d.no 0x0301
  else
    let cold := (clusterEngines c).filter (fun e => d.frozen e)
    if cold.isEmpty then d.no 0x0401
    else
      let d := cold.foldl (fun (d : Dev) e => d.release e 1) d
      let entry := d.entryOffset
      ((clusterEngines c).foldl (fun (d : Dev) e => d.engineStart e entry) (d.loadWorking c)).yes

/-- A device agent or pane cache port steps outside its windows (R417, R423). -/
def Dev.agentViolation (d : Dev) (m addr : Nat) (write : Bool) : Dev :=
  let known := (decide (0x400 ≤ m) && decide (m < 0x408)) || (decide (0x410 ≤ m) && decide (m < 0x418)) || m == 0x420
  if known && d.fabricOn then d.freeze m (if write then 2 else 1) addr 0 else d

/-! ## Keys (R427, R429) -/

def setAt {α : Type} (xs : List α) (i : Nat) (x : α) : List α := xs.set i x

def Dev.setKey (d : Dev) (k st : Nat) (bytes : List Byte) : Dev :=
  { d with sec := { d.sec with keys := setAt d.sec.keys k (st, bytes) } }

/-- KeyProgram: an empty OEM slot takes a key. -/
def Dev.keyProgram (d : Dev) (b : List Byte) : WRes :=
  let k := byteAt b 0
  if 7 < k ∨ leAt b 1 3 ≠ 0 then d.no 0x0301
  else if d.keyState k ≠ 0 then d.no 0x0401
  else ((d.setKey k 1 (b.drop 4)).event 4 0x8021 [.h k]).yes

/-- The message that a revocation signs. -/
def revokeMessage (slot signer : Nat) : List Byte := leBytes Config.serialNumber 4 ++ leBytes slot 1 ++ leBytes signer 1

/-- KeyRevoke: signed by another unrevoked slot of the same group. -/
def Dev.keyRevoke (d : Dev) (b : List Byte) : WRes :=
  let k := byteAt b 0
  let g := byteAt b 1
  if 7 < k ∨ 7 < g ∨ leAt b 2 2 ≠ 0 then d.no 0x0301
  else if g = k ∨ g / 4 ≠ k / 4 ∨ d.keyState g ≠ 1 then d.no 0x0501
  else if !ecdsaOk (d.keyBytes g) (sha256 (revokeMessage k g)) (b.drop 4) then d.no 0x0501
  else if (List.range 4).all (fun i => k / 4 * 4 + i == k || d.keyState (k / 4 * 4 + i) != 1) then d.no 0x0401
  else ((d.setKey k 2 (d.sec.keys.getD k (0, [])).2).event 4 0x8022 [.h k, .h g]).yes

/-! ## Sessions (R430 to R433) -/

def Dev.secretOf (d : Dev) (level : Nat) : Option (List Byte) :=
  if level = 3 then some Config.vendorSecret else (d.sec.secrets.getD (level - 1) none)

/-- A session ends, and what it held with it (R432, R433). -/
def Dev.sessEnd (d : Dev) (token place : Nat) : Dev :=
  match d.sec.sessions.find? (fun x => x.token == token && x.open_) with
  | none => d
  | some x =>
    let now := d.now
    let d : Dev := { d with sec := { d.sec with
      sessions := d.sec.sessions.map (fun y => if y.token == token && y.open_ then { y with endedAt := some now } else y) } }
    let d := d.event 4 0x8012 [.w x.client, .h (Config.cause 0x8012 place)]
    let d := d.holdsEnd token x.level
    let d := d.haltsEnd token
    let mine := clientOf { transport := x.transport, client := x.client, token := 0, tid := 0 }
    let d := if d.obC mine Obj.SessionToken = token then (d.setObC mine Obj.SessionToken 0).setObC mine Obj.SessionLevel 0 else d
    let key := 2 ^ 60 + token
    { d with objs := SMap.keep (fun k => k / 0x1000000 != key) d.objs }

/-- Sixteen fresh random bytes for a client; each read's are valid for 10 s and one response. -/
def Dev.challenge' (d : Dev) (r : Req) : List Byte × Dev :=
  let bs := (List.range 16).map (fun i => Config.randomByte (d.fresh * 16 + i))
  let c : Chal := { transport := r.transport, client := r.client, bytes := bs, at_ := d.now }
  let rest := d.sec.chals.filter (fun x => decide (d.now ≤ x.at_ + 10000000000))
  (bs, ({ d with sec := { d.sec with chals := c :: rest } } : Dev).bump)

/-- The challenges of a client that are still valid. -/
def Dev.chalsOf (d : Dev) (r : Req) : List Chal :=
  d.sec.chals.filter (fun x => decide (x.transport = r.transport) && x.client == r.client && decide (d.now ≤ x.at_ + 10000000000))

/-- A response that fails: counted, recorded, and after five within 60 s the client is refused for 60 s. -/
def Dev.authFail (d : Dev) (r : Req) (level : Nat) : Dev :=
  let tr := transportNum r.transport
  let d := (d.addOb Obj.AuthFailures 1).event 4 0x8011 [.w r.client, .h level]
  let now := d.now
  let fails := (tr, r.client, now) :: d.sec.fails.filter (fun p => decide (now < p.2.2 + 60000000000))
  let mine := fails.filter (fun p => p.1 == tr && p.2.1 == r.client)
  let blocked := if 5 ≤ mine.length then
      (tr, r.client, now + 60000000000) :: d.sec.blocked.filter (fun p => !(p.1 == tr && p.2.1 == r.client))
    else d.sec.blocked
  let fails := if 5 ≤ mine.length then fails.filter (fun p => !(p.1 == tr && p.2.1 == r.client)) else fails
  { d with sec := { d.sec with fails := fails, blocked := blocked } }

def Dev.authBlocked (d : Dev) (r : Req) : Bool :=
  d.sec.blocked.any (fun p => p.1 == transportNum r.transport && p.2.1 == r.client && decide (d.now < p.2.2))

/-- A session opens for a client; an earlier one of that client ends. -/
def Dev.sessOpen (d : Dev) (r : Req) (level : Nat) : Dev :=
  let old := d.sec.sessions.filter (fun x => x.open_ && x.of r)
  let d := old.foldl (fun (d : Dev) x => d.sessEnd x.token 4) d
  let w := (Config.freeWord d.fresh).toNat
  let token := if w = 0 then 1 else w
  let now := d.now
  let x : Sess :=
    { token := token, transport := r.transport, client := r.client, level := level, openedAt := now, lastAt := now, endedAt := none }
  let keep := d.sec.sessions.filter (fun y => match y.endedAt with | some e => decide (now < e + dayNs) | none => true)
  let d := ({ d with sec := { d.sec with sessions := x :: keep } } : Dev).bump
  let d := (d.setObC (clientOf r) Obj.SessionToken token).setObC (clientOf r) Obj.SessionLevel level
  d.event 4 0x8010 [.w r.client, .h level]

/-- The message of 21 bytes that the client authenticates. -/
def authMessage (chal : List Byte) (level : Nat) : List Byte := chal ++ leBytes Config.serialNumber 4 ++ leBytes level 1

/-- A write of a DOM that is taken whole: its range, then its length (R372). -/
def Dev.wholeDom (d : Dev) (n off : Nat) (b : List Byte) (k : WRes) : WRes :=
  if !domRangeOk n off b.length then d.no 0x0301 else if b.length ≠ n then d.no 0x0302 else k

/-- SessionResponse. A challenge serves one response, which uses up every challenge that its client holds: DESIGN CHOICE. -/
def Dev.sessResponse (d : Dev) (r : Req) (b : List Byte) : WRes :=
  let level := byteAt b 0
  if level < 1 ∨ 3 < level ∨ leAt b 1 3 ≠ 0 then d.no 0x0301
  else if d.authBlocked r then d.no 0x0601
  else
    let chals := d.chalsOf r
    let d : Dev := { d with sec := { d.sec with
      chals := d.sec.chals.filter (fun x => !(decide (x.transport = r.transport) && x.client == r.client)) } }
    match d.secretOf level with
    | some k =>
      if !(chals.any (fun c => hmac k (authMessage c.bytes level) = b.drop 4)) then (d.authFail r level).no 0x0501
      else if 8 ≤ (d.sec.sessions.filter (fun x => d.live x && !(x.of r))).length then d.no 0x0701
      else (d.sessOpen r level).yes
    | none => (d.authFail r level).no 0x0501

/-- SessionEnd: only a token open for the requesting client (R432). -/
def Dev.writeSessEnd (d : Dev) (r : Req) (v : Nat) : WRes :=
  let asked : Req := { r with token := v }
  if v = 0 then d.no 0x0501
  else
    let c := d.tokenCode asked
    if c ≠ 0 then d.no c else (d.sessEnd v 1).yes

def Dev.sessIdle (d : Dev) (token : Nat) : Dev :=
  if d.sec.sessions.any (fun x => x.token == token && x.open_
      && decide (x.lastAt + d.ob Obj.SessionIdleTimeout * 1000000000 ≤ d.now)) then d.sessEnd token 2 else d

def Dev.sessLifetime (d : Dev) (token : Nat) : Dev :=
  if d.sec.sessions.any (fun x => x.token == token && x.open_
      && decide (x.openedAt + d.ob Obj.SessionLifetime * 1000000000 ≤ d.now)) then d.sessEnd token 3 else d

def Dev.writeSecret (d : Dev) (level : Nat) (b : List Byte) : WRes :=
  if level < 1 ∨ 2 < level then d.no 0x0102
  else ({ d with sec := { d.sec with secrets := setAt d.sec.secrets (level - 1) (some b) } } : Dev).yes

/-! ## WindowExtra (R419) -/

/-- WindowExtra or its count: every entry that the write touches obeys R418; it takes effect at the next start. -/
def Dev.writeExtra (d : Dev) (sub off : Nat) (b : List Byte) : WRes :=
  if sub = 3 then
    if 256 < leNat b then d.no 0x0301
    else if d.inField then d.no 0x0401
    else
      let d := d.setOb Obj.WindowExtraCount (leNat b)
      (d.event 1 0x8032 [.h (leNat b)]).yes
  else if !domRangeOk 4096 off b.length then d.no 0x0301
  else
    let d' := d.setDom Obj.WindowExtra off b
    let first := off / 16
    let n := (off + b.length + 15) / 16 - first
    if !((grantsOf (d'.dom Obj.WindowExtra (16 * first) (16 * n))).all Grant.ok) then d.no 0x0301
    else if d.inField then d.no 0x0401
    else (d'.event 1 0x8032 [.h (d.ob Obj.WindowExtraCount)]).yes

/-! ## Meanings -/

def execDeadboltRelease (t : Nat) (r : Req) (v : Nat) (s : State) : Host.Outcome State Fault Refusal :=
  s.put ((s.dev.advance t).dictVal r 0x2100 2 1 v (fun d => d.writeRelease v))
def execClusterHalt (t : Nat) (r : Req) (v : Nat) (s : State) : Host.Outcome State Fault Refusal :=
  s.put ((s.dev.advance t).dictVal r 0x2102 1 1 v (fun d => d.writeHalt r v))
def execClusterResume (t : Nat) (r : Req) (v : Nat) (s : State) : Host.Outcome State Fault Refusal :=
  s.put ((s.dev.advance t).dictVal r 0x2102 2 1 v (fun d => d.writeResume v))
def execKeyProgram (t : Nat) (r : Req) (data : List Byte) (s : State) : Host.Outcome State Fault Refusal :=
  s.put ((s.dev.advance t).dictWriteWith r 0x2112 1 0 data (fun d => d.wholeDom 68 0 data (d.keyProgram data)))
def execKeyRevoke (t : Nat) (r : Req) (data : List Byte) (s : State) : Host.Outcome State Fault Refusal :=
  s.put ((s.dev.advance t).dictWriteWith r 0x2112 2 0 data (fun d => d.wholeDom 68 0 data (d.keyRevoke data)))
def execSessionChallenge (t : Nat) (r : Req) (n : Nat) (s : State) : Host.Outcome State Fault Refusal :=
  s.put ((s.dev.advance t).dictReadWith r 0x2120 1 0 (leBytes n 4) (fun d =>
    let x := d.challenge' r
    (0, x.2, x.1.take n, decide (n < 16))))
def execSessionResponse (t : Nat) (r : Req) (data : List Byte) (s : State) : Host.Outcome State Fault Refusal :=
  s.put ((s.dev.advance t).dictWriteWith r 0x2120 2 0 data (fun d => d.wholeDom 36 0 data (d.sessResponse r data)))
def execSessionEnd (t : Nat) (r : Req) (v : Nat) (s : State) : Host.Outcome State Fault Refusal :=
  s.put ((s.dev.advance t).dictVal r 0x2120 5 4 v (fun d => d.writeSessEnd r v))
def execSessionIdleTimeout (t token : Nat) (s : State) : Host.Outcome State Fault Refusal :=
  s.put ((s.dev.advance t).sessIdle token)
def execSessionLifetimeExpire (t token : Nat) (s : State) : Host.Outcome State Fault Refusal :=
  s.put ((s.dev.advance t).sessLifetime token)
def execSessionSecretWrite (t : Nat) (r : Req) (level : Nat) (data : List Byte) (s : State) : Host.Outcome State Fault Refusal :=
  s.put ((s.dev.advance t).dictWriteWith r 0x2121 level 0 data (fun d => d.wholeDom 32 0 data (d.writeSecret level data)))
def execWindowExtraWrite (t : Nat) (r : Req) (sub off : Nat) (data : List Byte) (s : State) : Host.Outcome State Fault Refusal :=
  s.put ((s.dev.advance t).dictWriteWith r 0x2101 sub off data (fun d => d.writeExtra sub off data))
def execDeviceAgentViolation (t m addr : Nat) (write : Bool) (s : State) : Host.Outcome State Fault Refusal :=
  s.put ((s.dev.advance t).agentViolation m addr write)

end Sys2Proof.Machine
end

