-- ==== Sys2Proof/Machine/PowerOps.lean ====
section
/-! DEFINITION. Power domains and what loses its contents with them: clusters, Standby, Parked, package reset, Off
(R20, R30, R443 to R445, R492). -/
namespace Sys2Proof.Machine

/-- STATE of PWR_STATUS and PowerState. -/
def stateCode : PState → Nat
  | .off => 0 | .parked => 1 | .standby => 2 | .ready => 3 | .field => 4 | .doorstop => 5

/-- The package enters a power state: 0x9010 with old and new (R445). -/
def Dev.enter (d : Dev) (p : PState) : Dev :=
  let old := stateCode d.pstate
  let d : Dev := { d with pstate := p }
  d.event 1 0x9010 [.h old, .h (stateCode p)]

/-- PWR_DOM2 of the domains that are not clusters or fabrics (R443). -/
def Dev.setDomains (d : Dev) (bits : Nat) : Dev := d.setF (Reg.PWR_DOM 2) 15 8 bits

def domStandby : Nat := 0x74   -- PORCH, NV, HOST, KEY
def domReady : Nat := 0xF7     -- with SP0, SP1 and TRF
def domParked : Nat := 0x04

/-! ## Clusters (R20, R444) -/

/-- The conditions of R20 for powering a cluster down. -/
def Dev.mayPowerDown (d : Dev) (c : Nat) : Bool :=
  !(d.own.map.any (fun p => (p.2 - 1) / 4096 == c)) && !(d.own.remaps.any (fun r => r.engine / 16 == c))
    && !(d.shq.queue.any (fun q => q.engine / 16 == c)) && (d.lvOf c).isEmpty

/-- Whether ClusterPowerRequest asks for a cluster. -/
def Dev.clusterAsked (d : Dev) (c : Nat) : Bool := bitOf (leNat (d.dom Obj.ClusterPowerRequest 0 8)) c

def Dev.clusterPhase (d : Dev) (c : Nat) : Nat := SMap.get (fun _ => 0) d.pwr.clusters c
def Dev.setClusterPhase (d : Dev) (c n : Nat) : Dev :=
  { d with pwr := { d.pwr with clusters := SMap.set (fun _ => 0) d.pwr.clusters c n } }

/-- What an engine's domain leaves of its registers: its window grants, which the start wrote and which stand until the next
start (R22, R419). -/
def windowGrant (k : Nat) : Bool :=
  let a := k % 0x100000000
  decide (0x400E0100 ≤ a) && decide (a < 0x400E0140)

/-- An engine loses its domain: its freeze ends with it (R424). -/
def Dev.engineOff (d : Dev) (e : Nat) : Dev :=
  let d := d.release e 3
  let d : Dev := { d with
    regs := SMap.keep (fun k => k / 0x100000000 != e + 1 || windowGrant k) d.regs
    greg := SMap.keep (fun k => k / 32 != e) d.greg
    vreg := SMap.keep (fun k => k / 256 != e) d.vreg
    lowHeld := SMap.keep (fun k => k / 0x100000000 != e) d.lowHeld
    frame := { d.frame with busy := SMap.keep (fun k => k != e) d.frame.busy } }
  d.setEngine e Eng.reset

/-- A cluster domain goes off with its memories; the region fabric follows its last cluster. -/
def Dev.clusterOff (d : Dev) (c : Nat) : Dev :=
  let d := (clusterEngines c).foldl Dev.engineOff (((d.resumeCluster c).clusterClear c).cacheDrop c)
  let d := d.bankLoss (fun a => decide (2 ^ 32 ≤ a) && decide (a < 2 ^ 48) && (a / 2 ^ 32 - 1) / 16 == c)
  let d := (d.setClusterPhase c 0).setBit (Reg.PWR_DOM (c / 32)) (c % 32) false
  let r := c / 8
  if (List.range 8).any (fun i => d.clusterOn (8 * r + i)) then d else d.setBit (Reg.PWR_DOM 2) r false

/-- A cluster is asked for: it powers up, its region fabric first. -/
def Dev.clusterUp (d : Dev) (c : Nat) : Dev := if d.clusterPhase c = 0 then d.setClusterPhase c 1 else d

/-- A write of ClusterPowerRequest (R444). -/
def Dev.writeClusters (d : Dev) (off : Nat) (b : List Byte) : WRes :=
  if !domRangeOk 8 off b.length then d.no 0x0301
  else
    let old := leNat (d.dom Obj.ClusterPowerRequest 0 8)
    let n := d.setDom Obj.ClusterPowerRequest off b
    let new := leNat (n.dom Obj.ClusterPowerRequest 0 8)
    if (List.range 64).any (fun c => bitOf old c && !bitOf new c && d.clusterPhase c != 0 && !d.mayPowerDown c) then d.no 0x0401
    else
      ((List.range 64).foldl (fun (d : Dev) c =>
        if bitOf new c then d.clusterUp c
        else if d.clusterPhase c ≠ 0 ∧ d.mayPowerDown c then d.clusterOff c else d) n).yes

/-- A cluster that neither R20 nor a request keeps on goes off. -/
def Dev.clusterTidy (d : Dev) : Dev :=
  d.pwr.clusters.foldl (fun (d : Dev) p => if d.clusterAsked p.1 || !d.mayPowerDown p.1 then d else d.clusterOff p.1) d

def Dev.fabricReady (d : Dev) (r : Nat) : Dev :=
  if d.fabricOn && (List.range 8).any (fun i => d.clusterPhase (8 * r + i) != 0) then d.setBit (Reg.PWR_DOM 2) (r % 8) true else d

def Dev.clusterUpDone (d : Dev) (c : Nat) : Dev :=
  if d.fabricOn && d.clusterPhase c == 1 && d.fabOn (c / 8) then
    ((d.clusterClear c).setClusterPhase c 2).setBit (Reg.PWR_DOM (c / 32)) (c % 32) true
  else d

def Dev.clusterCode (d : Dev) (c : Nat) : Dev :=
  if d.fabricOn && d.clusterPhase c == 2 then (d.setClusterPhase c 3).clusterLoad c else d

/-! ## What is kept -/

/-- Objects whose value outlives every reset: what the spec counts since manufacture, boot slots, the image's identity, the ledger
sequence and the start epoch. -/
def keptObj (k : Nat) : Bool :=
  [Obj.DeadboltCount, Obj.AuthFailures, Obj.PowerFailCount, Obj.ThrottleCount, Obj.EventsDropped, Obj.BlocksReErased,
    Obj.PowerFailFlushShort, Obj.StartCount, Obj.FailedStarts, Obj.FailedStartCount, Obj.LastStartKind, Obj.LastFailCause,
    Obj.StartEpoch, Obj.UtcOffset, Obj.ConfigWriteCount, Obj.ConfigWriteFailures, Obj.LedgerNextSeq, Obj.ActiveImage, Obj.PolicyName, Obj.PolicyVersion,
    Obj.SigningKey, Obj.BootImageVersion 0, Obj.BootImageVersion 1, bootSlotKey 0, bootSlotKey 1,
    0x422401, 0x422402, 0x424003].contains k
  || (decide (0x210004 ≤ k) && decide (k ≤ 0x210007)) || (decide (0x423601 ≤ k) && decide (k ≤ 0x423608))

/-- Register blocks whose domains stay on in Standby: time, power dies, power, recorder, metering; the freeze count; and
the baseband where burst tracking retains it (R93). -/
def standbyReg (burst : Bool) (k : Nat) : Bool :=
  let a := k % 0x100000000
  (burst && decide (0x40030000 ≤ a) && decide (a < 0x40040000)) ||
  (decide (0x40020000 ≤ a) && decide (a < 0x40030000)) || (decide (0x40040000 ≤ a) && decide (a < 0x400B0000))
    || (decide (0x400F0000 ≤ a) && decide (a < 0x40120000)) || a == Reg.DB_COUNT

/-- Registers of the porch: calibration, alarms, wake sources; the freeze count, kept since manufacture; and the baseband's, where
burst tracking retains it (R93). -/
def porchReg (burst : Bool) (k : Nat) : Bool :=
  let a := k % 0x100000000
  (burst && decide (0x40030000 ≤ a) && decide (a < 0x40040000)) ||
  (decide (0x40020038 ≤ a) && decide (a < 0x40020068) && a != 0x4002003C) || a == Reg.DB_COUNT
    || a == Reg.PWR_FEED_A || a == Reg.PWR_FEED_B

/-- The next Seq of the beacon streams, which the porch sends (R319, R336). -/
def IbUnit.beaconSeq (u : IbUnit) : SMap Nat := u.txSeq.filter (fun p => p.1 / 0x100 % 0x100 == 0x20)

/-- Values that the porch and the GB domain use while the package is Parked (R93, R317, R336). -/
def parkedObjs : List Nat := [Obj.PackageNumber, Obj.RoundLength, Obj.OpenLength, Obj.RendezvousEnable, Obj.RendezvousOffset, Obj.PorchDriftBound, Obj.BurstHeads,
  Obj.BurstMinLocked, Obj.LockCn0]

/-- Boot slots are flash. -/
def flashByte (k : Nat) : Bool := decide (imageBase 0 ≤ k)

/-- Bytes that outlive the field side's power: flash, and where bursts run the code memory of the GB domain (R93). -/
def keptByte (burst : Bool) (k : Nat) : Bool := flashByte k || (burst && decide (codeBase ≤ k) && decide (k < codeBase + 0x40000))

/-- The host die's firmware, which outlives the field side's power and no reset of the host die (R410, R492). -/
def hostFwByte (k : Nat) : Bool := decide (hostFwBase ≤ k) && decide (k < hostFwBase + hostFwSize)

/-- The heads lose their supplies: no frame counts toward a lock any more. -/
def GnssUnit.headsOff (g : GnssUnit) : GnssUnit :=
  { g with heads := (List.range 4).foldl (fun m n =>
      SMap.set (fun _ => GnssHead.reset) m n { SMap.get (fun _ => GnssHead.reset) m n with good := 0, bad := 0 }) g.heads }

/-- The masters that are frozen. -/
def Dev.frozenMasters (d : Dev) : List Nat :=
  (List.range 1024).filter (fun m => d.frozen m) ++ ((List.range 8).map (· + 0x400)).filter (fun m => d.frozen m)
    ++ ((List.range 8).map (· + 0x410)).filter (fun m => d.frozen m) ++ (if d.frozen 0x420 then [0x420] else [])

def Dev.releaseAll (d : Dev) (means : Nat) : Dev := d.frozenMasters.foldl (fun (d : Dev) m => d.release m means) d

/-- A thermal object of 0x4101 is written to both dies (R221): the object lives in die 0's register, and its field goes to die 1's. -/
def Dev.thermBoth (d : Dev) (sub : Nat) : Dev :=
  match (objRow 0x4101 sub).bind (fun r => r.mirror) with
  | some m => d.setF (m.base + 0x100) m.hi m.lo (d.f m.base m.hi m.lo)
  | none => d

/-- The thermal values of a channel have changed, or it has come up: *T*_used follows, and a coil that is too hot turns off (R213, R215). -/
def Dev.thermChan (d : Dev) (n : Nat) : Dev :=
  let d := d.fixTemp n
  let d := if d.thermStale n then d else d.coilHot n
  if d.stillCooling n && d.energised n then
    let d := d.turnOff n true
    d.setSol n { (d.solOf n) with noConf := true }
  else d

/-- The same for every channel of a die. -/
def Dev.thermDie (d : Dev) (i : Nat) : Dev := (dieSols i).foldl Dev.thermChan d

/-- A stored value goes back to its place (R221, R379). -/
def Dev.storedBack (d : Dev) (idx sub v : Nat) : Dev :=
  let d := d.setObjVal 0 idx sub v
  if idx = 0x4101 then d.thermBoth sub else d

/-- Persistent values as the store holds them, and the stored fail-safe states beside it (R279, R378, R379); boost converters and coil temperatures follow (R198, R213). -/
def Dev.applyStore (d : Dev) (p : Nat → Bool) : Dev :=
  let back (x : Nat × Nat) (d : Dev) : Dev := if p x.1 then d.storedBack (x.1 / 256 % 65536) (x.1 % 256) x.2 else d
  let x := d.dict.failsafe.foldr back (d.nv.foldr back d)
  [0, 1].foldl (fun (x : Dev) i => (x.boostSet i (d.bit (Reg.SOL_DIE_CTRL i) 0)).thermDie i) x

/-- What RestoreDefaults leaves of the stored values: objects below 0x1100, SystemEpochGps, FieldOriginEcef, and what is no
dictionary value of 0x1100 to 0x7FFF (R381). -/
def restoreKeeps (k : Nat) : Bool :=
  let idx := k / 256 % 65536
  decide (idx < 0x1100) || decide (0x7FFF < idx) || k == Obj.SystemEpochGps || idx == 0x3201 || k == Obj.OperatingHours
    || k == Obj.PowerCycleCount

/-- RestoreDefaults takes effect at a start, over every write made before it (R381, R388). -/
def Dev.restoreDefaults (d : Dev) : Dev :=
  if d.dict.defaultsNext then
    { d with
      nv := d.nv.filter (fun p => restoreKeeps p.1)
      nvDom := SMap.keep (fun k => restoreKeeps (k / 0x10000000)) d.nvDom
      dict := { d.dict with defaultsNext := false, failsafe := [] } }
  else d

/-- Whether an object lives in a register outside the blocks that Standby keeps. -/
def mirrorsLost (burst : Bool) (k : Nat) : Bool :=
  let idx := k / 256 % 65536
  let sub := k % 256
  match objRow idx sub with
  | some r => (match r.mirror with | some m => !standbyReg burst (m.addr r idx sub) | none => false)
  | none => false

/-- Copies of units whose domains stay on in Standby (R67): the power dies, the power block, the recorder, the ledger, the host ports. -/
def poweredCopy (a : Nat) : Bool :=
  (decide (0x40040000 ≤ a) && decide (a < 0x400B0000)) || (decide (0x400F0000 ≤ a) && decide (a < 0x40120000)) || decide (2 ^ 48 ≤ a)

/-- With the fabric the endpoint table is lost, and with it what R144 counts of it. -/
def Dev.tableLost (d : Dev) : Dev :=
  let d := (List.range 5).foldl (fun (d : Dev) k => d.setOb (Obj.BoundS + k) 0) d
  ((d.setOb Obj.EndpointsBound 0).setOb Obj.EndpointsFree 262144).setOb Obj.RemapCount 0

/-- A journalled write that has not been committed is given up with its request: the object has its old value. -/
def Dev.journalDrop (d : Dev) (j : Journal) : Dev :=
  let d := if decide (0xA000 ≤ j.idx) && decide (j.idx < 0xB000) then d
    else (d.setDom (objKey 0 j.idx j.sub) j.off j.oldBytes).setObjVal 0 j.idx j.sub j.oldVal
  d.answer j.req 2 j.idx j.sub j.off 0x0401 j.data [] false

/-- Requests still pending are answered 0x0401 as the TRF domain goes off, but for those that the host die serves (R359, R364). The
newest of the writes goes first, so that each object ends with the value it had before them. -/
def Dev.pendingOff (d : Dev) : Dev :=
  let gone (w : Waiting) : Bool := !servedByHost w.idx
  let waiting := (match d.dict.fw with | some w => if w.op = 3 then [] else [w] | none => []) ++ d.dict.fwQueue ++ d.dict.crossing
    ++ d.dict.deferred.filter gone ++ d.dict.held.filter gone
  let lost := d.dict.journal.filter (fun j => !servedByHost j.idx)
  let d : Dev := { d with dict := { d.dict with
    fw := none, fwQueue := [], crossing := []
    deferred := d.dict.deferred.filter (fun w => !gone w), held := d.dict.held.filter (fun w => !gone w)
    journal := d.dict.journal.filter (fun j => servedByHost j.idx) } }
  let d := waiting.foldl (fun (d : Dev) w => d.answer w.req w.op w.idx w.sub w.off 0x0401 w.data [] false) d
  lost.reverse.foldl Dev.journalDrop d

/-- Domains CL, FAB, SP and TRF go off: their memories and registers are lost, freezes in them end, and requests of the field side are
refused (R364, R424, R443). -/
def Dev.fieldSideOff (d : Dev) : Dev :=
  let burst : Bool := d.bit Reg.GB_CTRL 8
  let d := d.pendingOff
  let d := (d.releaseAll 3).resumeAll
  let d : Dev := { d with
    regs := SMap.keep (standbyReg burst) d.regs
    gnss := if burst then d.gnss.headsOff else GnssUnit.reset
    mem := SMap.keep (fun k => keptByte burst k || hostFwByte k) d.mem
    eng := [], greg := [], vreg := [], lowHeld := [], shadows := [], dieStopped := 0, dieClk := []
    own := Own.reset, frame := FrameUnit.reset, look := Look.reset, shq := Shutter.reset
    led := { Ledger.reset with held := d.led.held }
    latch := { LatchUnit.reset with
      counter := d.latch.counter, bank0 := d.latch.bank0.keep poweredCopy, bank1 := d.latch.bank1.keep poweredCopy }
    tmst := TimeMaster.reset, htime := HostTime.reset
    sill := []
    ib := { IbUnit.reset with
      partners := d.ib.partners, beaconTick := d.ib.beaconTick, wakePorts := d.ib.wakePorts, busAt := d.ib.busAt, txSeq := d.ib.txSeq
      beaconEnd := d.ib.beaconEnd, dupNumber := d.ib.dupNumber }
    tr := { Transom.reset with keyhole := d.tr.keyhole, fwStop := d.tr.fwStop }
    pair := PairUnit.reset
    pwr := { d.pwr with clusters := [], halveNext := 0, restore := 0 }
    sec := { d.sec with halts := [] }
    dict := { d.dict with fwObjs := [], dictEngine := 0xFFFF, restores := [] } }
  let d := (d.applyStore (mirrorsLost burst)).tableLost
  let d := ((d.wr (Reg.PWR_DOM 0) 0).wr (Reg.PWR_DOM 1) 0).wr (Reg.PWR_DOM 2) 0
  let d := if burst then d.setF Reg.GB_STATUS 3 0 0 else d
  ((d.setF Reg.PWR_STATUS 11 8 0).fixLanes.setOb Obj.HostStopState 0).closeUpdate 0

/-- Every domain but the porch is reset: what flash, porch and security block hold stays (R492). -/
def Dev.allReset (d : Dev) (burst : Bool) : Dev :=
  let d := d.flashCut
  { Dev.reset with
    regs := SMap.keep (porchReg burst) d.regs
    objs := SMap.keep keptObj d.objs
    mem := SMap.keep (keptByte burst) d.mem
    nv := d.nv, nvDom := d.nvDom, out := d.out, fresh := d.fresh, pstate := d.pstate
    time := { FtUnit.reset with
      ft := d.time.ft, parkSrc := if d.fabricOn then d.ftSrc else d.time.parkSrc, carryDue := true }
    clk := d.clk
    porch := d.porch
    latch := { LatchUnit.reset with counter := d.latch.counter }
    led := { Ledger.reset with held := d.led.held }
    disc := d.disc
    ib := { IbUnit.reset with
      partners := d.ib.partners, beaconTick := d.ib.beaconTick, wakePorts := d.ib.wakePorts, busAt := d.ib.busAt
      txSeq := d.ib.beaconSeq, beaconEnd := d.ib.beaconEnd, dupNumber := d.ib.dupNumber }
    dict := { DictSrv.reset with
      entries := d.dict.entries, half := d.dict.half, defaultsNext := d.dict.defaultsNext, failsafe := d.dict.failsafe }
    gnss := if burst then d.gnss else GnssUnit.reset
    sec := { Security.reset with log := d.sec.log, keys := d.sec.keys, secrets := d.sec.secrets, sessions := d.sec.sessions }
    flash := d.flash
    mtr := { Metering.reset with wallSet := d.mtr.wallSet }
    rcd := { Recorder.reset with
      frNext := d.rcd.frNext, staged := d.rcd.staged, stagedAt := d.rcd.stagedAt, forerunner := d.rcd.forerunner }
    pwr := { PowerUnit.reset with holdupAt := d.pwr.holdupAt }
    start := d.start }

/-! ## Power dies -/

/-- A feed's voltage in mV. -/
def Dev.feedMv (d : Dev) (n : Nat) : Nat := d.f (Reg.PWR_FEED_A + 4 * n) 15 0

/-- The dies' feed is VIN, which the higher of the two feeds carries (R438). -/
def Dev.dieFeeds (d : Dev) : Dev :=
  let vin := wd (max (d.feedMv 0) (d.feedMv 1))
  [0, 1].foldl (fun (d : Dev) i => (d.wr (Reg.LS_FEED_V i) vin).wr (Reg.SOL_FEED_V i) vin) d

/-- The power dies come out of reset: watchdogs DISARMED, every line channel reads CLOSE, pairs SAFE with their latched discrepancies,
chains as before first entering Field (R231, R277, R283, R286, R493). -/
def Dev.powerDieReset (d : Dev) : Dev :=
  let keepReg (k : Nat) : Bool :=
    let a := k % 0x100000000
    !(decide (0x40050000 ≤ a) && decide (a < 0x400B0000))
  let d : Dev := { d with
    regs := SMap.keep keepReg d.regs
    sol := [], solDie := [], lv := [], trigLine := [], hg := [], hgWin := [], hgWins := [], hyst := [], ls := [], dioOn := []
    dioIn := [], dioAsk := [], groupLow := 0, loadDie := [], ai := [], pairAt := [], sinTickAt := []
    lvChain := [] }
  let d := [0, 1].foldl (fun (d : Dev) i => (d.setChain i { LvChain.reset with early := true }).chainNote i 0) d
  let d := (List.range 8).foldl (fun (d : Dev) p => d.wr (Reg.SIN_STATUS p) (wd (if d.discLatched p then 2 else 0))) d
  let d := [0, 1].foldl (fun (d : Dev) i => (d.wr (Reg.ACL_STATUS i) 0).aclUpdate i) d.dieFeeds
  let d := [0, 1].foldl (fun (d : Dev) i => (d.boostFrom i).thermDie i) d
  d.closeUpdate 2

/-! ## Field origin (R99, R100) -/

def Dev.originBytes (d : Dev) : List Byte := (leBytes (d.ob (Obj.FieldOriginEcef 0)) 8) ++ (leBytes (d.ob (Obj.FieldOriginEcef 1)) 8)
  ++ (leBytes (d.ob (Obj.FieldOriginEcef 2)) 8)

/-- FieldOriginCheck follows the coordinates. -/
def Dev.originUpdate (d : Dev) : Dev := d.setOb Obj.FieldOriginCheck (crc16 d.originBytes)

/-- The configuration takes effect: the channels of enabled pairs are members again (R281), and outputs follow the stored fail-safe
states. -/
def Dev.afterConfig (d : Dev) : Dev :=
  let d := if d.nv.any (fun x => x.1 / 256 % 65536 == 0x3201) then d.originUpdate else d
  let d := ((List.range 8).filter (fun p => d.pairOn p)).foldl Dev.pairJoin d
  let d := ((d.closeUpdate 2).solSettleDie 0 |>.solSettleDie 1).dieConds 0 |>.dieConds 1
  [0, 1].foldl (fun (d : Dev) i => if d.bit (Reg.AI_SUP i) 0 then d else d.supplySet i false) d

/-! ## States -/

/-- The partners that the rendezvous unit meets on the enabled ports: the pair partner, and nodes that join rendezvous (R336). -/
def Dev.partnersBuild (d : Dev) : Dev :=
  let drift := d.ob Obj.PorchDriftBound
  let mk (port who dr : Nat) : Partner :=
    { port := port, who := who, drift := dr, heardTick := d.porch.ticks, lost := false, tries := 0, gaveUp := false, tryTick := 0, seq := none
      wakeDue := false }
  let pair := if d.ob Obj.PairRole = 0 then [] else [mk (d.ob Obj.PairBus) (d.ob Obj.PairPartner) drift]
  let nodes := (d.ib.nodes.filter (fun n => n.sleepOk)).map (fun n => mk n.port (0x3E00 + n.node) n.drift)
  let ports := (List.range 4).filter (fun p => d.bit (Reg.IB_CTRL p) 31)
  { d with ib := { d.ib with partners := (pair ++ nodes).filter (fun x => ports.contains x.port), wakePorts := ports, busAt := [] } }

/-- The package is in Standby: fast clocks and field side off (R445). -/
def Dev.toStandby (d : Dev) : Dev :=
  let d := ((d.writeHists).parkTime).partnersBuild
  let d := d.enter .standby
  let d : Dev := { d with clk := { d.clk with requests := [], idleTick := d.porch.ticks, pll := 0 } }
  (d.fieldSideOff).setDomains domStandby

/-- Standby to Parked: mirror first, then everything but the porch is off. The flash keeps its power until every page that waits is
written: DESIGN CHOICE. -/
def Dev.toParked (d : Dev) : Dev :=
  let d := (d.writeHists).porchMirror.flashDrain
  let d := d.enter .parked
  let vals := parkedObjs.map (fun k => d.ob k)
  let d := (d.allReset (d.bit Reg.GB_CTRL 8)).setDomains domParked
  parkedObjs.foldl (fun (d : Dev) k => d.setOb k (vals.getD (parkedObjs.idxOf k) 0)) d

/-- Parked to Standby: the host die and the power dies are powered, and hold their configuration (R30, R445). -/
def Dev.toStandbyFromParked (d : Dev) : Dev :=
  let d := (d.enter .standby).powerDieReset
  let d : Dev := { d with domb := d.nvDom }
  ((d.applyStore (fun _ => true)).afterConfig).setDomains domStandby

/-- Every feed is gone: nothing is held but what flash and the security block hold, and the mirror (R440). -/
def Dev.toOff (d : Dev) : Dev :=
  let lost := d.rcd.staged.length
  let entries := d.flash.lostEntries + d.flash.unwritten
  let m := d
  let count := d.rd Reg.DB_COUNT
  let d := d.allReset false
  let d : Dev := { d with
    pstate := .off, regs := [], clk := Clocks.reset
    time := FtUnit.reset
    porch := { Porch.reset with
      opTicks := m.mirrored Obj.OperatingHours * 32768, powerCycles := m.mirrored Obj.PowerCycleCount
      bootAttempts := m.mirrored mirrorBoot }
    disc := m.mirrored mirrorDisc
    sec := { d.sec with sessions := [] }
    ib := IbUnit.reset
    rcd := { Recorder.reset with frNext := d.rcd.frNext }
    mtr := { Metering.reset with wallSet := m.mirrored mirrorWall == 1 }
    flash := { d.flash with lostRecords := lost, lostEntries := entries } }
  let d := d.setOb Obj.UtcOffset (m.mirrored Obj.UtcOffset)
  d.wr Reg.DB_COUNT count

end Sys2Proof.Machine
end

