-- ==== Sys2Proof/Machine/Trig.lean ====
section
/-! DEFINITION. FSCT and FANG (R398): sine, cosine and angle in fixed point with 120 fraction bits, far finer than the stated two units
in the last place; what is left open within that bound is a free error. -/
namespace Sys2Proof.Machine

/-- One, and π, in units of 2^−120. -/
def fixOne : Int := 2 ^ 120
def fixPi : Nat := 4175892906503776358826876457663557747

/-- Terms of the Taylor series: `t` the present term, `n` its power, `x2` the square of the angle. -/
def taylor (x2 : Int) : Nat → Int → Int → Int → Int
  | 0, _, _, acc => acc
  | k + 1, n, t, acc =>
    let t' := -(t * x2 / fixOne) / ((n + 1) * (n + 2))
    taylor x2 k (n + 2) t' (acc + t')

/-- The angle `r`·2^−32 turn in radians, for `r` up to a quarter turn. -/
def fixAngle (r : Nat) : Int := ((r * fixPi / 2 ^ 31 : Nat) : Int)

def fixSin (r : Nat) : Int :=
  let x := fixAngle r
  taylor (x * x / fixOne) 18 1 x x
def fixCos (r : Nat) : Int :=
  if r = 2 ^ 30 then 0
  else
    let x := fixAngle r
    taylor (x * x / fixOne) 18 0 fixOne fixOne

/-- Sine and cosine of a U32 fraction of a turn (R101). -/
def turnSin (a : Nat) : Int :=
  let r := a % 2 ^ 30
  match a / 2 ^ 30 % 4 with
  | 0 => fixSin r
  | 1 => fixCos r
  | 2 => -(fixSin r)
  | _ => -(fixCos r)
def turnCos (a : Nat) : Int := turnSin ((a + 2 ^ 30) % 2 ^ 32)

/-- `w` moved by `e` units in the last place, held at zero. -/
def ulps (w : Word) (e : Int) : Word := wd (signBit (fNeg w) + (((w.toNat % 2 ^ 31 : Nat) : Int) + e).toNat)

/-- The free error of FSCT, at most two units. -/
def sctErr (which : Nat) (a : Word) : Int := clampI (-2) 2 (Config.trigError which a.toNat)

def fSin (a : Word) : Word := ulps (fOfRat (turnSin a.toNat) (2 ^ 120)) (sctErr 0 a)
def fCos (a : Word) : Word := ulps (fOfRat (turnCos a.toNat) (2 ^ 120)) (sctErr 1 a)

/-- The greatest `r` up to a quarter turn, found bit by bit, whose sine to cosine does not exceed `s` to `c`, both not negative. -/
def angleBits (s c : Int) : Nat → Nat → Nat
  | 0, r => r
  | n + 1, r =>
    let r' := r + 2 ^ n
    if r' ≤ 2 ^ 30 ∧ fixSin r' * c ≤ fixCos r' * s then angleBits s c n r' else angleBits s c n r

/-- The angle of a pair, as a fraction of a turn, rounded down within its quadrant. -/
def pairAngle (s c : Int) : Nat :=
  if 0 ≤ s then (if 0 < c then angleBits s c 31 0 else 2 ^ 30 + angleBits (-c) s 31 0)
  else if c < 0 then 2 ^ 31 + angleBits (-s) (-c) 31 0
  else 3 * 2 ^ 30 + angleBits c (-s) 31 0

/-- Two units in the last place of an F32 of this size, at least one whole unit of the result. -/
def angErr (r : Nat) : Nat := if Nat.log2 r < 22 then 1 else 2 ^ (Nat.log2 r - 22)

/-- FANG. -/
def fAng (s c : Word) : Word :=
  if fFinite s && fFinite c && !(fZero s && fZero c) then
    let r := pairAngle (fInt s) (fInt c)
    wd (unsx 32 (r + clampI (-(angErr r : Int)) (angErr r) (Config.trigError 2 (s.toNat + 2 ^ 32 * c.toNat))))
  else Config.noAngle s c

end Sys2Proof.Machine
end

