-- ==== Sys2Proof/Machine/GnssOps.lean ====
section
/-! DEFINITION. The GNSS baseband: antenna heads, tracking channels, dump ring, acquisition, measurement records and bursts
(R72 to R98). -/
namespace Sys2Proof.Machine

def Dev.chan (d : Dev) (c : Nat) : GnssChan := SMap.get (fun _ => GnssChan.reset) d.gnss.chans c
def Dev.setChan (d : Dev) (c : Nat) (x : GnssChan) : Dev :=
  { d with gnss := { d.gnss with chans := SMap.set (fun _ => GnssChan.reset) d.gnss.chans c x } }
def Dev.head (d : Dev) (n : Nat) : GnssHead := SMap.get (fun _ => GnssHead.reset) d.gnss.heads n
def Dev.setHead (d : Dev) (n : Nat) (x : GnssHead) : Dev :=
  { d with gnss := { d.gnss with heads := SMap.set (fun _ => GnssHead.reset) d.gnss.heads n x } }

/-- The baseband has its domain and its clock (R40). -/
def Dev.gbClock (d : Dev) : Bool := d.bit (Reg.PWR_DOM 2) 11 && bitOf d.clk.pll 4

/-- Channels and links run: under GB_CTRL, or within a burst (R93), once the baseband's PLL reports lock (R40). -/
def Dev.gnssOn (d : Dev) : Bool := bitOf d.clk.pll 4 && ((d.fabricOn && d.bit Reg.GB_CTRL 0) || d.gnss.bursting)

/-- A channel that runs: enabled, and in a burst between wakes only those of CH_CFG.BURST. -/
def Dev.chanOn (d : Dev) (c : Nat) : Bool :=
  decide (c < 192) && d.gnssOn && d.bit (Reg.CH_CFG c) 31 && (d.fabricOn || d.bit (Reg.CH_CFG c) 30)

/-- Hardware loops under a configuration: HW_LOOP, and while a burst lasts always for its channels (R84, R93). -/
def Dev.hwLoopOf (d : Dev) (cfg : Word) : Bool := fbit cfg 29 || (d.gnss.bursting && fbit cfg 30)
def Dev.hwLoop (d : Dev) (c : Nat) : Bool := d.hwLoopOf (d.rd (Reg.CH_CFG c))

/-- The primary code period of a signal in ms (R72); 0 for the reserved codes. -/
def codePeriod (sig : Nat) : Nat :=
  match sig with
  | 0 => 1 | 1 => 1 | 2 => 4 | 3 => 1 | 4 => 10 | 5 => 1 | _ => 0

/-- Chips of a signal's primary code (R72). -/
def codeChips (sig : Nat) : Nat :=
  match sig with
  | 0 => 1023 | 2 => 4092 | _ => 10230

/-- Whether a SVID belongs to a signal's constellation (CH_CFG). -/
def svidOk (sig v : Nat) : Bool :=
  match sig with
  | 0 | 1 => decide (1 ≤ v) && decide (v ≤ 32)
  | 2 | 3 => decide (1 ≤ v) && decide (v ≤ 50)
  | 4 | 5 => decide (1 ≤ v) && decide (v ≤ 63)
  | _ => false

/-- Whether a signal lies in the L5 band. -/
def bandL5 (sig : Nat) : Bool := sig == 1 || sig == 3 || sig == 5

/-! ## Heads (R74 to R79, R96) -/

/-- A head has its supply (R74, R93, R96). -/
def Dev.headSupplied (d : Dev) (n : Nat) : Bool :=
  decide (n < 4) && (d.head n).tripped == 0 &&
    ((d.fabricOn && d.bit Reg.GB_CTRL 0 && d.bit Reg.GB_CTRL (4 + n) && d.f (Reg.AH_CTRL n) 1 0 != 0)
      || (d.gnss.bursting && bitOf (d.ob Obj.BurstHeads) n))

/-- A head has its supply and its clock, and its link runs (R40, R74). -/
def Dev.headOn (d : Dev) (n : Nat) : Bool := d.headSupplied n && bitOf d.clk.pll 5

def Dev.headLocked (d : Dev) (n : Nat) : Bool := d.bit Reg.GB_STATUS n

/-- HeadLinkState. -/
def Dev.headState (d : Dev) (n : Nat) : Nat :=
  if (d.head n).tripped ≠ 0 then 3 else if !d.headOn n then 0 else if d.headLocked n then 2 else 1

/-- A control frame on CTL: command, two arguments, CRC-8 (R78). -/
def Dev.headFrame (d : Dev) (n cmd a b : Nat) : Dev :=
  d.emit .head n cmd [a, b, crc8 0x07 0 [BitVec.ofNat 8 cmd, BitVec.ofNat 8 a, BitVec.ofNat 8 b]]

/-- The whole set for one head. -/
def Dev.headSet (d : Dev) (n : Nat) : Dev :=
  let w := d.rd (Reg.AH_CTRL n)
  let d := d.headFrame n 1 (fld w 5 4) 0
  let d := d.headFrame n 2 (fld w 7 7) (fld w 15 8)
  d.headFrame n 3 (fld w 6 6) 0

/-- The first request in the queue starts its capture, once the baseband's PLL reports lock (R40, R88). -/
def Dev.acqBegin (d : Dev) (t : Nat) : Dev :=
  match d.gnss.acqQ.head? with
  | none => d
  | some r =>
    if d.gnss.acqPhase = 0 ∧ d.gbClock then
      { d with gnss := { d.gnss with acqPhase := 1, acqAt := t + r.getD 7 1 * 1000000 } }
    else d

/-- The running search, which counts among the 8 requests, ends with a result code. ACQ_STATUS holds RESULT in bits 2:0, a busy bit 4 and
the number of requests in bits 11:8; ACQ_CMD 1 requests and 2 cancels (DESIGN CHOICE: no rule lays these words out); the next in the queue starts its capture (R88 to R90). -/
def Dev.acqEnd (d : Dev) (t result : Nat) : Dev :=
  let q := d.gnss.acqQ.drop 1
  let d := d.setF Reg.ACQ_STATUS 2 0 result
  let d := Dev.acqBegin { d with gnss := { d.gnss with acqQ := q, acqPhase := 0, acqAt := 0 } } t
  (d.setF Reg.ACQ_STATUS 11 8 q.length).setBit Reg.ACQ_STATUS 4 (!q.isEmpty)

/-- Byte `m` of a status frame: bits 9:8 of four symbols, the first the most significant pair (R76). -/
def sideByte (syms : List Nat) (m : Nat) : Byte :=
  BitVec.ofNat 8 (((syms.drop (4 * m)).take 4).foldl (fun a s => 4 * a + bitsOf s 9 8) 0)

/-- The 1,023 bytes of a status frame of 4,092 symbols. -/
def sideBytes (syms : List Nat) : List Byte := (List.range 1023).map (sideByte syms)

/-- Sync and Crc of a status frame are good. -/
def frameGood (b : List Byte) : Bool := b.take 4 == [0xA7, 0x1C, 0x5E, 0x92] && leAt b 1021 2 == crc16 (b.take 1021)

/-- A link is lost: its status is stale, its channels carry LINK_LOST, a capture on it ends with RESULT 3 (R77, R90, R96). -/
def Dev.headLost (d : Dev) (t n why : Nat) : Dev :=
  if !d.headLocked n then d
  else
    let d := (d.setBit Reg.GB_STATUS n false).incOb (Obj.HeadLinkLossCount n)
    let d := (d.setHead n { (d.head n) with stale := true }).event 0 0x2001 [.h n, .h why]
    match d.gnss.acqQ.head? with
    | some r => if r.getD 0 0 = n ∧ d.gnss.acqPhase = 1 then d.acqEnd t 3 else d
    | none => d

/-- A link is locked; the first of a burst starts its 20 ms of tracking (R77, R94). -/
def Dev.headLock (d : Dev) (n type version : Nat) : Dev :=
  let first : Bool := d.gnss.bursting && d.gnss.trackTick.isNone
  let d : Dev := if first then { d with gnss := { d.gnss with trackTick := some d.porch.ticks } } else d
  (d.setBit Reg.GB_STATUS n true).event 0 0x2002 [.h n, .h type, .h version]

/-- A good status frame whose Sync lies at symbol position `place` (R76, R77). -/
def Dev.headGood (d : Dev) (t n place : Nat) (b : List Byte) : Dev :=
  let h := d.head n
  let lo := bitOf (byteAt b 9) 0
  let good := if lo then 0 else if h.place = place then min 2 (h.good + 1) else 1
  let d := d.setHead n { h with
    good := good, place := place, frames := leAt b 10 4, bad := 0, at_ := t
    headType := byteAt b 4, version := byteAt b 5, temperature := sx 8 (byteAt b 8), stale := false }
  let d := d.wr (Reg.AH_STATUS n) (wd (leAt b 6 4))
  let d := ((d.setOb (Obj.HeadAgcL1 n) (byteAt b 6)).setOb (Obj.HeadAgcL5 n) (byteAt b 7)).setOb
    (Obj.HeadTemperature n) (unsx 16 (sx 8 (byteAt b 8)))
  if lo then d.headLost t n 2
  else if !d.headLocked n && decide (2 ≤ good) then d.headLock n (byteAt b 4) (byteAt b 5)
  else d

/-- A frame with a bad Sync or Crc: its status bytes are discarded; the third in a row loses the link. -/
def Dev.headBad (d : Dev) (t n : Nat) : Dev :=
  let h := d.head n
  let d := d.setHead n { h with good := 0, bad := min 3 (h.bad + 1) }
  let d := d.wr (Reg.AH_ERR n) (d.rd (Reg.AH_ERR n) + 1)
  if 3 ≤ h.bad + 1 then d.headLost t n 1 else d

/-- A head loses its supply or its enable: its link is lost (R95). -/
def Dev.headDrop (d : Dev) (t n : Nat) : Dev :=
  if d.headOn n then d else (d.headLost t n 3).setHead n { (d.head n) with good := 0, bad := 0 }

/-! ## Tracking channels (R81 to R86) -/

def Dev.linkLost (d : Dev) (c : Nat) : Bool := !d.headLocked (d.f (Reg.CH_CFG c) 10 9)

/-- Flags of a channel's record under a configuration (R91), and bits 9:0 of CH_STATE; a channel that is not enabled has none. -/
def Dev.chanFlags (d : Dev) (c : Nat) (cfg : Word) (burst : Bool) : Nat :=
  let x := d.chan c
  let pilot := fbit cfg 14
  if !(fbit cfg 31) then 0
  else b2n x.codeLock + 2 * b2n x.carrLock + 4 * b2n x.freqLock + 8 * b2n (pilot || x.signKnown) + 16 * b2n pilot
    + 32 * b2n (!d.headLocked (fld cfg 10 9)) + 64 * b2n (d.hwLoopOf cfg) + 128 * b2n burst + 256 * b2n (decide (4 ≤ x.coast)) + 512

/-- Chips per second of a signal's code (R72). -/
def chipRate (sig : Nat) : Nat := if sig = 0 ∨ sig = 2 ∨ sig = 4 then 1023000 else 10230000

/-- What the code oscillator gains in `ps` picoseconds at a rate of `off` µchip/s from nominal, in 2^−32 chip. -/
def codeGain (sig : Nat) (off ps : Int) : Int :=
  ((chipRate sig : Int) * 1000000 + off) * ps * 4294967296 / 1000000000000000000

/-- What the carrier oscillator gains in `ps` picoseconds at `rate` mHz, in 2^−32 cycle. -/
def carrGain (rate ps : Int) : Int := rate * ps * 4294967296 / 1000000000000000

/-- Code and carrier phase of a channel on signal `sig`, `ps` picoseconds after its oscillators' mark. -/
def Dev.ncoAt (d : Dev) (c sig : Nat) (ps : Int) : Nat × Int :=
  let x := d.chan c
  let code := ((x.codeNco : Int) + codeGain sig (d.rdI (Reg.CH_CODE_RATE c)) ps) % ((codeChips sig * 4294967296 : Nat) : Int)
  (code.toNat, x.carrNco + carrGain (d.rdI (Reg.CH_CARR_RATE c)) ps)

/-- The oscillators of a channel are brought to the present; through sleep they advance by the porch tick count (R93). -/
def Dev.ncoNow (d : Dev) (c : Nat) : Dev :=
  let x := d.chan c
  let now := d.sleepFt
  let p := d.ncoAt c (d.f (Reg.CH_CFG c) 13 11) (((now : Int) - x.ncoFt) * 1000)
  d.setChan c { x with codeNco := p.1, carrNco := p.2, ncoFt := now }

/-- A channel that is enabled starts afresh; where its code phase starts, no rule says. -/
def Dev.chanStart (d : Dev) (c : Nat) : Dev :=
  let start := (Config.freeWord d.fresh).toNat % codeChips (d.f (Reg.CH_CFG c) 13 11) * 4294967296
  let x := d.chan c
  ((d.setChan c { GnssChan.reset with
    codeNco := start, ncoFt := d.sleepFt, loopRate := d.rdI (Reg.CH_CARR_RATE c), cfgAt := x.cfgAt, cfgOld := x.cfgOld }).wr (Reg.CH_CN0 c) 0).bump

/-- One sum of a dump entry: shifted right by SHIFT and saturated at I16 (R83). -/
def dumpSum (shift : Nat) (s : Int) : Nat := unsx 16 (clampI (-32768) 32767 (s / ((2 ^ shift : Nat) : Int)))

/-- The eight sums of a dump entry. -/
def Dev.dumpSums (d : Dev) (c : Nat) (sums : List Int) : List Byte :=
  ((List.range 8).map (fun i => leBytes (dumpSum (d.f (Reg.CH_CFG c) 27 24) (sums.getD i 0)) 2)).flatten

/-- An overrun episode ends when an entry goes into the ring again: 0x2004 with the entries dropped in it. -/
def Dev.dumpResumed (d : Dev) : Dev :=
  if d.gnss.overrun then
    ({ d with gnss := { d.gnss with overrun := false, overDropped := 0 } } : Dev).event 0 0x2004 [.w d.gnss.overDropped]
  else d

/-- A dump entry goes into the ring, or is dropped when the ring is full or its writer frozen (R86, R423). A ring that has no length yet,
GB_DUMP_LEN 0, takes no entry and counts as full (DESIGN CHOICE). -/
def Dev.dumpPut (d : Dev) (c t : Nat) (sums : List Int) : Dev :=
  let len := (d.rd Reg.GB_DUMP_LEN).toNat
  let at_ := (d.rd Reg.GB_DUMP_WR).toNat % len
  let tail := (d.rd Reg.GB_DUMP_RD).toNat
  let next := (at_ + 1) % len
  let cl := d.f Reg.GB_DUMP_BASE 31 26
  if !d.clusterOn cl then d
  else if len = 0 ∨ next = tail % len ∨ d.frozen 0x410 then
    let d := d.incOb Obj.DumpOverrunCount
    { d with gnss := { d.gnss with overrun := true, overDropped := d.gnss.overDropped + 1 } }
  else
    let x := d.chan c
    let flags := b2n (d.linkLost c) + 2 * b2n (decide (4 ≤ x.coast)) + 4 * b2n x.secSync + 8 * b2n (d.hwLoop c)
    let entry := leBytes d.gnss.dumpSeq 2 ++ leBytes c 1 ++ leBytes flags 1 ++ leBytes t 8 ++ leBytes x.periods 4 ++ d.dumpSums c sums
    let fill := (at_ + len - tail % len) % len
    let thr := (d.rd Reg.GB_DUMP_THR).toNat
    let d := (d.setBytes (sharedBase cl + d.f Reg.GB_DUMP_BASE 18 0 + 32 * at_) entry).wr Reg.GB_DUMP_WR (wd next)
    let d := ({ d with gnss := { d.gnss with dumpSeq := (d.gnss.dumpSeq + 1) % 65536 } } : Dev).dumpResumed
    if fill < thr ∧ thr ≤ fill + 1 then
      (List.range 16).foldl (fun (d : Dev) i => d.raise (16 * cl + i) 5) d
    else d

/-- C/N0 as it reads (R85). -/
def cn0Read (v : Nat) : Nat := if v < 1500 then 0 else min 6000 v

/-- Twenty bits and more of a binary logarithm's fraction: `n` squarings of a mantissa of 64 fraction bits. -/
def log2Bits (m : Nat) : Nat → Nat → Nat
  | 0, a => a
  | n + 1, a =>
    let s := m * m / 2 ^ 64
    if 2 ^ 65 ≤ s then log2Bits (s / 2) n (2 * a + 1) else log2Bits s n (2 * a)

/-- 1,000 log10 (num / den) rounded, for num ≥ den > 0. -/
def milliBel (num den : Nat) : Nat :=
  let e := Nat.log2 (num / den)
  let m := num * 2 ^ 64 / (den * 2 ^ e)
  let l := e * 2 ^ 40 + log2Bits m 40 0
  (l * 30102999566398119521 * 1000 / 100000000000000000000 + 2 ^ 39) / 2 ^ 40

/-- C/N0 in 0.01 dB-Hz from the prompt sums of a window of integrations of `ms`: with M integrations, narrowband power N and wideband
power W, (N/W − 1) / (M − N/W) per integration time (R85). -/
def windowCn0 (win : List (Int × Int)) (ms : Nat) : Nat :=
  let i : Int := (win.map (fun p => p.1)).sum
  let q : Int := (win.map (fun p => p.2)).sum
  let n := (i * i + q * q).toNat
  let w := ((win.map (fun (p : Int × Int) => p.1 * p.1 + p.2 * p.2)).sum : Int).toNat
  let num := (n - w) * 1000
  let den := (win.length * w - n) * ms
  if n ≤ w then 0 else if den = 0 then 6000 else if num < den then 0 else cn0Read (milliBel num den)

/-- cos 2φ of a prompt sum in 10^−12; a sum of 0 has no phase and counts as 0. -/
def cos2 (p : Int × Int) : Int :=
  let w := p.1 * p.1 + p.2 * p.2
  if w = 0 then 0 else (p.1 * p.1 - p.2 * p.2) * 1000000000000 / w

/-- The mean of cos 2φ over a window lies above 0.8 (R85). -/
def phaseHolds (win : List (Int × Int)) : Bool :=
  decide (800000000000 * (win.length : Int) < (win.map cos2).sum)

/-- The sums as the correlators of a channel give them: zero samples on a lost link, no P2 for GPS L1 C/A (R77, R82). -/
def Dev.chanSums (d : Dev) (c : Nat) (sums : List Int) : List Int :=
  let noP2 : Bool := d.f (Reg.CH_CFG c) 13 11 == 0
  (List.range 8).map (fun i => if d.linkLost c || (noP2 && decide (6 ≤ i)) then 0 else sums.getD i 0)

/-- A fraction of a turn in 2^−32, as a signed angle. -/
def signedTurn (a : Nat) : Int := sx 32 a

/-- The carrier discriminator on a prompt sum, 2^−32 cycle (R84): the angle on pilots, the Costas angle, blind to the sign of the data, on
data; a sum of 0 has no angle and counts as 0. -/
def carrDisc (pilot : Bool) (p : Int × Int) : Int :=
  if p.1 = 0 ∧ p.2 = 0 then 0
  else if !pilot && decide (p.1 < 0) then signedTurn (pairAngle (-p.2) (-p.1))
  else signedTurn (pairAngle p.2 p.1)

/-- The size of an early or late sum in 2^−16. -/
def envelope (p : Int × Int) : Int := ((isqrt ((p.1 * p.1 + p.2 * p.2).toNat * 2 ^ 32) : Nat) : Int)

/-- The normalised early-minus-late envelope, 2^−32 (R84). -/
def codeDisc (e l : Int × Int) : Int :=
  let n := envelope e + envelope l
  if n = 0 then 0 else (envelope e - envelope l) * 4294967296 / n

/-- The code rate that a carrier rate of `mhz` brings with it, µchip/s (R72, R84). -/
def carrierAid (sig : Nat) (mhz : Int) : Int := mhz * (chipRate sig * 1000 : Nat) / ((if bandL5 sig then 1176450000 else 1575420000 : Nat) : Int)

/-- What a loop makes of a discriminator's value: the gain of loop `k` (0 and 1 the PLL's proportional and integral path, 2 the FLL, 3 the
DLL) at its bandwidth code and the integration's length. R84 gives orders and bandwidths, and no loop constants. -/
def loopStep (k code ms : Nat) (disc : Int) : Int := Config.loopGain k code ms * disc / 4294967296

/-- The hardware loops of one integration (R84): a second-order carrier PLL, assisted by a first-order FLL until phase lock, and a
first-order DLL aided by the carrier. -/
def Dev.loopRates (d : Dev) (c : Nat) (sums : List Int) : Dev :=
  let x := d.chan c
  let cfg := d.rd (Reg.CH_CFG c)
  let w := d.rd (Reg.CH_LOOP c)
  let ms := fld cfg 19 15
  let at_ (i : Nat) : Int × Int := (sums.getD i 0, sums.getD (i + 1) 0)
  if d.hwLoop c then
    let e := carrDisc (fbit cfg 14) (at_ 2)
    let assist := if x.carrLock then 0 else loopStep 2 (fld w 5 4) ms (Config.freqDisc (x.win.headD (0, 0)) (at_ 2))
    let mean := clampI (-50000000) 50000000 (x.loopRate + loopStep 1 (fld w 2 0) ms e + assist)
    let carr := clampI (-50000000) 50000000 (mean + loopStep 0 (fld w 2 0) ms e)
    let code := clampI (-100000000) 100000000 (carrierAid (fld cfg 13 11) carr + loopStep 3 (fld w 10 8) ms (codeDisc (at_ 0) (at_ 4)))
    ((d.setChan c { x with loopRate := mean }).wr (Reg.CH_CARR_RATE c) (wi carr)).wr (Reg.CH_CODE_RATE c) (wi code)
  else d.setChan c { x with loopRate := d.rdI (Reg.CH_CARR_RATE c) }

/-- What one integration leaves in its channel (R84, R85); the accumulated carrier counts from the rise of CARRIER_LOCK. -/
def Dev.chanUpdate (d : Dev) (c periods : Nat) (sums : List Int) : Dev :=
  let d := d.ncoNow c
  let x := d.chan c
  let ms := d.f (Reg.CH_CFG c) 19 15
  let p := codePeriod (d.f (Reg.CH_CFG c) 13 11)
  let n := if x.aligning ∨ p = 0 then periods else ms / p
  let win := ((sums.getD 2 0, sums.getD 3 0) :: x.win).take 20
  let cn := windowCn0 win ms
  let thr := d.ob Obj.LockCn0
  let lock := if thr ≤ cn then true else if cn < thr - 200 then false else x.codeLock
  let carr := phaseHolds win
  let d := (d.wr (Reg.CH_CN0 c) (wd cn)).loopRates c sums
  let d := d.setChan c { (d.chan c) with
    periods := (x.periods + n) % 2 ^ 32
    coast := if d.hwLoop c then 0 else min 4 (x.coast + 1)
    lockMs := if lock then min 0xFFFFFFFF (x.lockMs + ms) else 0
    losses := if x.carrLock && !carr then (x.losses + 1) % 65536 else x.losses
    codeLock := lock, carrLock := carr, freqLock := Config.freqLock d.fresh
    secSync := d.bit (Reg.CH_CFG c) 28 && Config.secSync d.fresh
    aligning := false, win := win, carrNco := if carr && !x.carrLock then 0 else x.carrNco }
  d.bump

/-- Firmware wrote a rate: the channel no longer coasts (R84). -/
def Dev.chanRate (d : Dev) (c : Nat) : Dev := d.setChan c { (d.chan c) with coast := 0, loopRate := d.rdI (Reg.CH_CARR_RATE c) }

/-! ## Acquisition (R88 to R90) -/

/-- The request words: head, signal, component, SVID, Doppler centre, bins, width, and Tc with K above it. The spec names the
quantities and leaves their words open (DESIGN CHOICE). A queued request holds head, signal, component, SVID, bins, width, K, Tc × K,
Tc and the Doppler centre. -/
def Dev.acqWords (d : Dev) : List Nat :=
  let w (i : Nat) : Nat := (d.rd (Reg.ACQ_REQ i)).toNat
  let tc := w 7 % 65536
  let k := w 7 / 65536
  [w 0, w 1, w 2, w 3, w 5, w 6, k, tc * k, tc, w 4]

/-- A request is in range (R88). -/
def acqOk (r : List Nat) : Bool :=
  let g (i : Nat) : Nat := r.getD i 0
  decide (g 0 < 4) && decide (g 1 < 6) && decide (g 2 < 2) && !(g 1 == 0 && g 2 == 1) && svidOk (g 1) (g 3)
    && decide (1 ≤ g 4) && decide (g 4 ≤ 256) && decide (25 ≤ g 5) && decide (g 5 ≤ 1000)
    && decide (1 ≤ g 6) && decide (g 6 ≤ 32) && decide (1 ≤ g 8) && decide (g 8 % codePeriod (g 1) = 0) && decide (g 7 ≤ 25)

/-- Evaluation time of a search in ns (R89). -/
def acqTime (r : List Nat) : Nat :=
  let g (i : Nat) : Nat := r.getD i 0
  g 4 * g 6 * g 8 * (if g 1 = 0 ∨ g 1 = 2 ∨ g 1 = 4 then 8000 else 40000)

def Dev.acqRequest (d : Dev) (m t : Nat) : Dev :=
  let r := d.acqWords
  if !acqOk r then (d.setF Reg.ACQ_STATUS 2 0 1).reject m Reg.ACQ_CMD
  else if !d.bit Reg.GB_CTRL 1 then d.setF Reg.ACQ_STATUS 2 0 4
  else if 8 ≤ d.gnss.acqQ.length then d.setF Reg.ACQ_STATUS 2 0 2
  else
    let q := d.gnss.acqQ ++ [r]
    let d := Dev.acqBegin { d with gnss := { d.gnss with acqQ := q } } t
    (d.setF Reg.ACQ_STATUS 11 8 q.length).setBit Reg.ACQ_STATUS 4 true

/-- ACQ_EN 0 cancels every search; ACQ_CMD the one that runs (R90). -/
def Dev.acqCancel (d : Dev) (t : Nat) : Dev := if d.gnss.acqQ.isEmpty then d else d.acqEnd t 4
def Dev.acqOff (d : Dev) : Dev :=
  if d.gnss.acqQ.isEmpty then d
  else
    let d : Dev := { d with gnss := { d.gnss with acqQ := [], acqPhase := 0, acqAt := 0 } }
    ((d.setF Reg.ACQ_STATUS 2 0 4).setF Reg.ACQ_STATUS 11 8 0).setBit Reg.ACQ_STATUS 4 false

/-- The capture is complete: the samples of one band of one head stand in the snapshot memory, and the evaluation begins (R88, R89). -/
def Dev.acqCaptured (d : Dev) (t : Nat) (samples : List Byte) : Dev :=
  match d.gnss.acqQ.head? with
  | some r =>
    if d.gnss.acqPhase = 1 ∧ d.gnss.acqAt ≤ t ∧ d.gbClock then
      { d with gnss := { d.gnss with
          acqPhase := 2, acqAt := d.gnss.acqAt + acqTime r
          snapshot := SMap.setList (fun _ => (0 : Byte)) [] 0 (samples.take 0x80000) } }
    else d
  | none => d

/-- The result words: code phase, Doppler, peak, second peak, noise floor (R90). -/
def Dev.acqDone (d : Dev) (t : Nat) (res : List Nat) : Dev :=
  if d.gnss.acqPhase = 2 ∧ d.gnss.acqAt ≤ t ∧ d.gbClock then
    let d := (List.range 5).foldl (fun (d : Dev) i => d.wr (Reg.ACQ_RES i) (wd (res.getD i 0))) d
    (d.incOb Obj.AcquisitionCount).acqEnd t 0
  else d

/-! ## Measurement records (R91, R92) -/

/-- CH_CFG as a record of the Latch instant `at_` shows it: a write in the same fabric cycle is not in it yet (R95). -/
def Dev.cfgAt (d : Dev) (c at_ : Nat) : Word :=
  let x := d.chan c
  if x.cfgAt ≠ 0 ∧ cycleOf (x.cfgAt - 1) = cycleOf at_ then wd x.cfgOld else d.rd (Reg.CH_CFG c)

/-- A record of the instant `at_`. The sample follows the instant by the residual, a free number of ps within a sample period; code and
carrier stand as their oscillators do at the sample, and Doppler is the carrier oscillator's rate. -/
def Dev.gnssRecord (d : Dev) (c number at_ : Nat) (burst : Bool) : Dev × List Byte :=
  let gen := (d.gnss.recGen + 1) % 2 ^ 32
  let d : Dev := { d with gnss := { d.gnss with recGen := gen } }
  let cfg := d.cfgAt c at_
  let x := d.chan c
  let residual := (Config.freeWord d.fresh).toNat % 24438
  let head := leBytes gen 4 ++ leBytes number 2 ++ leBytes c 1
  if !fbit cfg 31 then (d, head ++ List.replicate 53 0 ++ leBytes gen 4)
  else
    let sig := fld cfg 13 11
    let p := d.ncoAt c sig (((at_ : Int) - x.ncoFt) * 1000 + residual)
    let body := leBytes (fld cfg 10 9 + 4 * b2n (bandL5 sig)) 1 ++ leBytes (sig + 8 * fld cfg 14 14) 1 ++ leBytes (fld cfg 7 0) 1
      ++ leBytes (d.chanFlags c cfg burst) 2 ++ leBytes residual 2 ++ leBytes (d.rd (Reg.CH_CN0 c)).toNat 2
      ++ leBytes x.periods 4 ++ leBytes p.1 8 ++ leBytes (unsx 64 p.2) 8
      ++ leBytes (d.rd (Reg.CH_CARR_RATE c)).toNat 4 ++ leBytes x.lockMs 4 ++ leBytes x.losses 2
    (d.bump, head ++ body ++ List.replicate 14 0 ++ leBytes gen 4)

/-- Records of a list of channels, in order. -/
def Dev.gnssRecords (d : Dev) (number at_ : Nat) (burst : Bool) : List Nat → Dev × List Byte
  | [] => (d, [])
  | c :: cs =>
    let p := d.gnssRecord c number at_ burst
    let q := Dev.gnssRecords p.1 number at_ burst cs
    (q.1, p.2 ++ q.2)

/-! ## Bursts (R93, R94) -/

/-- The GB domain is powered: in Ready and Field with GnssEnable, and for a burst (R443). -/
def Dev.gbWanted (d : Dev) : Bool :=
  d.gnss.bursting || ((decide (d.pstate = .ready) || d.inField) && decide (d.ob Obj.GnssEnable = 1))

/-- The GB domain follows: it requests the reference oscillator while it is on; off, its PLLs and its shadow banks are lost (R40, R67). -/
def Dev.gbDomain (d : Dev) : Dev :=
  if d.gbWanted then (d.setBit (Reg.PWR_DOM 2) 11 true).oscRequest 1
  else
    (((d.acqOff).setBit (Reg.PWR_DOM 2) 11 false).oscRelease 1 0x30).bankLoss
      (fun a => decide (0x40038000 ≤ a) && decide (a < 0x40040000))

/-- The burst's channels. -/
def Dev.burstChans (d : Dev) : List Nat :=
  ((List.range 192).filter (fun c => d.bit (Reg.CH_CFG c) 30 && d.bit (Reg.CH_CFG c) 31)).take 32

/-- The channels of a burst resume: their oscillators are advanced over the gap, and none holds a lock yet (R93, R94). -/
def Dev.chanResume (d : Dev) (c : Nat) : Dev :=
  let d := d.ncoNow c
  d.setChan c { (d.chan c) with codeLock := false, carrLock := false, win := [] }

/-- A burst starts. The porch counts its 32,768 ticks from tick 0: bursts start at multiples of 32,768 (DESIGN CHOICE). -/
def Dev.burstStart (d : Dev) (k : Nat) : Dev :=
  let low : Bool := decide (d.pstate = .parked) || decide (d.pstate = .standby)
  if low && d.bit Reg.GB_CTRL 8 && decide (k % 32768 = 0) && !d.gnss.bursting then
    let d := d.incOb Obj.BurstCount
    let d : Dev := { d with gnss := { d.gnss with bursting := true, burstFrom := k, trackTick := none } }
    (d.burstChans.foldl Dev.chanResume d).gbDomain
  else d

/-- The porch tick from which a burst's 20 ms of tracking count: the first link's lock, or 2.9 ms, 96 ticks, after the start where none
has locked by then (R94's table). -/
def Dev.trackFrom (d : Dev) : Nat :=
  let last := d.gnss.burstFrom + 96
  match d.gnss.trackTick with
  | some k => min k last
  | none => last

/-- The measurement is stored and the burst ends (R94). The first burst has number 1, and a burst lies in the slot of its number modulo 8
(DESIGN CHOICE). -/
def Dev.burstStore (d : Dev) (k : Nat) : Dev × Nat :=
  let cs := d.burstChans
  let n := (d.gnss.burstNumber + 1) % 65536
  let slot := n % 8
  let locked := (cs.filter (fun c => (d.chan c).codeLock)).length
  let p := d.gnssRecords 0xFFFF d.sleepFt true cs
  let bytes := leBytes k 6 ++ leBytes n 2 ++ leBytes cs.length 1 ++ leBytes locked 1 ++ List.replicate 6 0 ++ p.2
  let d : Dev := p.1
  let d := d.wr Reg.BURST_STATUS (wd (slot + 65536 * n))
  let store := SMap.setList (fun _ => (0 : Byte)) d.gnss.burstStore (slot * 0x810) (bytes ++ List.replicate (2064 - bytes.length) 0)
  let d : Dev := { d with gnss := { d.gnss with burstStore := store, burstNumber := n, bursting := false, trackTick := none } }
  let d := if d.fabricOn then d
    else (List.range 4).foldl (fun (d : Dev) i => (d.setBit Reg.GB_STATUS i false).setHead i { (d.head i) with good := 0, bad := 0 }) d
  (d.gbDomain, locked)

/-! ## Register writes of the block (R8, R83, R86, R93) -/

/-- CH_CFG taken field by field: SIGNAL, then COMP, SVID and INT_LEN against the signal that stands; a reserved encoding leaves its
field (R8, R72, R83). Whether one was reserved. -/
def chanCfgMerge (old w : Word) : Word × Bool :=
  let sig := if fld w 13 11 < 6 then fld w 13 11 else fld old 13 11
  let comp := if sig = 0 ∧ fld w 14 14 = 1 then fld old 14 14 else fld w 14 14
  let svid := if svidOk sig (fld w 7 0) then fld w 7 0 else fld old 7 0
  let len := fld w 19 15
  let lenOk := decide (1 ≤ len) && decide (len ≤ 20) && decide (len % codePeriod sig = 0)
  let v := putFld (putFld (putFld (putFld w 13 11 sig) 14 14 comp) 7 0 svid) 19 15 (if lenOk then len else fld old 19 15)
  (putBit v 8 false, !(sig == fld w 13 11 && comp == fld w 14 14 && svid == fld w 7 0 && lenOk))

/-- A write of CH_CFG. -/
def Dev.chanCfg (d : Dev) (m c : Nat) (w : Word) : Dev :=
  let a := Reg.CH_CFG c
  let old := d.rd a
  let p := chanCfgMerge old w
  let others := ((List.range 192).filter (fun i => i != c && d.bit (Reg.CH_CFG i) 30)).length
  let exceeds := fbit w 30 && decide (32 ≤ others)
  let d := d.ncoNow c
  let first := decide ((d.chan c).cfgAt = 0 ∨ cycleOf ((d.chan c).cfgAt - 1) ≠ cycleOf d.now)
  let d := if first then d.setChan c { (d.chan c) with cfgAt := d.now + 1, cfgOld := old.toNat } else d
  let d := d.wr a (if exceeds then putBit p.1 30 false else p.1)
  let d := if exceeds then d.setBit Reg.GB_STATUS 15 true else d
  let d := if fbit w 31 && !fbit old 31 then d.chanStart c else d
  let d := if fbit w 8 then d.setChan c { (d.chan c) with aligning := true } else d
  if p.2 then d.reject m a else d

/-- Whether a dump ring lies wholly in a place R86 allows. -/
def Dev.ringPlaced (d : Dev) (base : Word) (len : Nat) : Bool :=
  let lo := fld base 18 0
  let hi := lo + 32 * len
  let cache := d.cacheEn (fld base 31 26)
  let within (a b : Nat) : Bool := decide (a ≤ lo) && decide (hi ≤ b)
  decide (lo % 32 = 0) && decide (64 ≤ len) && decide (len ≤ 4096) &&
    (within 0 0x10000 || within 0x58000 0x5F800 || within 0x5FC00 0x5FE00 || (!cache && within 0x10000 0x58000))

/-- GB_DUMP_BASE and GB_DUMP_LEN: a placement that would put an entry elsewhere is rejected; while no length is set, no entry lies
anywhere. -/
def Dev.dumpPlace (d : Dev) (m a : Nat) (w : Word) : Dev :=
  let base := if a = Reg.GB_DUMP_BASE then w else d.rd Reg.GB_DUMP_BASE
  let len := if a = Reg.GB_DUMP_LEN then w.toNat else (d.rd Reg.GB_DUMP_LEN).toNat
  let empty := decide (a = Reg.GB_DUMP_BASE) && len == 0 && fld w 18 0 % 32 == 0
  if empty || d.ringPlaced base len then d.regStore m a w else d.reject m a

end Sys2Proof.Machine
end

