-- ==== Sys2Proof/Machine/Gnss.lean ====
section
/-! DEFINITION. Meanings of the GNSS commands (R72 to R98). -/
namespace Sys2Proof.Machine

def execHeadStatusFrame (t n place : Nat) (syms : List Nat) (s : State) : Host.Outcome State Fault Refusal :=
  let d := s.dev.advance t
  let b := sideBytes syms
  s.put (if !d.headOn n then d else if frameGood b then d.headGood t n place b else d.headBad t n)

/-- 300 µs without samples or status (R96). -/
def execHeadLinkTimeout (t n : Nat) (s : State) : Host.Outcome State Fault Refusal :=
  let d := s.dev.advance t
  let h := d.head n
  s.put (if d.headOn n && decide (h.at_ + 300000 ≤ t) then
      (d.headLost t n 1).setHead n { h with good := 0, bad := 0, stale := true }
    else d)

def execHeadSupplyTrip (t n ma : Nat) (s : State) : Host.Outcome State Fault Refusal :=
  let d := s.dev.advance t
  s.put (if d.headSupplied n && decide (250 < ma) then
      let d := d.setHead n { (d.head n) with tripped := t + 1 }
      let d := (d.wr (Reg.AH_CURR n) (wd (min 65535 ma))).event 0 0x2003 [.h n, .w ma]
      d.headDrop t n
    else d)

def execHeadSupplyRetry (t n : Nat) (s : State) : Host.Outcome State Fault Refusal :=
  let d := s.dev.advance t
  let h := d.head n
  s.put (if h.tripped ≠ 0 ∧ h.tripped - 1 + 1000000000 ≤ t then d.setHead n { h with tripped := 0 } else d)

def execHeadControlRepeat (t : Nat) (s : State) : Host.Outcome State Fault Refusal :=
  let d := s.dev.advance t
  s.put (if d.gnssOn && decide (d.gnss.controlAt + 100000000 ≤ t) then
      let d : Dev := { d with gnss := { d.gnss with controlAt := t } }
      (List.range 4).foldl (fun (d : Dev) n => if d.headOn n then d.headSet n else d) d
    else d)

/-- The end of an integration: loops, locks and the dump entry, from the sums that the correlators give. -/
def Dev.integrationEnd (d : Dev) (t ch periods : Nat) (sums : List Int) : Dev :=
  let s := d.chanSums ch sums
  if d.chanOn ch then (d.chanUpdate ch periods s).dumpPut ch t s else d

def execIntegrationEnd (t ch : Nat) (sums : List Int) (periods : Nat) (s : State) : Host.Outcome State Fault Refusal :=
  s.put ((s.dev.advance t).integrationEnd t ch periods sums)

def execIntAlign (t m ch : Nat) (s : State) : Host.Outcome State Fault Refusal :=
  let d := s.dev.advance t
  s.put (d.byMaster m (Reg.CH_CFG ch) true (fun (d : Dev) =>
    if ch < 192 then d.setChan ch { (d.chan ch) with aligning := true } else d))

/-- A write of GB_CODE_DATA: four bytes at GB_CODE_ADDR, which advances (R87). -/
def Dev.codeWrite (d : Dev) (w : Word) : Dev :=
  let a := (d.rd Reg.GB_CODE_ADDR).toNat % 0x40000
  (d.st (codeBase + a) 4 w.toNat).wr Reg.GB_CODE_ADDR (wd ((a + 4) % 0x40000))

def execCodeMemoryWrite (t m : Nat) (w : Word) (s : State) : Host.Outcome State Fault Refusal :=
  let d := s.dev.advance t
  s.put (d.byMaster m Reg.GB_CODE_DATA true (fun (d : Dev) => d.codeWrite w))

def execAcqRequest (t m : Nat) (s : State) : Host.Outcome State Fault Refusal :=
  let d := s.dev.advance t
  s.put (d.byMaster m Reg.ACQ_CMD true (fun (d : Dev) => d.acqRequest m t))

def execAcqCaptureDone (t : Nat) (samples : List Byte) (s : State) : Host.Outcome State Fault Refusal :=
  s.put ((s.dev.advance t).acqCaptured t samples)

def execAcqSearchDone (t : Nat) (res : List Nat) (s : State) : Host.Outcome State Fault Refusal :=
  s.put ((s.dev.advance t).acqDone t res)

def execAcqCancel (t m : Nat) (s : State) : Host.Outcome State Fault Refusal :=
  let d := s.dev.advance t
  s.put (d.byMaster m Reg.ACQ_CMD true (fun (d : Dev) => d.acqCancel t))

def execBurstStart (k : Nat) (s : State) : Host.Outcome State Fault Refusal := s.put ((s.dev.advanceTicks k).burstStart k)

end Sys2Proof.Machine
end

