-- ==== Sys2Proof/Machine/Pose.lean ====
section
/-! DEFINITION. Pose, speed inputs and inertial ports (R99 to R116), and the look-ahead parameter block of each frame (R148). -/
namespace Sys2Proof.Machine

/-! ## Field origin (R99, R100) -/

/-- The origin is set when all three coordinates are not 0. -/
def Dev.originSet (d : Dev) : Bool := (List.range 3).all (fun i => d.ob (Obj.FieldOriginEcef i) != 0)

def Dev.writeOrigin (d : Dev) (i v : Nat) : WRes :=
  if d.inField then d.no 0x0401
  else
    let old := d.ob Obj.FieldOriginCheck
    let d := (d.setOb (Obj.FieldOriginEcef i) (v % 2 ^ 64)).originUpdate
    (d.event 0 0x2017 [.h old, .h (d.ob Obj.FieldOriginCheck)]).yes

def execFieldOriginWrite (t : Nat) (r : Req) (sub v : Nat) (s : State) : Host.Outcome State Fault Refusal :=
  let d := s.dev.advance t
  s.put (if 1 ≤ sub ∧ sub ≤ 3 then d.dictVal r 0x3201 sub 8 v (fun (d : Dev) => d.writeOrigin (sub - 1) v) else d)

/-! ## Frequency inputs (R102 to R104) -/

def Dev.fi (d : Dev) (n : Nat) : FiChan := SMap.get (fun _ => FiChan.reset) d.pose.fi n
def Dev.setFi (d : Dev) (n : Nat) (x : FiChan) : Dev :=
  { d with pose := { d.pose with fi := SMap.set (fun _ => FiChan.reset) d.pose.fi n x } }

def Dev.fiOn (d : Dev) (n : Nat) : Bool := decide (n < 8) && d.hostOn && d.bit (Reg.FI_CTRL n) 31

/-- Whether an edge is one the input counts (EDGE). -/
def Dev.fiCounts (d : Dev) (n : Nat) (rising : Bool) : Bool :=
  let e := d.f (Reg.FI_CTRL n) 30 29
  e == 2 || (e == 0 && rising) || (e == 1 && !rising)

/-- Whether it is of the polarity that periods are measured on: rising where both are counted. -/
def Dev.fiPeriodic (d : Dev) (n : Nat) (rising : Bool) : Bool := d.fiCounts n rising && (d.f (Reg.FI_CTRL n) 30 29 != 2 || rising)

/-- FI_FIFO_STAT of an input. -/
def Dev.fiStat (d : Dev) (n : Nat) : Nat :=
  let x := d.fi n
  x.fifo.length + 256 * b2n (match x.fifo with | p :: _ => p.2 | [] => false) + 65536 * x.lost

/-- A run of overwrites ends: 0x2016 with the entries lost in it (R104, R116). -/
def Dev.fiRunEnd (d : Dev) (n : Nat) : Dev :=
  let x := d.fi n
  if x.overwriting then (d.setFi n { x with overwriting := false, runLost := 0 }).event (2 + n / 4) 0x2016 [.h n, .w x.runLost]
  else d

/-- An over-range episode ends: 0x2011 with its shortest period (R103, R116). -/
def Dev.fiRangeEnd (d : Dev) (n : Nat) : Dev :=
  let x := d.fi n
  if x.exceeds then (d.setFi n { x with exceeds := false, shortest := 0 }).event (2 + n / 4) 0x2011 [.h n, .w x.shortest]
  else d

/-- A stamp goes into the FIFO; a full one loses its oldest (R104). -/
def Dev.fiPush (d : Dev) (n stamp : Nat) (rising : Bool) : Dev :=
  let x := d.fi n
  if x.fifo.length < 64 then (d.fiRunEnd n).setFi n { ((d.fiRunEnd n).fi n) with fifo := x.fifo ++ [(stamp, rising)] }
  else d.setFi n { x with
    fifo := x.fifo.drop 1 ++ [(stamp, rising)], lost := (x.lost + 1) % 65536, overwriting := true, runLost := x.runLost + 1 }

/-- A measured period (R103). -/
def Dev.fiPeriod (d : Dev) (n stamp : Nat) : Dev :=
  let x := d.fi n
  let d := d.setFi n { x with polAt := some stamp }
  match x.polAt with
  | none => d
  | some p0 =>
    let per := min 0xFFFFFFFE ((stamp - p0) / 10)
    let d := d.wr (Reg.FI_PERIOD n) (wd per)
    if per < 4000 then
      (d.setBit Reg.SPD_STATUS (16 + n) true).setFi n { (d.fi n) with
        exceeds := true, shortest := if x.exceeds then min x.shortest per else per }
    else d.fiRangeEnd n

/-- The raw threshold crossing of an edge that passes the filter at `t`: the filter delay is removed (R102). -/
def Dev.fiCrossing (d : Dev) (n t : Nat) : Nat := (t - d.f (Reg.FI_CTRL n) 23 16 * 100) / 10 * 10

/-- The input's registers that a Latch copies. -/
def Dev.fiCopies (d : Dev) (n : Nat) : List (Nat × Word) :=
  [Reg.FI_COUNT n, Reg.FI_LAST_LO n, Reg.FI_LAST_HI n, Reg.FI_PERIOD n].map (fun a => (a, d.rd a))

/-- An edge counted after a firing, its stamp at or before the Latch instant, is in that firing's copies (R113). -/
def Dev.fiLatched (d : Dev) (n stamp : Nat) : Dev :=
  d.amendBanks (fun i => decide (stamp ≤ i)) (d.fiCopies n)

/-- An edge that passes the glitch filter at `t` (R102, R103). -/
def Dev.fiEdge (d : Dev) (n t : Nat) (rising : Bool) : Dev :=
  if !(d.fiOn n && d.fiCounts n rising) then d
  else
    let stamp := d.fiCrossing n t
    let d := (d.incF (Reg.FI_COUNT n) 31 0).wr64 (Reg.FI_LAST_LO n) stamp
    let d := d.fiPush n stamp rising
    let d := if d.fiPeriodic n rising then d.fiPeriod n stamp else d
    let x := d.fi n
    let d := (d.setFi n { x with lastAt := stamp, since := min 2 (x.since + 1) }).fiLatched n stamp
    if d.bit Reg.SPD_STATUS n && decide (x.since = 1) then
      (d.setBit Reg.SPD_STATUS n false).event (2 + n / 4) 0x2010 [.h n, .h 2]
    else d

/-- TIMEOUT × 10 ms without an edge (R103). -/
def Dev.fiTimeout (d : Dev) (n t : Nat) : Dev :=
  let x := d.fi n
  if d.fiOn n && !d.bit Reg.SPD_STATUS n && decide (x.lastAt + d.f (Reg.FI_CTRL n) 15 0 * 10000000 ≤ t) then
    let d := (d.setBit Reg.SPD_STATUS n true).wr (Reg.FI_PERIOD n) 0xFFFFFFFF
    let d := d.fiRangeEnd n
    (d.setFi n { (d.fi n) with polAt := none, since := 0 }).event (2 + n / 4) 0x2010 [.h n, .h 1]
  else d

/-- A read of FI_FIFO_LO removes the head stamp; an empty FIFO reads 0 in both words (R104, R391). -/
def Dev.fiPop (d : Dev) (m n : Nat) : Dev × Word :=
  let x := d.fi n
  match x.fifo with
  | [] => (d.setShadow m 0, 0)
  | p :: rest => ((d.setFi n { x with fifo := rest }).setShadow m (wd (p.1 / 2 ^ 32)), wd p.1)

/-- FiState and FiFrequency. -/
def Dev.fiState (d : Dev) (n : Nat) : Nat :=
  if !d.bit (Reg.FI_CTRL n) 31 then 0 else if d.bit Reg.SPD_STATUS n then 2 else if (d.fi n).exceeds then 3 else 1
def Dev.fiFrequency (d : Dev) (n : Nat) : Nat :=
  let per := (d.rd (Reg.FI_PERIOD n)).toNat
  if per = 0 ∨ d.bit Reg.SPD_STATUS n then 0 else min 0xFFFFFFFF (100000000000 / per)

/-- A write of FI_CTRL. DESIGN CHOICE (the rules do not say what EN does beyond 'input runs'): an input that is switched on counts its
timeout from there, measures its first period between the first two edges, and is not STOPPED, which records nothing; FIFO, FI_COUNT,
FI_PERIOD and LOST stay. Running episodes end when the input is switched off. -/
def Dev.fiCtrl (d : Dev) (m a n : Nat) (w : Word) : Dev :=
  let was := d.bit (Reg.FI_CTRL n) 31
  let d := d.regStore m a w
  let is := d.bit (Reg.FI_CTRL n) 31
  if is && !was then (d.setBit Reg.SPD_STATUS n false).setFi n { (d.fi n) with polAt := none, lastAt := d.now, since := 2 }
  else if was && !is then (d.fiRunEnd n).fiRangeEnd n
  else d

def execFiEdge (t n : Nat) (rising : Bool) (s : State) : Host.Outcome State Fault Refusal :=
  s.put ((s.dev.advance t).fiEdge n t rising)

def execFiTimeout (t n : Nat) (s : State) : Host.Outcome State Fault Refusal := s.put ((s.dev.advance t).fiTimeout n t)

def execFiFifoPop (t m n : Nat) (s : State) : Host.Outcome State Fault Refusal :=
  let d := s.dev.advance t
  s.put (if n < 8 then d.byMaster m (Reg.FI_FIFO_LO n) false (fun (d : Dev) => (d.fiPop m n).1) else d)

/-! ## Inertial ports (R105, R106) -/

def Dev.imu (d : Dev) (p : Nat) : ImuPort := SMap.get (fun _ => ImuPort.reset) d.pose.imu p
def Dev.setImu (d : Dev) (p : Nat) (x : ImuPort) : Dev :=
  { d with pose := { d.pose with imu := SMap.set (fun _ => ImuPort.reset) d.pose.imu p x } }

def Dev.imuOn (d : Dev) (p : Nat) : Bool := decide (p < 2) && d.hostOn && d.bit (Reg.IMU_CTRL p) 31

/-- A transfer is under way. DESIGN CHOICE: the spec gives IMU_STATUS.RUNNING no further words; the model sets it for the transfer, not
for the enabled port. -/
def Dev.imuBusy (d : Dev) (p : Nat) : Bool := d.bit (Reg.IMU_STATUS p) 0

/-- A transfer starts: CS, then LEN bytes of the template, 0x00 after byte 31. -/
def Dev.imuStart (d : Dev) (p t : Nat) : Dev :=
  let d := (d.setBit (Reg.IMU_STATUS p) 0 true).setImu p { (d.imu p) with stamp := t / 10 * 10 }
  let tx := (List.range (d.f (Reg.IMU_CTRL p) 5 0)).map (fun i =>
    if i < 32 then (d.rd (Reg.IMU_TX p (i / 4))).toNat / 2 ^ (8 * (i % 4)) % 256 else 0)
  d.emit .line 0x500 p tx

/-- A DRDY edge of the selected polarity at `t`; during a transfer it is only counted (R106). -/
def Dev.imuDrdy (d : Dev) (p t : Nat) (rising : Bool) : Dev :=
  if !d.imuOn p || d.f (Reg.IMU_CTRL p) 29 28 != (if rising then 0 else 1) then d
  else if d.imuBusy p then d.incF (Reg.IMU_STATUS p) 15 8
  else d.imuStart p t

/-- A periodic instant. DESIGN CHOICE: one that falls in a running transfer starts none and is not counted. -/
def Dev.imuTrigger (d : Dev) (p t : Nat) : Dev :=
  let per := (d.rd (Reg.IMU_PERIOD p)).toNat * 1000
  if d.imuOn p && decide (d.f (Reg.IMU_CTRL p) 29 28 = 2) && decide (0 < per ∧ t % per = 0) && !d.imuBusy p then d.imuStart p t else d

/-- The check of IMU_CHECK over the bytes received (R106). -/
def Dev.imuCheck (d : Dev) (p : Nat) (b : List Byte) : Bool :=
  match d.f (Reg.IMU_CHECK p) 1 0 with
  | 1 => crc8 0x07 0 (b.take (b.length - 1)) == byteAt b (b.length - 1)
  | 2 => byteAt b (d.f (Reg.IMU_CHECK p) 13 8) == d.f (Reg.IMU_CHECK p) 23 16
  | _ => true

/-- Every byte 0x00, or every byte 0xFF. -/
def imuStuck (b : List Byte) : Bool := b.all (fun x => x == 0) || b.all (fun x => x == 0xFF)

/-- The entry of a transfer (R105). -/
def Dev.imuEntry (d : Dev) (p : Nat) (b : List Byte) : List Byte :=
  let x := d.imu p
  let gen := (x.gen + 1) % 2 ^ 32
  let flags := b2n (d.imuCheck p b) + 2 * b2n (imuStuck b) + 4 * b2n (decide (d.f (Reg.IMU_CTRL p) 29 28 = 2))
  leBytes gen 4 ++ leBytes x.stamp 8 ++ leBytes (d.f (Reg.IMU_STATUS p) 31 16 + 1) 2 ++ leBytes b.length 1 ++ leBytes flags 1
    ++ b ++ List.replicate (60 - b.length) 0 ++ leBytes gen 4

/-- An episode of check failures ends: 0x2015 with the failures in it. The spec gives the inertial ports no die of origin: the
model records them as of the main die, 0 (DESIGN CHOICE). -/
def Dev.imuFailsEnd (d : Dev) (p : Nat) : Dev :=
  let x := d.imu p
  if x.failing then (d.setImu p { x with failing := false, fails := 0 }).event 0 0x2015 [.h p, .w x.fails] else d

/-- The status after a transfer (R105, R106). -/
def Dev.imuStatus (d : Dev) (p : Nat) (ok stuck : Bool) : Dev :=
  let x := d.imu p
  let d := (d.setBit (Reg.IMU_STATUS p) 0 false).incF (Reg.IMU_STATUS p) 31 16
  let d := if stuck then d.setBit (Reg.IMU_STATUS p) 3 true else d
  let d := if ok then d.imuFailsEnd p
    else (d.setBit (Reg.IMU_STATUS p) 2 true).setImu p { x with failing := true, fails := x.fails + 1 }
  let d := d.setImu p { (d.imu p) with
    gen := (x.gen + 1) % 2 ^ 32, newest := x.stamp, goodAt := if ok && !stuck then d.now else x.goodAt }
  if ok && !stuck && d.bit (Reg.IMU_STATUS p) 1 then
    (d.setBit (Reg.IMU_STATUS p) 1 false).event 0 0x2014 [.h p, .h 2]
  else d

/-- The end of a transfer: its entry goes into the ring (R105). -/
def Dev.imuDone (d : Dev) (p : Nat) (data : List Byte) : Dev :=
  if !(decide (p < 2) && d.imuBusy p) then d
  else
    let len := d.f (Reg.IMU_CTRL p) 5 0
    let b := (data ++ List.replicate len 0).take len
    let e := d.imuEntry p b
    let w := (d.rd (Reg.IMU_WR p)).toNat % 32
    let d := (List.range 20).foldl (fun (d : Dev) i => d.wr (Reg.IMU_RING p (20 * w + i)) (wd (leAt e (4 * i) 4))) d
    let d := (d.wr (Reg.IMU_WR p) (wd ((w + 1) % 32))).incOb (Obj.ImuTransferCount p)
    d.imuStatus p (d.imuCheck p b) (imuStuck b)

def Dev.imuTimeout (d : Dev) (p t : Nat) : Dev :=
  if d.imuOn p && !d.bit (Reg.IMU_STATUS p) 1 && decide ((d.imu p).goodAt + (d.rd (Reg.IMU_TIMEOUT_REG p)).toNat * 1000 ≤ t) then
    (d.setBit (Reg.IMU_STATUS p) 1 true).event 0 0x2014 [.h p, .h 1]
  else d

/-- ImuState. -/
def Dev.imuState (d : Dev) (p : Nat) : Nat :=
  if !d.bit (Reg.IMU_CTRL p) 31 then 0 else if d.bit (Reg.IMU_STATUS p) 1 then 2 else if (d.imu p).failing then 3 else 1

/-- A write of IMU_CTRL. DESIGN CHOICE (the rules do not say what EN does beyond 'port runs'): a port that is switched on counts its
timeout from there and clears TIMEOUT without a record; one that is switched off ends its transfer, which writes no entry. -/
def Dev.imuCtrl (d : Dev) (m a p : Nat) (w : Word) : Dev :=
  let was := d.bit (Reg.IMU_CTRL p) 31
  let d := d.regStore m a w
  let is := d.bit (Reg.IMU_CTRL p) 31
  if is && !was then (d.setBit (Reg.IMU_STATUS p) 1 false).setImu p { (d.imu p) with goodAt := d.now }
  else if !is then (d.setBit (Reg.IMU_STATUS p) 0 false).imuFailsEnd p
  else d

def execImuDrdy (t p : Nat) (rising : Bool) (s : State) : Host.Outcome State Fault Refusal :=
  s.put ((s.dev.advance t).imuDrdy p t rising)

def execImuPeriodicTrigger (t p : Nat) (s : State) : Host.Outcome State Fault Refusal := s.put ((s.dev.advance t).imuTrigger p t)

def execImuTransferDone (t p : Nat) (data : List Byte) (s : State) : Host.Outcome State Fault Refusal :=
  s.put ((s.dev.advance t).imuDone p data)

def execImuTimeout (t p : Nat) (s : State) : Host.Outcome State Fault Refusal := s.put ((s.dev.advance t).imuTimeout p t)

/-! ## Pose publication (R107 to R112) -/

/-- A commit that waits from before `t`: one of the very instant `t` does not replace it until the frame start of `t` has passed (R113). -/
def PoseUnit.earlierThan (u : PoseUnit) (t : Nat) : Option (List Byte) :=
  if u.fresh && decide (cycleOf u.commitAt < cycleOf t) then some u.pending else if u.fresh then u.earlier else none

/-- POSE_COMMIT by master `m` (R107). -/
def Dev.poseCommit (d : Dev) (m t : Nat) : Dev :=
  if m = d.f Reg.POSE_CTRL 9 0 then
    let b := ((List.range 64).map (fun i => leBytes (d.rd (Reg.POSE_STAGE i)).toNat 4)).flatten
    ({ d with pose := { d.pose with pending := b, fresh := true, commitAt := t, earlier := d.pose.earlierThan t } } : Dev).setBit Reg.POSE_STATUS 0 true
  else
    let d := ((d.incF Reg.POSE_STATUS 31 16).setBit Reg.POSE_STATUS 2 true).incOb Obj.PoseRefusedCommits
    d.event 0 0x2012 [.w m]

/-- A write of POSE_STAGE: the publisher's own words do not change. -/
def Dev.poseStage (d : Dev) (m a : Nat) (w : Word) : Dev :=
  let i := (a - Reg.POSE_STAGE 0) / 4
  if i = 0 ∨ i = 6 ∨ i = 63 then d else d.regStore m a w

/-- The cause of a record that is not usable, in the order of R111; 0 for a usable one. -/
def Dev.poseCause (d : Dev) (flags poseTime start : Nat) : Nat :=
  if !bitOf flags 0 then 1
  else if start < poseTime then 3
  else if d.ob Obj.PoseMaxAge < (start - poseTime) / 1000 then 2
  else if !d.originSet then 4
  else 0

/-- The record that the publisher writes for frame `k` (R108, R109, R111). -/
def Dev.poseRecord (d : Dev) (b : List Byte) (k start : Nat) (repeated : Bool) : List Byte × Bool :=
  let gen := d.rd Reg.POSE_GEN + 1
  let pt := leAt b 16 8
  let fw := leAt b 28 2
  let usable := d.poseCause fw pt start == 0
  let age := if start < pt then 0 else min 0xFFFFFFFF ((start - pt) / 1000)
  let flags := b2n (bitOf fw 0) + 2 * b2n usable + 4 * b2n repeated + 8 * b2n (decide (start < pt)) + fw / 16 % 4 * 16
  (leBytes gen.toNat 4 ++ leBytes k 4 ++ leBytes start 8 ++ leBytes pt 8 ++ leBytes age 4 ++ leBytes flags 2
    ++ leBytes (leAt b 30 2 % 32768) 2 ++ (b.drop 32).take 50 ++ leBytes (d.f Reg.POSE_CTRL 9 0) 2 ++ List.replicate 4 0
    ++ (b.drop 88).take 160 ++ List.replicate 4 0 ++ leBytes gen.toNat 4, usable)

/-- Bytes go into the shared memory of every powered cluster. -/
def Dev.allClusters (d : Dev) (off : Nat) (b : List Byte) : Dev :=
  d.pwr.clusters.foldl (fun (d : Dev) p => if d.clusterOn p.1 then d.setBytes (sharedBase p.1 + off) b else d) d

/-- The record that a frame start at `start` publishes: the newest commit made before it (R108, R113). -/
def PoseUnit.due (u : PoseUnit) (start : Nat) : Option (List Byte) :=
  if !u.fresh then none else if cycleOf u.commitAt < cycleOf start then some u.pending else u.earlier

/-- What is left pending after a publication: a commit of the frame start's own cycle stays for the next. -/
def PoseUnit.after (u : PoseUnit) (start : Nat) (b : List Byte) : PoseUnit :=
  { u with fresh := u.fresh && !decide (cycleOf u.commitAt < cycleOf start), earlier := none, last := b, ever := true }

/-- Publication at the start of shutter frame `k` (R108). -/
def Dev.posePublish (d : Dev) (k start : Nat) : Dev :=
  let zeros : List Byte := List.replicate 256 0
  let new := d.pose.due start
  let b := new.getD (if d.pose.ever then d.pose.last else zeros)
  let (r, usable) := d.poseRecord b k start new.isNone
  let was := d.bit Reg.POSE_STATUS 1
  let d := (d.allClusters (0x5FE00 + 0x100 * (k % 2)) r).wr Reg.POSE_GEN (d.rd Reg.POSE_GEN + 1)
  let d := d.setBit Reg.POSE_STATUS 1 usable
  let d : Dev := if new.isSome then
      let u := d.pose.after start b
      ({ d with pose := u } : Dev).setBit Reg.POSE_STATUS 0 u.fresh
    else d
  let d := if usable then d else d.incOb Obj.PoseUnusableFrames
  if usable = was then d
  else d.event 0 0x2013 [.h (b2n usable), .h (d.poseCause (leAt b 28 2) (leAt b 16 8) start)]

/-- PoseState. -/
def Dev.poseState (d : Dev) : Nat := if !d.pose.ever then 0 else if d.bit Reg.POSE_STATUS 1 then 1 else 2

def execPoseCommit (t m : Nat) (s : State) : Host.Outcome State Fault Refusal :=
  let d := s.dev.advance t
  s.put (d.byMaster m Reg.POSE_COMMIT_REG true (fun (d : Dev) => d.poseCommit m t))

end Sys2Proof.Machine
end

