-- ==== Sys2Proof/Machine/Power.lean ====
section
/-! DEFINITION. Feeds, hold-up, power states, clusters on request, wake sources and die temperatures (R438 to R447, R58, R94). -/
namespace Sys2Proof.Machine

/-! ## Feeds (R438, R439) -/

/-- The class of a feed voltage: 0 ABSENT, 1 LOW, 2 OK, 3 HIGH. -/
def feedClassOf (mv : Nat) : Nat := if mv < 6000 then 0 else if mv < 9000 then 1 else if mv ≤ 36000 then 2 else 3

def Dev.feedClass (d : Dev) (n : Nat) : Nat := feedClassOf (d.feedMv n)

/-- Feed bits of PWR_STATUS. -/
def Dev.feedBits (d : Dev) : Nat :=
  let a := d.feedClass 0
  let b := d.feedClass 1
  b2n (a == 2) + 2 * b2n (b == 2) + 8 * b2n (a == 1 || b == 1) + 16 * b2n (a == 3 || b == 3)

/-- PWR_STATUS as it reads. -/
def Dev.pwrStatus (d : Dev) : Word :=
  wd (putBits (putBits (d.rd Reg.PWR_STATUS).toNat 4 0 d.feedBits) 14 12 (stateCode d.pstate))

/-- A wake source: its WAKE_SRC bit, and from Parked the way to Standby where WAKE_EN has it (R58, R445). -/
def Dev.wakeSet (d : Dev) (src : Nat) : Dev :=
  let d := d.setBit Reg.WAKE_SRC src true
  if d.bit Reg.WAKE_EN src && decide (d.pstate = .parked) && d.pwr.target.isNone then
    { d with pwr := { d.pwr with target := some .standby } }
  else d

/-- A feed's 1 ms mean reaches another class. -/
def Dev.feedChange (d : Dev) (n mv ma10 : Nat) : Dev :=
  let old := d.feedClass n
  let new := feedClassOf (min 60000 mv)
  let d := (d.wr (Reg.PWR_FEED_A + 4 * n) (wd (min 60000 mv + 65536 * min 8000 ma10))).dieFeeds
  let d : Dev := if ma10 ≤ 6000 then { d with pwr := { d.pwr with overFeed := putBits d.pwr.overFeed n n 0 } } else d
  if old = new then d
  else
    let d := d.event 4 0x9001 [.h n, .h new, .w (min 60000 mv)]
    if old = 0 then d.wakeSet 6 else d

def execFeedClassChange (t feed mv ma10 : Nat) (s : State) : Host.Outcome State Fault Refusal :=
  let d := s.dev.advance t
  s.put (if feed < 2 ∧ d.porch.powered then d.feedChange feed mv ma10 else d)

/-- 10 s above 60 A: recorded once per episode, which a current of 60 A or less ends (R439). -/
def Dev.feedOverload (d : Dev) (n ma10 : Nat) : Dev :=
  let d := (d.setBit Reg.PWR_STATUS 5 true).setF (Reg.PWR_FEED_A + 4 * n) 31 16 (min 8000 ma10)
  if bitOf d.pwr.overFeed n then d
  else Dev.event { d with pwr := { d.pwr with overFeed := putBits d.pwr.overFeed n n 1 } } 4 0x9002 [.h n, .w (min 8000 ma10)]

def execFeedOverload (t feed ma10 : Nat) (s : State) : Host.Outcome State Fault Refusal :=
  let d := s.dev.advance t
  s.put (if d.hostOn && decide (feed < 2) && decide (6000 < ma10) then d.feedOverload feed ma10 else d)

/-! ## Power failure (R440, R441, R459) -/

/-- Power failure is declared. With the recorder's domain off, as in Parked, nothing is flushed. -/
def Dev.powerFail (d : Dev) (t mv : Nat) : Dev :=
  let feeds := b2n (d.feedClass 0 != 0) + 2 * b2n (d.feedClass 1 != 0)
  let d := (d.setBit Reg.PWR_STATUS 6 true).incOb Obj.PowerFailCount
  let r := d.eventRecord 4 0x9003 [.w mv, .h feeds] 0
  let fr := forerunnerOf d 0x9003 [.w mv, .h feeds]
  let d := if d.start.open_ && !d.start.declared then { d with start := { d.start with interrupted := 1 } } else d
  let d : Dev := { d with pwr := { d.pwr with failAt := t, target := none, parkAfter := false } }
  if d.hostOn then
    let d : Dev := if d.ob Obj.ForerunnerEnable = 1 then { d with rcd := { d.rcd with forerunner := d.rcd.forerunner ++ [fr] } } else d
    d.suspendErase.powerFailFlush r
  else d

def execPowerFail (t mv : Nat) (s : State) : Host.Outcome State Fault Refusal :=
  let d := s.dev.advance t
  s.put (if d.porch.powered && !d.bit Reg.PWR_STATUS 6 && decide (mv < 7500) then d.powerFail t mv else d)

/-- HoldupDeadline: no page program starts after it. -/
def execHoldupDeadline (t : Nat) (s : State) : Host.Outcome State Fault Refusal :=
  let d := s.dev.advance t
  s.put (if d.bit Reg.PWR_STATUS 6 && decide (d.pwr.failAt + 17000000 ≤ t) then { d with flash := { d.flash with barred := true } } else d)

/-- The hold-up specification ends and the package enters Off. -/
def execHoldupEnd (t : Nat) (s : State) : Host.Outcome State Fault Refusal :=
  let d := s.dev.advance t
  s.put (if d.bit Reg.PWR_STATUS 6 && decide (d.pwr.failAt + 20000000 ≤ t) then d.toOff else d)

/-- VIN has stayed above 8.0 V for 1 ms: page programs and a suspended erase resume. -/
def execPowerFailEnd (t : Nat) (s : State) : Host.Outcome State Fault Refusal :=
  let d := s.dev.advance t
  s.put (if d.bit Reg.PWR_STATUS 6 then
      let d := (d.setBit Reg.PWR_STATUS 6 false).event 4 0x9004 [.w ((t - d.pwr.failAt) / 1000)]
      d.resumeFlash
    else d)

/-- The hold-up capacitance, in 0.01 mF, at every start and every 24 h of operating time (R442). -/
def execHoldupMeasure (t cap : Nat) (s : State) : Host.Outcome State Fault Refusal :=
  let d := s.dev.advance t
  let day := 24 * 3600 * 32768
  s.put (if d.hostOn && (decide (d.start.step ≠ 0) || decide (d.pwr.holdupAt + day ≤ d.porch.opTicks)) then
      let c := min 20000 cap
      let low := decide (c < d.ob Obj.HoldupCapacitanceMin)
      let was := d.bit Reg.PWR_STATUS 7
      let d := (d.setOb Obj.HoldupCapacitance c).setBit Reg.PWR_STATUS 7 low
      let d : Dev := { d with pwr := { d.pwr with holdupAt := d.porch.opTicks } }
      if low = was then d else d.event 4 0x9005 [.w c]
    else d)

/-! ## Clusters (R444) -/

/-- A write of ClusterPowerRequest (R20). -/
def Dev.clusterRequest (d : Dev) (r : Req) (off : Nat) (data : List Byte) : Dev :=
  d.dictWriteWith r 0x2003 2 off data (fun (d : Dev) => d.writeClusters off data)

def execFabricReady (t region : Nat) (s : State) : Host.Outcome State Fault Refusal := s.put ((s.dev.advance t).fabricReady region)

def execClusterPowerUpDone (t c : Nat) (s : State) : Host.Outcome State Fault Refusal := s.put ((s.dev.advance t).clusterUpDone c)

def execClusterCodeLoaded (t c : Nat) (s : State) : Host.Outcome State Fault Refusal := s.put ((s.dev.advance t).clusterCode c)

/-! ## Power states (R445) -/

/-- A queue holds an on or level entry. -/
def Dev.queueOn (d : Dev) : Bool := d.shq.queue.any (fun q => q.action == 1 || q.action == 2)

def Dev.aim (d : Dev) (p : PState) (park : Bool) : Dev := { d with pwr := { d.pwr with target := some p, parkAfter := park } }

/-- A start of a kind begins at a step; the oscillator is asked for where that step is its own. -/
def Dev.startBegin (d : Dev) (kind step : Nat) : Dev :=
  let d := (d.incOb Obj.StartCount).setOb Obj.LastStartKind kind
  let d : Dev := { d with
    rcd := { d.rcd with scanDone := false }
    start := { d.start with step := step, kind := kind, inService := false, resetReq := 0 } }
  d.setBit Reg.REC_STATUS 0 false

/-- Objects that show what holds whatever starts: what the units that stay on in Standby find, the partition, an update in progress. -/
def standingObj (k : Nat) : Bool :=
  let idx := k / 256 % 65536
  [Obj.FieldOriginCheck, Obj.LedgerHeld, Obj.HoldupCapacitance, Obj.UpdateState, Obj.UpdateResult].contains k || idx == 0x1123
    || (decide (0x3101 ≤ idx) && decide (idx ≤ 0x3104))

/-- A volatile object, or a counter that restarts, kept outside the registers (R378). -/
def volatileObj (k : Nat) : Bool :=
  k / 0x1000000 == 0 && !keptObj k && !standingObj k
    && (match objRow (k / 256 % 65536) (k % 256) with
      | some r => !r.persistent && r.mirror.isNone
      | none => false)

/-- What loops, carriers and direct commands drive stops, and counters of the power dies restart (R378). -/
def Dev.volatileRegs (d : Dev) : Dev :=
  let d := (List.range 32).foldl (fun (d : Dev) g => (d.hgDisable g 1).wr (hgReg Reg.HG_TARGET g) 0) d
  let d := (List.range 16).foldl (fun (d : Dev) n => (if d.bit (Reg.LV_CTRL n) 31 then d.lvOff n 1 else d).wr (Reg.LV_PERIODS n) 0) d
  let d := [0, 1].foldl (fun (d : Dev) i => (d.lvTest i 0).setHold i false 0 0) d
  let d := (List.range 24).foldl (fun (d : Dev) n => if d.f (Reg.LS_DIRECT n) 15 0 = 0 then d else d.lsDirect n 0) d
  let d := (List.range 32).foldl (fun (d : Dev) n => if d.f (Reg.DIO_DIRECT n) 0 0 = 0 then d else d.dioDirect n 0) d
  (List.range 64).foldl (fun (d : Dev) n => d.wr (Reg.SOL_PULSES n) 0) d

/-- Volatile objects return to their defaults, and the edited ranges to the stored ones, at a start that skips the reset of the units
which hold them (R378). -/
def Dev.volatileBack (d : Dev) : Dev :=
  let n := match d.nv.find? (fun p => p.1 == Obj.RangeCount) with | some p => p.2 | none => 0
  let stored := SMap.getList (fun _ => (0 : Byte)) d.nvDom (domKey Obj.EndpointRanges 0) (64 * n)
  let d := d.volatileRegs
  let d : Dev := { d with
    objs := SMap.keep (fun k => !volatileObj k) d.objs
    domb := SMap.setList (fun _ => (0 : Byte)) (SMap.keep (fun k => k / 0x10000000 != Obj.EndpointRanges) d.domb)
      (domKey Obj.EndpointRanges 0) stored }
  d.setOb Obj.RangeCount n

/-- A warm start begins (R445, R492). -/
def Dev.warmStart (d : Dev) : Dev := (d.volatileBack.startBegin 2 3).oscRequest 0

/-- A transition that the device may perform from its present state. -/
def Dev.powerTo (d : Dev) (p : PState) : WRes :=
  match d.pstate, p with
  | .ready, .field => if !d.start.inService || !d.member || d.ib.dupNumber then d.no 0x0401 else (d.aim .field false).yes
  | .field, .ready => if d.queueOn then d.no 0x0401 else (d.aim .ready false).yes
  | .ready, .standby => if d.shq.queue.isEmpty then (d.aim .standby false).yes else d.no 0x0401
  | .ready, .parked => if d.shq.queue.isEmpty then (d.aim .standby true).yes else d.no 0x0401
  | .standby, .ready => (d.warmStart).yes
  | .standby, .parked => (d.aim .parked false).yes
  | _, _ => d.no 0x0401

/-- A PowerStateRequest. -/
def Dev.powerRequest (d : Dev) (p : PState) : WRes :=
  if d.pstate = .doorstop then d.no 0x0401
  else if d.pwr.target.isSome || decide (d.start.step ≠ 0) then d.no 0x0601
  else if d.pstate = p then d.yes
  else d.powerTo p

def execPowerRequestParked (t : Nat) (r : Req) (s : State) : Host.Outcome State Fault Refusal :=
  s.put ((s.dev.advance t).dictVal r 0x2000 2 1 1 (fun (d : Dev) => d.powerRequest .parked))
def execPowerRequestStandby (t : Nat) (r : Req) (s : State) : Host.Outcome State Fault Refusal :=
  s.put ((s.dev.advance t).dictVal r 0x2000 2 1 2 (fun (d : Dev) => d.powerRequest .standby))
def execPowerRequestReady (t : Nat) (r : Req) (s : State) : Host.Outcome State Fault Refusal :=
  s.put ((s.dev.advance t).dictVal r 0x2000 2 1 3 (fun (d : Dev) => d.powerRequest .ready))
def execPowerRequestField (t : Nat) (r : Req) (s : State) : Host.Outcome State Fault Refusal :=
  s.put ((s.dev.advance t).dictVal r 0x2000 2 1 4 (fun (d : Dev) => d.powerRequest .field))

/-- Ready has become Standby; a request for Parked goes on. -/
def execStandbyEntered (t : Nat) (s : State) : Host.Outcome State Fault Refusal :=
  let d := s.dev.advance t
  s.put (if d.fabricOn && d.pwr.target == some .standby then
      let park := d.pwr.parkAfter
      let d := d.toStandby
      { d with pwr := { d.pwr with target := if park then some .parked else none, parkAfter := false } }
    else d)

/-- Standby has become Parked, after the porch mirror. -/
def execParkedEntered (k : Nat) (s : State) : Host.Outcome State Fault Refusal :=
  let d := s.dev.advanceTicks k
  s.put (if decide (d.pstate = .standby) && d.pwr.target == some .parked then d.toParked else d)

/-! ## Wake sources (R58) -/

def execWakeSource (k src : Nat) (s : State) : Host.Outcome State Fault Refusal :=
  let d := s.dev.advanceTicks k
  s.put (if d.porch.powered ∧ src < 8 then d.wakeSet src else d)

/-- A level of the wake line that lasts 1 ms (R58, R509). -/
def execHostWakeLine (k : Nat) (s : State) : Host.Outcome State Fault Refusal :=
  let d := s.dev.advanceTicks k
  s.put (if d.porch.powered then d.wakeSet 0 else d)

/-- The porch counter equals a rendezvous alarm. -/
def execPorchAlarm (k n : Nat) (s : State) : Host.Outcome State Fault Refusal :=
  let d := s.dev.advanceTicks k
  s.put (if d.porch.powered && decide (n < 4) && decide (d.rd64 (Reg.ALARM_LO n) = d.porch.ticks) then d.wakeSet (1 + n) else d)

/-- The package has woken from Parked to Standby. -/
def execParkedWakeDone (k : Nat) (s : State) : Host.Outcome State Fault Refusal :=
  let d := s.dev.advanceTicks k
  s.put (if decide (d.pstate = .parked) && d.pwr.target == some .standby then
      let d := (d.toStandbyFromParked).originUpdate
      { d with pwr := { d.pwr with target := none } }
    else d)

/-- A burst's measurement: the record is stored, the burst ends, and too few locked records wake the package (R94). -/
def execBurstMeasurement (k : Nat) (s : State) : Host.Outcome State Fault Refusal :=
  let d := s.dev.advanceTicks k
  s.put (if d.gnss.bursting && decide (d.trackFrom + 656 ≤ k) then
      let p := d.burstStore k
      let d : Dev := p.1
      if p.2 < d.ob Obj.BurstMinLocked ∧ d.bit Reg.WAKE_EN 5 ∧ ¬ d.fabricOn then
        (d.wakeSet 5).event 0 0x2005 [.w p.2, .h (d.ob Obj.BurstMinLocked)]
      else d
    else d)

/-! ## Temperature (R26, R447, R458) -/

def tempOk (temp : Int) : Bool := decide (-50 ≤ temp) && decide (temp ≤ 175)

def Dev.setTemp (d : Dev) (die : Nat) (temp : Int) : Dev :=
  d.setF Reg.PWR_TEMP (8 * die + 7) (8 * die) (unsx 8 (clampI (-128) 127 temp))

/-- A reading of a die keeps its heat: one of 130 °C or more ends a wait for the end of halving, one of 135 °C or more for that of the
stop. -/
def Dev.heat (d : Dev) (die : Nat) (temp : Int) : Dev :=
  let x := d.dieClkOf die
  let d := if 130 ≤ temp then
      let d := d.setDieClk die { x with hot130 := d.now + 1, hot135 := if 135 ≤ temp then d.now + 1 else x.hot135 }
      { d with pwr := { d.pwr with restore := putBits d.pwr.restore (2 + die) (2 + die) 0 } }
    else d
  if 135 ≤ temp then { d with pwr := { d.pwr with restore := putBits d.pwr.restore die die 0 } } else d

/-- The clock of an engine die stops. -/
def Dev.dieStop (d : Dev) (die : Nat) (temp : Int) : Dev :=
  if bitOf d.dieStopped die then d
  else
    let d := d.dieCount die
    let d : Dev := { d with dieStopped := d.dieStopped + 2 ^ die }
    let d := (d.setBit Reg.PWR_STATUS (8 + die) true).incOb Obj.ThrottleCount
    d.event die 0x9020 [.h die, .wI temp]

/-- What a reading of an engine die asks for: halving from 140 °C at the next frame start, the stop from 155 °C at once (R26, R447). -/
def Dev.dieHeat (d : Dev) (die : Nat) (temp : Int) : Dev :=
  if 2 ≤ die then d
  else
    let d := d.heat die temp
    let d : Dev := if 140 ≤ temp ∧ ¬ d.bit Reg.PWR_STATUS (10 + die) then
        { d with pwr := { d.pwr with halveNext := putBits d.pwr.halveNext die die 1 } } else d
    if 155 ≤ temp then d.dieStop die temp else d

/-- A reading of one of a die's sensors, within its range (R458). -/
def Dev.dieReading (d : Dev) (die : Nat) (temp : Int) : Dev :=
  if d.hostOn && decide (die < 4) && tempOk temp then (d.setTemp die temp).dieHeat die temp else d

def execDieTempHigh (t die : Nat) (temp : Int) (s : State) : Host.Outcome State Fault Refusal :=
  s.put ((s.dev.advance t).dieReading die temp)

def execDieTempStop (t die : Nat) (temp : Int) (s : State) : Host.Outcome State Fault Refusal :=
  s.put ((s.dev.advance t).dieReading die temp)

/-- Every sensor of a die has stayed below a threshold for 1 s: 135 °C ends the stop, 130 °C the halving, at the next frame start. A
halving that has not begun is not called off. -/
def Dev.dieRecover (d : Dev) (die : Nat) (temp : Int) : Dev :=
  let x := d.dieClkOf die
  let long (hot : Nat) : Bool := decide (hot = 0) || decide (hot + 1000000000 ≤ d.now + 1)
  if 2 ≤ die then d
  else
    let d : Dev := if temp < 135 ∧ long x.hot135 ∧ bitOf d.dieStopped die then
        { d with pwr := { d.pwr with restore := putBits d.pwr.restore die die 1 } } else d
    if temp < 130 ∧ long x.hot130 ∧ d.bit Reg.PWR_STATUS (10 + die) then
      { d with pwr := { d.pwr with restore := putBits d.pwr.restore (2 + die) (2 + die) 1 } }
    else d

def execDieTempRecover (t die : Nat) (temp : Int) (s : State) : Host.Outcome State Fault Refusal :=
  let d := (s.dev.advance t).dieReading die temp
  s.put (if d.hostOn && decide (die < 4) && tempOk temp then d.dieRecover die temp else d)

/-- A sensor unread for 10 ms counts as 155 °C. -/
def execDieSensorTimeout (t die : Nat) (s : State) : Host.Outcome State Fault Refusal :=
  let d := s.dev.advance t
  s.put (if d.hostOn then d.dieHeat die 155 else d)

/-- A reading outside −50 °C to 175 °C: the sensor is ignored. -/
def execTemperatureSensorIgnored (t die : Nat) (temp : Int) (s : State) : Host.Outcome State Fault Refusal :=
  let d := s.dev.advance t
  s.put (if d.hostOn && decide (die < 4) && !tempOk temp then d.event 4 0x9021 [.h die, .wI temp] else d)

/-- Halving, stops and restores that wait for the frame start (R26, R447). -/
def Dev.dieClocks (d : Dev) : Dev :=
  let temp (d : Dev) (die : Nat) : Int := sx 8 (d.f Reg.PWR_TEMP (8 * die + 7) (8 * die))
  let d := [0, 1].foldl (fun (d : Dev) die =>
    let d := d.dieCount die
    let d := if bitOf d.pwr.halveNext die then
        ((d.setBit Reg.PWR_STATUS (10 + die) true).incOb Obj.ThrottleCount).event die 0x9020 [.h die, .wI (temp d die)] else d
    let d := if bitOf d.pwr.restore die then
        let d : Dev := { d with dieStopped := putBits d.dieStopped die die 0 }
        (d.setBit Reg.PWR_STATUS (8 + die) false).event die 0x9020 [.h die, .wI (temp d die)] else d
    if bitOf d.pwr.restore (2 + die) then
      (d.setBit Reg.PWR_STATUS (10 + die) false).event die 0x9020 [.h die, .wI (temp d die)] else d) d
  { d with pwr := { d.pwr with halveNext := 0, restore := 0 } }

/-- A pass of the memory scrub (R452). -/
def execMemoryScrub (t : Nat) (uncorrectable : Bool) (s : State) : Host.Outcome State Fault Refusal :=
  let d := s.dev.advance t
  s.put (if uncorrectable then { d with pwr := { d.pwr with eccAt := d.now + 1 } } else d)

end Sys2Proof.Machine
end

