-- ==== Sys2Proof/Machine/Pair.lean ====
section
/-! DEFINITION. The pairing unit: HealthWord, pairing frames, yielding, divergence and return (R448 to R457), and the start of a
round (R52, R323, R450). -/
namespace Sys2Proof.Machine

/-! ## Health (R448, R452) -/

/-- PairConfigCheck: CRC-32 over the stored endpoint ranges, FrameLength, RoundLength, OpenLength, NodeLead and the WindowTable of
every enabled bus, in this order (R448). -/
def Dev.pairCheck (d : Dev) : Nat :=
  let tables := ((List.range 4).map (fun p => if d.bit (Reg.IB_CTRL p) 31 then d.dom (Obj.WindowTable p) 0 128 else [])).flatten
  crc32 (d.storedRanges.flatten ++ leBytes (d.ob Obj.FrameLength) 2 ++ leBytes (d.ob Obj.RoundLength) 2
    ++ leBytes (d.ob Obj.OpenLength) 2 ++ leBytes (d.ob Obj.NodeLead) 2 ++ tables)

/-- ImageVersion of the active image. -/
def Dev.activeVersion (d : Dev) : Nat :=
  match d.ob Obj.ActiveImage with
  | 1 => d.ob (Obj.BootImageVersion 0)
  | 2 => d.ob (Obj.BootImageVersion 1)
  | _ => 0

/-- The partner's image or configuration differs (R448). -/
def Dev.pairDiffers (d : Dev) : Bool := d.pair.heard && (d.pair.image != d.activeVersion || d.pair.check != d.pairCheck)

/-- HealthWord (R452). The shadow comparators of bit 2 never disagree in this model. -/
def Dev.healthWord (d : Dev) : Nat :=
  let die (b : Nat) : Bool := d.bit (Reg.SOL_DIE_STATUS 0) b || d.bit (Reg.SOL_DIE_STATUS 1) b
  let bits : List Bool := [
    (List.range 1024).any (fun e => d.frozen e),
    decide (0 < d.pwr.eccAt) && decide (d.now < d.pwr.eccAt - 1 + d.roundNs),
    false,
    d.ftClass == 3 || !d.windowsOk,
    !d.bit Reg.POSE_STATUS 1,
    (List.range 6).any (fun l => !d.laneUp l),
    d.bit Reg.PWR_STATUS 6 || (d.feedClass 0 != 2 && d.feedClass 1 != 2),
    d.dieStopped != 0,
    d.wdgState 0 != 1 || d.wdgState 1 != 1,
    d.pairDiffers,
    d.f (Reg.IB_STATUS (d.ob Obj.PairBus)) 3 2 != 0,
    die 7 || die 3 || die 4,
    d.bit Reg.PWR_HEALTH_FW 0]
  bits.foldr (fun b n => b2n b + 2 * n) 0

/-- Self-diagnosis fails on a health word. -/
def Dev.healthFails (d : Dev) (h : Nat) : Bool := h &&& d.ob Obj.HealthFailMask != 0

/-! ## Yielding and return (R453, R456) -/

def Dev.setPairState (d : Dev) (st : Nat) : Dev :=
  (({ d with pair := { d.pair with state := st } } : Dev).setF Reg.PWR_PAIR 1 0 st).fixKickBlock

/-- The unit yields: its command frames that wait go no further. -/
def Dev.pairYield (d : Dev) (h : Nat) : Dev :=
  let bus := d.ob Obj.PairBus
  let d : Dev := { d with ib := { d.ib with tx := d.ib.tx.filter (fun f => !(f.port == bus && decide (8 ≤ f.fn) && decide (f.fn ≤ 0x0B))) } }
  ((d.incOb Obj.PairYields).event 4 0x9030 [.h h]).setPairState 2

/-- Health and pairing at a frame start of `us` µs since the last (R452, R453, R456). -/
def Dev.pairHealth (d : Dev) (us : Nat) : Dev :=
  let h := d.healthWord
  let fails := d.healthFails h
  let clean := if fails then 0 else min (4294967295 * 1000) (d.pair.cleanUs + us)
  let d : Dev := { d with pair := { d.pair with cleanUs := clean } }
  let d := (d.setF Reg.PWR_HEALTH 15 0 h).setF Reg.PWR_PAIR 31 16 (min 65535 (clean / 1000000))
  if d.ob Obj.PairRole = 0 then (if d.pair.state = 0 then d else d.setPairState 0)
  else match d.pair.state with
    | 0 =>
      let i := d.intervalOf d.now
      ({ d with pair := { d.pair with heardInterval := i, partnerState := 2, heard := false } } : Dev).setPairState 1
    | 1 => if fails then d.pairYield h else d
    | 2 =>
      if fails then d else ({ d with pair := { d.pair with got := [], matches_ := 0 } } : Dev).setPairState 3
    | _ => if fails then d.setPairState 2 else d

/-- Keys of the package's own command streams on PairBus, function · 256 + stream. -/
def Dev.ownStreams (d : Dev) : List Nat :=
  (d.ib.txSeq.filter (fun p => p.1 / 0x10000 == d.ob Obj.PairBus && decide (8 ≤ p.1 / 0x100 % 0x100) && decide (p.1 / 0x100 % 0x100 ≤ 0x0B))).map
    (fun p => p.1 % 0x10000)

/-- The conditions of R456, at the start of an interval. -/
def Dev.mayRejoin (d : Dev) : Bool :=
  d.pair.state == 3 && decide (10000000 ≤ d.pair.cleanUs) && decide (2 ≤ d.pair.matches_)
    && decide ((d.intervalOf d.now + 2 ^ 32 - d.pair.matchAt) % 2 ^ 32 ≤ 2) && d.ownStreams.all (fun k => d.pair.got.contains k)

def Dev.pairRejoin (d : Dev) : Dev :=
  if d.mayRejoin then
    ((d.incOb Obj.PairRejoins).event 4 0x9033 [.w (d.pair.cleanUs / 1000)]).setPairState 1
  else d

/-! ## Divergence (R454) -/

/-- Class N entries still pending whose schedule was built in an interval are sent again as replacing schedules. -/
def Dev.pairResend (d : Dev) (i : Nat) : Dev :=
  let now := d.intervalOf d.now
  (d.pair.built.filter (fun b => b.2.2 == i)).foldl (fun (d : Dev) b =>
    match d.shq.queue.find? (fun q => q.engine == b.1 && q.handle == b.2.1) with
    | some q =>
      let o : IbOff :=
        { out := d.qOut q, engine := q.engine, handle := q.handle, old := q.handle, epoch := q.epoch, level := q.level, fireFt := q.fireFt }
      d.schedNow o q.action (some now)
    | none => d) d

/-- The digests of interval `i`, once both are there. -/
def Dev.pairCompare (d : Dev) (i : Nat) : Dev :=
  match d.pair.own.find? (fun x => x.interval == i), d.pair.partner.find? (fun x => x.interval == i) with
  | some a, some b =>
    if a.digest = b.digest then
      let n := if d.pair.partnerState ≠ 1 then 0 else if (d.pair.matchAt + 1) % 2 ^ 32 = i then min 2 (d.pair.matches_ + 1) else 1
      { d with pair := { d.pair with matches_ := n, matchAt := i } }
    else
      let d : Dev := { d with pair := { d.pair with matches_ := 0 } }
      let d := (d.incOb Obj.PairDivergences).event 4 0x9031 [.w i, .w a.digest, .w b.digest]
      if d.pair.state ≠ 1 then d
      else if d.healthFails a.health then d.pairYield a.health
      else if !d.healthFails b.health && d.ob Obj.PairRole == 2 then d.pairYield a.health
      else d.pairResend i
  | _, _ => d

/-! ## Frames (R450) -/

def Dev.pairSend (d : Dev) (stream : Nat) (body : List Byte) : Dev :=
  let bus := d.ob Obj.PairBus
  let (d, s) := d.ibSeq bus 0x28 stream
  (d.ibPush { port := bus, prio := 1, fn := 0x28, stream := stream, data := fdPad (leBytes s 2 ++ body), entries := [], node := 0, on := false }).1

/-- The pairing frame of the interval just ended. -/
def Dev.pairFrame (d : Dev) (x : PairTerm) : Dev :=
  d.pairSend 0 (leBytes (d.ob Obj.PairRole) 1 ++ leBytes d.pair.state 1 ++ leBytes x.health 2 ++ leBytes (d.ob Obj.PairPartner) 2
    ++ leBytes x.interval 4 ++ leBytes x.digest 4 ++ leBytes d.activeVersion 4 ++ leBytes d.pairCheck 4
    ++ leBytes (d.pair.cleanUs / 1000) 4 ++ List.replicate 4 0)

/-- The Highest of every command stream, 15 to a frame, for a partner that rejoins. -/
def Dev.pairHighest (d : Dev) : List Nat → Nat → Nat → Dev
  | _, _, 0 => d
  | [], _, _ => d
  | k :: ks, stream, n + 1 =>
    let now := (k :: ks).take 15
    let entry (k : Nat) : List Byte :=
      leBytes (k / 256) 1 ++ leBytes (k % 256) 1
        ++ leBytes (SMap.get (fun _ => 0) d.ib.txSeq (d.ob Obj.PairBus * 0x10000 + k) + 65535) 2
    let d := d.pairSend stream (leBytes now.length 1 ++ [0] ++ (now.map entry).flatten)
    Dev.pairHighest d ((k :: ks).drop 15) (stream + 1) n

/-- The start of a pairing interval: the interval that ends gets its term; the unit may return; its frames are built. -/
def Dev.pairInterval (d : Dev) : Dev :=
  if d.ob Obj.PairRole = 0 || d.pair.state = 0 then d
  else
    let d := d.pairFlush
    let i := (d.intervalOf d.now + 2 ^ 32 - 1) % 2 ^ 32
    let digest := match d.pair.digests.find? (fun p => p.1 % 2 ^ 32 == i) with | some p => p.2 | none => 0
    let x : PairTerm := { interval := i, digest := digest, health := d.healthWord }
    let d : Dev := { d with pair := { d.pair with
      own := x :: d.pair.own.take 3, digests := d.pair.digests.filter (fun p => p.1 % 2 ^ 32 != i) } }
    let d := (d.pairCompare i).pairRejoin
    let d := d.pairFrame x
    if d.pair.state = 1 ∧ d.pair.partnerState = 3 then d.pairHighest d.ownStreams 1 63 else d

/-- A pairing frame, past R319 (R450, R454 to R456, R458). -/
def Dev.pairTerm (d : Dev) (b : List Byte) : Dev :=
  let i := d.intervalOf d.now
  let x : PairTerm := { interval := leAt b 8 4, digest := leAt b 12 4, health := leAt b 4 2 }
  let known := d.pair.partner.any (fun y => y.interval == x.interval)
  let wasLost := d.pair.lost
  let d : Dev := { d with pair := { d.pair with
    partner := if known then d.pair.partner else x :: d.pair.partner.take 3
    partnerState := byteAt b 3, heardInterval := i, lost := false, image := leAt b 16 4, check := leAt b 20 4, heard := true } }
  let d := d.setF Reg.PWR_HEALTH 31 16 x.health
  let d := if wasLost then d.event 4 0x9032 [.h (d.ob Obj.PairPartner)] else d
  if known then d else d.pairCompare x.interval

/-- The partner's Highest: a unit that rejoins takes its next numbers. -/
def Dev.pairNumbers (d : Dev) (b : List Byte) : Dev :=
  if d.pair.state ≠ 3 then d
  else
    (List.range (min 15 (byteAt b 2))).foldl (fun (d : Dev) j =>
      let fn := byteAt b (4 + 4 * j)
      let st := byteAt b (5 + 4 * j)
      let key := d.ob Obj.PairBus * 0x10000 + fn * 0x100 + st
      let next := (leAt b (6 + 4 * j) 2 + 1) % 65536
      { d with
        ib := { d.ib with txSeq := SMap.set (fun _ => 0) d.ib.txSeq key next }
        pair := { d.pair with got := (fn * 256 + st) :: d.pair.got.filter (fun k => k != fn * 256 + st) } }) d

/-- A frame of function 0x28 on PairBus (R458). -/
def Dev.pairRx (d : Dev) (port sender stream : Nat) (b : List Byte) : Dev :=
  let role := d.ob Obj.PairRole
  if role = 0 ∨ port ≠ d.ob Obj.PairBus then d
  else if sender ≠ d.ob Obj.PairPartner then d.event 4 0x9034 [.h sender, .h (Config.cause 0x9034 0)]
  else if stream = 0 ∧ byteAt b 2 ≠ 3 - role then d.event 4 0x9034 [.h sender, .h (Config.cause 0x9034 1)]
  else if stream = 0 then d.pairTerm b
  else d.pairNumbers b

def execPairingFrameRx (t port sender stream : Nat) (data : List Byte) (s : State) : Host.Outcome State Fault Refusal :=
  let d := s.dev.advance t
  s.put (if d.fabricOn then
      let q := d.seqJudge port sender 0x28 stream (leAt data 0 2)
      if q.2 then Dev.pairRx q.1 port sender stream data else q.1
    else d)

/-- Three intervals without a pairing frame (R455). -/
def execPairPartnerLost (t : Nat) (s : State) : Host.Outcome State Fault Refusal :=
  let d := s.dev.advance t
  s.put (if d.fabricOn && d.ob Obj.PairRole != 0 && decide (d.pair.state ≠ 0) && !d.pair.lost
      && decide (d.pair.heardInterval + 3 < d.intervalOf d.now) then
      ({ d with pair := { d.pair with lost := true, partnerState := 2 } } : Dev).event 4 0x9032 [.h (d.ob Obj.PairPartner)]
    else d)

/-! ## The start of a round -/

/-- Reference messages, windows, repeats and pairing at a round start. -/
def Dev.roundWork (d : Dev) : Dev :=
  let d := d.roundStart
  let d := (List.range 4).foldl (fun (d : Dev) p => d.roundWindows p) d
  (d.roundRepeats).pairInterval

def execRoundStart (t : Nat) (s : State) : Host.Outcome State Fault Refusal :=
  let d := s.dev.advance t
  s.put (if d.fabricOn && d.roundNs != 0 && t % d.roundNs == 0 && d.now == t then d.roundWork else d)

end Sys2Proof.Machine
end

