-- ==== Sys2Proof/Machine/IbRx.lean ====
section
/-! DEFINITION. The way of a received frame (R315 to R320, R324 to R326, R334), rendezvous and wake (R336 to R338). -/
namespace Sys2Proof.Machine

/-! ## Discards (R315 to R318) -/

/-- A frame is discarded: IbDiscarded, and 0x700E with the count since the last record, at most once per second. -/
def Dev.ibDiscard (d : Dev) (p why : Nat) : Dev :=
  let n := SMap.get (fun _ => 0) d.ib.discSince p + 1
  let d := d.addOb (Obj.IbDiscarded p) 1
  let d : Dev := { d with ib := { d.ib with discSince := SMap.set (fun _ => 0) d.ib.discSince p n } }
  let before := d.rcd.evLast
  let d := d.eventEvery 1000000000 0 0x700E p [.h p, .h why, .w n]
  if d.rcd.evLast = before then d else { d with ib := { d.ib with discSince := SMap.set (fun _ => 0) d.ib.discSince p 0 } }

/-- Entry bytes of a counted frame (R329, R450). -/
def entryBytes (fn : Nat) : Nat := if fn = 8 then 20 else if fn = 0x10 then 16 else 4

/-- An entry of a schedule is an off (R329). -/
def anyOff (b : List Byte) : Bool := (List.range (byteAt b 2)).any (fun i => byteAt b (5 + 20 * i) % 4 == 0)

/-- Whether a function has a priority; a schedule has 1 where any entry is an off, else 2 (R318). -/
def prioOk (fn prio : Nat) (b : List Byte) : Option Bool :=
  match fn with
  | 0x00 | 0x01 | 0x02 => some (prio == 0)
  | 0x08 => some (prio == if anyOff b then 1 else 2)
  | 0x09 | 0x28 => some (prio == 1)
  | 0x0A => some (prio == 2)
  | 0x0B | 0x18 | 0x19 | 0x1A => some (prio == 5)
  | 0x10 => some (prio == 3)
  | 0x11 => some (prio == 6)
  | 0x20 => some (prio == 4)
  | _ => if 0x30 ≤ fn ∧ fn ≤ 0x3F then some (decide (1 ≤ prio)) else none

/-- The least payload of a frame's layout. -/
def leastBytes (fn stream : Nat) (b : List Byte) : Nat :=
  match fn with
  | 0x00 => 12
  | 0x01 | 0x02 | 0x11 => 16
  | 0x08 | 0x09 | 0x0A | 0x10 => 4 + entryBytes fn * max 1 (byteAt b 2)
  | 0x0B => 24
  | 0x18 => 32
  | 0x19 | 0x1A | 0x20 => 8
  | 0x28 => if stream = 0 then 32 else 4 + 4 * max 1 (byteAt b 2)
  | _ => 2

/-- The cause of a discard by identifier and layout; 0 for none. -/
def frameCause (ident : Nat) (b : List Byte) : Nat :=
  let fn := bitsOf ident 25 20
  let who := bitsOf ident 19 6
  if !nodeIdent who && !packageIdent who then 3
  else match prioOk fn (bitsOf ident 28 26) b with
    | none => 4
    | some false => 5
    | some true => if b.length < leastBytes fn (bitsOf ident 5 0) b then 6 else 0

/-! ## The guardian (R326) -/

/-- A reference message's sender may be a candidate (R55 rules 1 and 2): a package number, and an epoch that its Flags call set. -/
def candidateMsg (who : Nat) (b : List Byte) : Bool := packageIdent who && (byteAt b 13).testBit 0

/-- Rule 5 of R55 for another package: the key its message gives stayed below the time master's for ten rounds. The guardian
holds no other key of that package: DEDUCED. -/
def Dev.challenges (d : Dev) (who : Nat) (b : List Byte) : Bool :=
  decide (10 ≤ d.tmst.keys.length) && d.tmst.keys.all (fun k => decide (masterKey (byteAt b 12) who < k))

/-- Priority 0 from this sender is admitted. While no time master is known, a candidate's reference message may be the time
master's and is admitted: DESIGN CHOICE. -/
def Dev.guardAdmits (d : Dev) (fn who : Nat) (b : List Byte) : Bool :=
  match fn with
  | 0x00 => packageIdent who
  | 0x01 => packageIdent who && (who == d.tmst.master
      || (candidateMsg who b && (d.tmst.election || d.tmst.master == 0 || d.challenges who b)))
  | 0x02 => packageIdent who && who == d.tmst.master
  | _ => false

/-- The guardian on a priority-0 frame: whether it is admitted, else refused, and its number heard all the same (R33, R326). -/
def Dev.guardGate (d : Dev) (p fn who : Nat) (b : List Byte) : Dev × Bool :=
  if d.guardAdmits fn who b then (d, true)
  else ((if who ≠ 0 ∧ who = d.ob Obj.PackageNumber then d.ownNumberHeard p else d).guardRefuse p who, false)

/-- A reference message by its payload, past the guardian (R32, R53). -/
def Dev.referenceRx (d : Dev) (bus : Nat) (m : RefMsg) (flags check : Nat) : Dev :=
  let b := leBytes m.txPrev 8 ++ leBytes m.round 4 ++ leBytes m.cls 1 ++ leBytes flags 1 ++ leBytes check 2
  let g := d.guardGate bus 0x01 m.sender b
  if g.2 then g.1.refRx bus m check else g.1

/-! ## Sequence numbers (R319, R320) -/

/-- Functions whose streams the package receives. -/
def seqFunction (fn : Nat) : Bool :=
  fn == 2 || (decide (0x08 ≤ fn) && decide (fn ≤ 0x0B)) || fn == 0x10 || fn == 0x11 || fn == 0x20 || fn == 0x28

/-! ## Windows (R324, R325) -/

/-- Where a frame from `a` to `e` lies: 0 inside, 1 within 25 µs of its window, 2 further outside. -/
def Dev.windowPlace (d : Dev) (p who a e : Nat) : Nat :=
  let s := d.roundAt a
  let op := d.openSpan s
  let removed := nodeIdent who && (match d.ibNode p (who - 0x3E00) with | some n => n.removed | none => false)
  let spans := op :: (if removed then [] else (d.windowList p who).map (fun j => windowSpan s j))
  let g := 25000
  if spans.any (fun w => decide (w.1 ≤ a) && decide (e ≤ w.2)) then 0
  else if spans.any (fun w => decide (w.1 ≤ a + g) && decide (a < w.2) && decide (e ≤ w.2)) then 1
  else if (spans.drop 1).any (fun w => decide (w.1 ≤ a + g) && decide (a < w.2) && decide (e ≤ w.2 + g)) then 1
  else 2

/-- The node counts as lost (R333). -/
def IbNode.lostIn (n : IbNode) (d : Dev) : Bool := d.nodeState n.port n.node == 3

/-- An intrusion by one of the package's nodes (R325). A lost node stays lost, and comes back with its windows removed. -/
def Dev.nodeIntrusion (d : Dev) (p node : Nat) : Dev :=
  match d.ibNode p node with
  | none => d
  | some n =>
    let r := d.roundNumber
    let xs := (r :: n.intrusions).filter (fun x => decide (r < x + 16))
    let d := d.withNode p node (fun (n : IbNode) => { n with intrusions := xs, removedAt := r })
    if !n.removed && decide (3 ≤ xs.length) then
      let d := d.withNode p node (fun (n : IbNode) => { n with removed := true, before := 4 })
      let d := if n.lostIn d then d else d.setNodeState p node 4
      (d.nodeConfigure p node).event 0 0x7003 [.h p, .h node]
    else d

/-- The copy of a port's counters in a bank whose instant lies at or after a frame's start takes that frame in (R340). -/
def LatchBank.countIn (b : LatchBank) (p start : Nat) (w : Word) : LatchBank :=
  if start ≤ b.instant then { b with copies := b.copies.map (fun c => if c.1 = Reg.IB_COUNT p then (c.1, w) else c) } else b

/-- A counted frame stands in the copies of the newest Latch where it had started by that instant (R340). -/
def Dev.latchCounts (d : Dev) (p start : Nat) : Dev :=
  let w := d.rd (Reg.IB_COUNT p)
  if d.latch.counter % 2 = 0 then { d with latch := { d.latch with bank0 := d.latch.bank0.countIn p start w } }
  else { d with latch := { d.latch with bank1 := d.latch.bank1.countIn p start w } }

/-- Judges a frame against its sender's windows; answers OUT_OF_WINDOW. -/
def Dev.windowJudge (d : Dev) (p who a e : Nat) : Dev × Bool :=
  match d.windowPlace p who a e with
  | 0 => ({ d with ib := { d.ib with outSenders := d.ib.outSenders.filter (fun x => x != (p, who)) } }, false)
  | 1 => (((d.addOb (Obj.EdgeEvents p) 1).incF (Reg.IB_COUNT p) 15 0).latchCounts p a, false)
  | _ =>
    let d := ((d.addOb (Obj.Intrusions p) 1).incF (Reg.IB_COUNT p) 31 16).latchCounts p a
    let d := if nodeIdent who then (d.addOb (Obj.NodeIntrusions p (who - 0x3E00)) 1).nodeIntrusion p (who - 0x3E00) else d
    if d.ib.outSenders.contains (p, who) then (d, true)
    else
      let d : Dev := { d with ib := { d.ib with outSenders := (p, who) :: d.ib.outSenders } }
      ((d.event 0 0x7002 [.h p, .w who, .w (Config.freeWord d.fresh).toNat]).bump, true)

/-! ## Receive objects (R334) -/

/-- The device's object for a frame, taken where its sender needs one. -/
def Dev.devObjectFor (d : Dev) (p fn who : Nat) : Option Nat :=
  let held (node : Bool) (w : Nat) : Option Nat :=
    (d.ib.objects.find? (fun x => x.port == p && x.node == node && x.who == w)).map (fun x => x.obj)
  match fn with
  | 0x00 | 0x02 => some 0
  | 0x01 => some 1
  | 0x18 | 0x19 | 0x1A => some ((held false who).getD 2)
  | 0x28 => some ((held false who).getD 255)
  | 0x20 => some 3
  | 0x10 | 0x11 =>
    if nodeIdent who && (d.ibNode p (who - 0x3E00)).isSome then some ((held true (who - 0x3E00)).getD 255) else none
  | _ => none

/-- The lowest firmware object that matches an identifier. -/
def Dev.fwObjectFor (d : Dev) (p ident : Nat) : Option Nat :=
  (List.range 255).find? (fun o =>
    let w := (d.rd (Reg.IB_RFILT p o)).toNat
    bitOf w 31 && !d.devObject p o && ((ident ^^^ w) &&& (d.rd (Reg.IB_RMASK p o)).toNat) % 2 ^ 29 == 0)

/-- A frame is stored in an object. -/
def Dev.objStore (d : Dev) (p o start : Nat) (b : List Byte) (out : Bool) : Dev :=
  let st := d.rd (Reg.IB_RSTAT p o)
  let lost := fbit st 30 || fbit st 31
  let w := b.length + 65536 * ((fld st 23 16 + 1) % 256) + 2 ^ 29 * b2n out + 2 ^ 30 * b2n lost + 2 ^ 31
  let d := (d.wr (Reg.IB_RSTAT p o) (wd w)).wr (Reg.IB_RSTAMP p o) (wd start)
  (List.range 16).foldl (fun (d : Dev) j => d.wr (Reg.IB_RDATA p o j) (wd (leAt b (4 * j) 4))) d

/-- A package that sends ledger or pairing frames is given an object, or is heard again. -/
def Dev.heardPackage (d : Dev) (p fn who : Nat) : Dev :=
  if !(fn == 0x18 || fn == 0x19 || fn == 0x1A || fn == 0x28) then d
  else
    let now := d.now
    let d := d.objTake p false who
    { d with ib := { d.ib with objects := d.ib.objects.map (fun x =>
        if x.port = p ∧ x.node = false ∧ x.who = who then { x with heardAt := now } else x) } }

/-! ## Rendezvous (R336 to R338) -/

/-- The package sleeps: Parked or Standby. -/
def Dev.asleep (d : Dev) : Bool := decide (d.pstate = .parked) || decide (d.pstate = .standby)

/-- The rendezvous unit runs (R336). -/
def Dev.rendezvous (d : Dev) : Bool := d.asleep && d.ob Obj.RendezvousEnable == 1

/-- FT by the relation of R60 at a porch tick, in ns. -/
def Dev.tickFt (d : Dev) (k : Nat) : Nat :=
  carriedFt (d.porch.pairFt.getD 0) (k - d.porch.pairTicks) (d.rdI Reg.PORCH_CAL) / 4294967296

/-- The first porch tick at or after a whole second of FT plus RendezvousOffset. -/
def Dev.beaconTick (d : Dev) (k : Nat) : Bool :=
  let off := d.ob Obj.RendezvousOffset * 1000000
  decide ((d.tickFt (k - 1) - off) / 1000000000 < (d.tickFt k - off) / 1000000000)

/-- A beacon occupies its bus for 160 µs, six porch ticks (R322). -/
def Dev.beaconOn (d : Dev) (p k : Nat) : Dev :=
  { d with ib := { d.ib with beaconEnd := SMap.set (fun _ => 0) d.ib.beaconEnd p (k + 6) } }

/-- The beacon, on every enabled port with a partner (R336, R338). -/
def Dev.beaconSend (d : Dev) (k : Nat) : Dev :=
  let state := if d.pstate = .parked then 0 else if d.pwr.target == some .parked then 2 else 1
  let ports := d.ib.wakePorts.filter (fun p => d.ib.partners.any (fun x => x.port == p))
  let d : Dev := { d with ib := { d.ib with beaconTick := k } }
  ports.foldl (fun (d : Dev) p =>
    let (d, s) := (d.beaconOn p k).ibSeq p 0x20 0
    let b := leBytes s 2 ++ leBytes state 1 ++ [0] ++ leBytes (d.ob Obj.PorchDriftBound) 4
    d.emit .ib p (ibIdent 4 0x20 (d.ob Obj.PackageNumber) 0) (natsOf b)) d

/-- The beacon of tick `k`, where one is due and not sent yet. -/
def Dev.beaconStep (d : Dev) (k : Nat) : Dev :=
  if d.rendezvous && decide (d.ib.beaconTick < k) && d.beaconTick k then d.beaconSend k else d

/-- W of R337 in ns, `dk` ticks after the partner was last heard. -/
def Dev.listenWidth (d : Dev) (x : Partner) (dk : Nat) : Nat :=
  5000000 + 2 * (d.ob Obj.PorchDriftBound + x.drift) * (dk * 1000000000 / 32768) / 1000000000

/-- A beacon with this State at tick `k` is listened for: within the partner's window, or, for 500 ms after a wake-up pattern, with
State 1. A partner never heard before is listened for at any time: DESIGN CHOICE. -/
def Dev.listens (d : Dev) (x : Partner) (k state : Nat) : Bool :=
  let dk := k - x.heardTick
  let off := min (dk % 32768) (32768 - dk % 32768)
  let w := min 250000000 (d.listenWidth x dk)
  x.seq.isNone || (x.lost && !x.gaveUp && !x.wakeDue && state == 1 && decide (k < x.tryTick + 16384)) || decide (2 * (off * 1000000000 / 32768) ≤ w)

def Dev.setPartner (d : Dev) (x : Partner) : Dev :=
  { d with ib := { d.ib with partners := d.ib.partners.map (fun y => if y.port = x.port ∧ y.who = x.who then x else y) } }

/-- A wake request or pattern arrives on a port whose transceiver the unit drives (R336, R338): cause 1 pattern, 2 request. -/
def Dev.ibWake (d : Dev) (p why : Nat) : Dev :=
  if d.rendezvous && d.ib.wakePorts.contains p then (d.wakeSet 7).event 0 0x700D [.h p, .h why] else d

/-- The stream of a partner's beacons after another one, and what becomes of it (R319). -/
def Partner.judge (x : Partner) (s now : Nat) : IbStream × Nat :=
  match x.seq with
  | none => (IbStream.first x.port x.who 0x20 0 s, 0)
  | some y => y.judge s now

def Dev.beaconRx (d : Dev) (k p who : Nat) (b : List Byte) : Dev :=
  match d.ib.partners.find? (fun x => x.port == p && x.who == who) with
  | none => d
  | some x =>
    if !d.rendezvous || !d.ib.wakePorts.contains p || b.length < 8 || !d.listens x k (byteAt b 2) then d
    else
      let d := d.beaconOn p k
      let j := x.judge (leAt b 0 2) (d.tickFt k)
      let q := d.seqCount p who 0x20 j.2
      let x : Partner := { x with seq := some j.1 }
      if !q.2 then Dev.setPartner q.1 x
      else
        let drift := leAt b 4 4
        let d := Dev.setPartner q.1 { x with
          drift := if drift ≤ 100000000 then drift else 100000000
          heardTick := k, lost := false, tries := 0, gaveUp := false, wakeDue := false }
        if bitOf (byteAt b 3) 0 then d.ibWake p 2 else d

/-- A pattern may go out on a port now: no beacon is under way on it (R340), and the bus carries no traffic, which is none for 1 s
(DESIGN CHOICE), or its open window runs (R337). Only an enabled port is driven (R336). -/
def Dev.wakeMay (d : Dev) (k p : Nat) : Bool :=
  let now := d.tickFt k
  let o := d.openSpan (d.roundAt now)
  decide (SMap.get (fun _ => 0) d.ib.beaconEnd p ≤ k) && ((match d.ib.busAt.find? (fun x => x.1 == p) with
    | some x => decide (x.2 + 1000000000 ≤ now)
    | none => true) || (decide (o.1 ≤ now) && decide (now ≤ o.2)))

/-- The wake-up pattern goes out on a partner's port, or waits: for the end of a beacon (R340), for the open window (R337). -/
def Dev.wakePattern (d : Dev) (k : Nat) (x : Partner) : Dev :=
  let d := d.beaconStep k
  if d.ib.wakePorts.contains x.port && d.wakeMay k x.port then Dev.emit (d.setPartner { x with wakeDue := false, tryTick := k }) .wake x.port 0 []
  else d.setPartner { x with wakeDue := true, tryTick := k }

def Dev.partnerLost (d : Dev) (k p who : Nat) : Dev :=
  match d.ib.partners.find? (fun x => x.port == p && x.who == who) with
  | none => d
  | some x =>
    if d.rendezvous && !x.lost && decide (250000000 < d.listenWidth x (k - x.heardTick)) then
      (d.event 0 0x700B [.h p, .w who]).wakePattern k { x with lost := true, tries := 0 }
    else d

/-- A pattern that waits goes out in the open window. Up to three repetitions at 1 s intervals, then 0x700C. -/
def Dev.wakeRetry (d : Dev) (k p who : Nat) : Dev :=
  match d.ib.partners.find? (fun x => x.port == p && x.who == who) with
  | none => d
  | some x =>
    if d.rendezvous && x.lost && !x.gaveUp && x.wakeDue then d.wakePattern k x
    else if d.rendezvous && x.lost && !x.gaveUp && decide (x.tryTick + 32768 ≤ k) then
      if x.tries < 3 then d.wakePattern k { x with tries := x.tries + 1 }
      else (d.setPartner { x with gaveUp := true }).event 0 0x700C [.h p, .w who]
    else d

/-- RendezvousPartnerState: the worst of the partners. -/
def Dev.partnerState (d : Dev) : Nat :=
  if d.ib.partners.isEmpty || d.ob Obj.RendezvousEnable != 1 then 0
  else if d.ib.partners.any (fun x => x.gaveUp) then 3
  else if d.ib.partners.any (fun x => x.lost) then 2
  else 1

/-! ## A received frame -/

/-- What the device does with a frame of its own objects. -/
def Dev.frameContent (d : Dev) (p fn who stream start : Nat) (b : List Byte) : Dev :=
  match fn with
  | 0x01 =>
    let m : RefMsg :=
      { sender := who, capture := start, txPrev := leAt b 0 8, round := leAt b 8 4, cls := byteAt b 12 % 4 }
    d.refRx p m (leAt b 14 2)
  | 0x02 => d.silenceRx p who (leAt b 4 8)
  | 0x10 => d.nodeReports p (who - 0x3E00) b
  | 0x11 => d.nodeStatusRx p (who - 0x3E00) b
  | 0x18 =>
    let d := d.ledReceive p who (b.take 32)
    if 64 ≤ b.length then d.ledReceive p who ((b.drop 32).take 32) else d
  | 0x19 => d.ledgerResend p (leAt b 0 2) (leAt b 4 4)
  | 0x1A => d.ledgerGone who (leAt b 0 2) (leAt b 2 2) (leAt b 4 4)
  | 0x28 => d.pairRx p who stream b
  | _ => d

/-- A firmware-defined frame is for this package: its destination is the package's number, broadcast, or a group that it holds
(R384). -/
def Dev.addressed (d : Dev) (b : List Byte) : Bool :=
  let dest := leAt b 0 2
  dest == d.ob Obj.PackageNumber || dest == 0x3FFF
    || (decide (0x3F00 ≤ dest) && (List.range 8).any (fun i => d.ob (Obj.GroupAddress i) == dest))

/-- Delivery to the first matching object. A sender of pairing frames has its object from its first frame on; ledger frames of a sender
unknown till then go to object 2 (R334). -/
def Dev.frameDeliver (d : Dev) (p ident start : Nat) (b : List Byte) (out : Bool) : Dev :=
  let fn := bitsOf ident 25 20
  let who := bitsOf ident 19 6
  let d := if fn = 0x28 then d.heardPackage p fn who else d
  let dev := d.devObjectFor p fn who
  let fw := d.fwObjectFor p ident
  match dev, fw with
  | none, none => d.addOb (Obj.IbNoMatch p) 1
  | none, some o => d.objStore p o start b out
  | some o, none => ((d.objStore p o start b out).setBit (Reg.IB_RSTAT p o) 31 false).heardPackage p fn who |>.frameContent p fn who (bitsOf ident 5 0) start b
  | some o, some o2 =>
    if o2 < o then d.objStore p o2 start b out
    else ((d.objStore p o start b out).setBit (Reg.IB_RSTAT p o) 31 false).heardPackage p fn who |>.frameContent p fn who (bitsOf ident 5 0) start b

/-- A frame from `start` to now on port `p`: the guardian first, then the checks of its form, its window, its number (R339). -/
def Dev.frameRx (d : Dev) (p start : Nat) (std remote : Bool) (ident : Nat) (b : List Byte) : Dev :=
  if std then d.ibDiscard p 1
  else if remote then d.ibDiscard p 2
  else
    let who := bitsOf ident 19 6
    let fn := bitsOf ident 25 20
    let zero := bitsOf ident 28 26 == 0
    let g := if zero then d.guardGate p fn who b else (d, true)
    let c := frameCause ident b
    if !g.2 then g.1
    else if c ≠ 0 then d.ibDiscard p c
    else if who = d.ob Obj.PackageNumber then d.ownNumberHeard p
    else
      let w := if zero then (d, false) else d.windowJudge p who start d.now
      let q := if seqFunction fn then Dev.seqJudge w.1 p who fn (bitsOf ident 5 0) (leAt b 0 2) else (w.1, true)
      if !q.2 || (decide (0x30 ≤ fn) && !Dev.addressed q.1 b) then q.1 else Dev.frameDeliver q.1 p ident start b w.2

/-- A sleeping package takes no frame, but its bus carries traffic at an FT that the porch carries on (R337). -/
def Dev.busSeen (d : Dev) (p t : Nat) : Dev := { d with ib := { d.ib with busAt := SMap.ins d.ib.busAt p t } }

def execRendezvousBeacon (k : Nat) (s : State) : Host.Outcome State Fault Refusal :=
  s.put ((s.dev.advanceTicks k).beaconStep k)

def execRendezvousBeaconRx (k port who : Nat) (data : List Byte) (s : State) : Host.Outcome State Fault Refusal :=
  s.put ((s.dev.advanceTicks k).beaconRx k port who data)

def execRendezvousPartnerLost (k port who : Nat) (s : State) : Host.Outcome State Fault Refusal :=
  s.put ((s.dev.advanceTicks k).partnerLost k port who)

def execRendezvousWakeRetry (k port who : Nat) (s : State) : Host.Outcome State Fault Refusal :=
  s.put ((s.dev.advanceTicks k).wakeRetry k port who)

def execIbWakePattern (k port : Nat) (s : State) : Host.Outcome State Fault Refusal :=
  s.put ((s.dev.advanceTicks k).ibWake port 1)

end Sys2Proof.Machine
end

