-- ==== Sys2Proof/Machine/Startup.lean ====
section
/-! DEFINITION. Starts, failed starts, Doorstop and firmware update (R492 to R506). -/
namespace Sys2Proof.Machine

/-! ## Boot slots (R499, R500) -/

def otherSlot (s : Nat) : Nat := 1 - s

/-- The slot that R500 selects, if a rule applies. -/
def Dev.selectSlot (d : Dev) : Option Nat :=
  let confirmed (s : Nat) : Bool := d.bootSlot s == 1
  match [0, 1].find? (fun s => d.bootSlot s == 2) with
  | some s => some s
  | none =>
    let second := match d.start.failedSlot with
      | some f => if !d.start.failures.isEmpty && f < 2 && confirmed (otherSlot f) then some (otherSlot f) else none
      | none => none
    match second with
    | some s => some s
    | none =>
      match d.start.serviceSlot with
      | some s => if confirmed s then some s else [0, 1].find? confirmed
      | none => [0, 1].find? confirmed

/-! ## Resets -/

/-- A package reset: every domain but the porch (R492, R424, R521). -/
def Dev.packageReset (d : Dev) : Dev :=
  let d := if d.fabricOn then d.lastPair else d
  let d := d.releaseAll 2
  let d := (d.sec.sessions.filter Sess.open_).foldl (fun (d : Dev) x => d.sessEnd x.token 5) d
  let out := d.out
  let d := d.allReset false
  let d : Dev := { d with
    pstate := .standby, out := out
    clk := Clocks.reset }
  (d.setDomains domStandby).startBegin 1 2

/-- The latch and the count of failures are cleared: 1 by PackageReset, 2 by a verified update (R496). -/
def Dev.clearLatch (d : Dev) (means : Nat) : Dev :=
  let d : Dev := { d with start := { d.start with latch := false, failures := [] } }
  (d.setOb Obj.FailedStarts 0).event 1 0xA008 [.h means]

/-- The write of PackageReset is taken; the reset follows its response (R502). -/
def Dev.askReset (d : Dev) (v : Nat) : WRes :=
  if d.inField then d.no 0x0401 else ({ d with start := { d.start with resetReq := v } } : Dev).yes

/-- An accepted PackageReset acts. -/
def Dev.resetAct (d : Dev) : Dev :=
  let v := d.start.resetReq
  if v = 0 then d
  else
    let d : Dev := if d.start.open_ && !d.start.declared then { d with start := { d.start with interrupted := 2 } } else d
    let d := d.packageReset
    if v = 2 then d.clearLatch 1 else d

/-! ## Failures and Doorstop (R495 to R497) -/

/-- DoorstopReason and the entry into Doorstop. -/
def Dev.doorstop (d : Dev) (reason : Nat) : Dev :=
  let d := (d.setOb Obj.DoorstopReason reason).setOb Obj.DoorstopHours d.opSeconds
  let d : Dev := { d with start := { d.start with step := 0, open_ := false } }
  let d := (d.enter .doorstop).setDomains domReady
  d.event 1 0xA007 [.h reason]

/-- A failure is counted (R495, R496). -/
def Dev.countFailure (d : Dev) (why : Nat) : Dev :=
  let now := d.opSeconds
  let fs := now :: d.start.failures.filter (fun t => decide (now ≤ t + 600))
  let slot := d.start.slot
  let d : Dev := { d with start := { d.start with
    failures := fs, open_ := false, failedSlot := some slot, latch := d.start.latch || decide (3 ≤ fs.length) } }
  let d := ((d.setOb Obj.FailedStarts (min 3 fs.length)).setOb Obj.LastFailCause why).incOb Obj.FailedStartCount
  let d := d.event 1 0xA003 [.h why, .h (min 3 fs.length)]
  if d.bootSlot slot = 2 then
    let d := d.setBootSlot slot 3
    d.event 1 0xA006 [.h slot, .h (d.selectSlot.getD 0xFFFF)]
  else d

/-- A failure of causes 1 and 2 is followed by a package reset. -/
def Dev.failStart (d : Dev) (why : Nat) : Dev := (d.countFailure why).packageReset

/-! ## The start attempt (R494) -/

/-- What an attempt left open by the last start comes to. -/
def Dev.settleAttempt (d : Dev) : Dev :=
  if !d.start.open_ then d
  else if d.start.interrupted ≠ 0 then
    let why := d.start.interrupted
    ({ d with start := { d.start with open_ := false, interrupted := 0 } } : Dev).event 1 0xA004 [.h why]
  else d.countFailure 3

/-- The attempt opens, or the package goes into Doorstop for want of a slot. -/
def Dev.openAttempt (d : Dev) (next : Nat) : Dev :=
  match d.selectSlot with
  | none => d.doorstop 2
  | some s =>
    let d : Dev := { d with start := { d.start with
      open_ := true, openTick := d.porch.ticks, interrupted := 0, declared := false, slot := s, step := next } }
    let d : Dev := { d with porch := { d.porch with bootAttempts := d.porch.bootAttempts + 1 } }
    (d.event 1 0xA001 [.h d.start.kind, .h s]).porchMirror

/-- The end of the configuration load, and at a warm start of the oscillator step: the last attempt is settled, then the latch and
the other reasons for Doorstop are judged. -/
def Dev.attempt (d : Dev) (dieOk halfOk : Bool) : Dev :=
  let d := d.settleAttempt
  if d.start.latch then d.doorstop 1
  else if !dieOk then d.doorstop 3
  else if !halfOk then d.doorstop 4
  else d.openAttempt 5

def Dev.allPlls (d : Dev) : Bool := decide (d.clk.pll % 16 = 15)

/-- A PLL locks; with the last of the engine and fabric PLLs the oscillator step of a start ends (R40, R493, R494). -/
def Dev.pllLock (d : Dev) (n : Nat) : Dev :=
  if d.clk.oscStable && decide (n < 6) && !bitOf d.clk.pll n then
    let d := (Dev.acqBegin { d with clk := { d.clk with pll := d.clk.pll + 2 ^ n } } d.now)
    if d.start.step = 3 ∧ d.allPlls then
      if d.start.kind = 2 then d.attempt true true else { d with start := { d.start with step := 4 } }
    else d
  else d

def execPllLock (n : Nat) (s : State) : Host.Outcome State Fault Refusal := s.put (s.dev.pllLock n)

/-! ## The steps (R493) -/

/-- A feed reaches 9.0 V with the porch unpowered (R492). -/
def Dev.coldStart (d : Dev) (feed mv ma10 : Nat) : Dev :=
  if decide (d.pstate = .off) && decide (feed < 2) && decide (9000 ≤ mv) then
    let d : Dev := { d with pstate := .standby, porch := { d.porch with powered := true } }
    ((d.setDomains domStandby).startBegin 0 1).feedChange feed mv ma10
  else d

/-- The porch step: counters cleared, the mirror reloaded where one has been written and the scan finds it, PowerCycleCount + 1 (R58, R65, R474, R503). -/
def Dev.porchDone (d : Dev) (found : Bool) : Dev :=
  let p := d.porch
  let mirror : Bool := found && d.nv.any (fun x => x.1 == Obj.PowerCycleCount)
  let d : Dev := { d with
    porch := { p with
      ticks := 0, pairFt := none, pairTicks := 0, pairUnc := 0
      opTicks := if mirror then p.opTicks else 0, powerCycles := (if mirror then p.powerCycles else 0) + 1
      bootAttempts := if mirror then p.bootAttempts else 0 }
    disc := if mirror then d.disc else Dev.reset.disc
    start := { d.start with step := 2 } }
  let d := if mirror then d
    else
      let d : Dev := { d with start := { d.start with failures := [], latch := false, open_ := false, interrupted := 0 } }
      (d.setOb Obj.FailedStarts 0).event 1 0xA004 [.h 3]
  let d := if d.porch.powerCycles = 65536 then d.event 1 0xB00C [.w 65536] else d
  let d := if mirror then d.wr Reg.WAKE_SRC (d.rd Reg.WAKE_SRC ||| wd (d.mirrored mirrorWake)) else d
  d.porchMirror

/-- Power dies out of reset; the oscillator is asked for. -/
def Dev.dieResetDone (d : Dev) : Dev :=
  (({ d with start := { d.start with step := 3 } } : Dev).powerDieReset).oscRequest 0

/-- The configuration load: journal, stored fail-safe states, then the attempt. -/
def Dev.configLoaded (d : Dev) (dieOk halfOk : Bool) : Dev :=
  let d := d.restoreDefaults
  let d : Dev := if halfOk then ({ d with domb := d.nvDom } : Dev).applyStore (fun _ => true) else d
  (d.originUpdate.afterConfig).attempt dieOk halfOk

/-- The check of a warm start: the digest that the last cold start or package reset accepted stands for the signature, and the key
must still be good (R428, R493, R504). -/
def Dev.warmCheck (d : Dev) (s : Nat) : Nat × Dev :=
  let key := d.img s 6 1
  let ok : Bool := d.imgDigest s == d.start.accepted && d.keyState key == 1
  (if ok then 0 else 1, d.event 4 0x8020 [.h key, .h (if ok then 1 else 2)])

/-- One image is checked; a refused one makes its slot BAD, and the next rule is applied (R500, R493). -/
def Dev.imageChecked (d : Dev) : Dev :=
  let s := d.start.slot
  let p : Nat × Dev := if d.start.kind = 2 then d.warmCheck s else d.imgCheck s
  let d : Dev := p.2
  if p.1 = 0 then
    { d with start := { d.start with step := 6, accepted := d.imgDigest s }
             objs := SMap.set objDefault d.objs Obj.ActiveImage (s + 1) }
  else
    let d := (d.setBootSlot s 3).event 1 0xA005 [.h s, .h p.1]
    match d.selectSlot with
    | some x => { d with start := { d.start with slot := x } }
    | none => d.doorstop 2

/-- The clusters that the stored ranges and ClusterPowerRequest need (R131, R444). -/
def Dev.neededClusters (d : Dev) : List Nat :=
  (List.range 64).filter (fun c => d.clusterAsked c ||
    d.storedRanges.any (fun b => decide (leAt b 0 4 / 4096 ≤ c) && decide (c * 4096 < leAt b 0 4 + leAt b 4 4)))

/-- A cluster is on, loaded and released. -/
def Dev.clusterBoot (d : Dev) (c : Nat) : Dev :=
  let d := ((d.clusterClear c).setClusterPhase c 3).setBit (Reg.PWR_DOM (c / 32)) (c % 32) true
  (d.setBit (Reg.PWR_DOM 2) (c / 8) true).clusterLoad c

/-- Spines, fabrics and clusters are powered, loaded and released; the host die has its firmware; windows and firmware-defined objects are those of the image. -/
def Dev.enginesLoaded (d : Dev) : Dev :=
  let s := d.start.slot
  let d := ((d.setDomains domReady).loadWindows s).loadHost s
  let table := (d.imgTable s).filterMap id
  let rest := d.nv.filterMap (fun p =>
    let idx := p.1 / 256 % 65536
    if 0xA000 ≤ idx ∧ idx ≤ 0xAFFF then some (idx, p.1 % 256, p.2) else none)
  let d : Dev := { d with
    dict := { d.dict with fwObjs := table, dictEngine := d.img s 54 2, restores := rest }
    start := { d.start with step := 7 } }
  d.neededClusters.foldl Dev.clusterBoot d

/-- SUPPLY of the enabled heads follows HeadSupplyVoltage (R97). -/
def Dev.headSupplies (d : Dev) : Dev :=
  let v := if d.ob Obj.HeadSupplyVoltage = 3300 then 1 else 2
  (List.range 4).foldl (fun (d : Dev) n => if d.bit Reg.GB_CTRL (4 + n) then d.setF (Reg.AH_CTRL n) 1 0 v else d) d

/-- Units begin to run: baseband and Sill links (R97, R299). -/
def Dev.unitsStart (d : Dev) : Dev :=
  let d := (d.setBit Reg.GB_CTRL 0 (decide (d.ob Obj.GnssEnable = 1))).headSupplies.gbDomain
  (List.range 16).foldl (fun (d : Dev) n => if d.bit (Reg.SL_CTRL n) 31 then d.setLinkState n 1 else d) d

/-- Binding is complete: Ready, once the recorder scan is too. -/
def Dev.startReady (d : Dev) (t : Nat) : Dev :=
  if d.start.step = 7 ∧ d.rcd.scanDone then
    let d : Dev := { d with start := { d.start with step := 0 } }
    let d := (d.rangeLoad).enter .ready
    (d.advance t).unitsStart
  else d

/-! ## Declarations (R494, R495) -/

def Dev.inServiceWrite (d : Dev) : Dev :=
  if d.start.open_ && !d.start.declared && decide (d.porch.ticks ≤ d.start.openTick + 983040) then
    let s := d.start.slot
    let ms := (d.porch.ticks - d.start.openTick) * 1000 / 32768
    let d : Dev := { d with start := { d.start with
      open_ := false, declared := true, inService := true, failures := [], serviceSlot := some s } }
    let d := ((d.setOb Obj.FailedStarts 0).setOb Obj.InServiceTime ms).setBootSlot s 1
    d.event 1 0xA002 [.h s, .w ms]
  else d

/-- OP 2: the attempt fails; with its 30 s over already, by them (R495). -/
def Dev.startFailedWrite (d : Dev) : Dev :=
  if d.start.open_ && !d.start.declared then d.failStart (if d.start.openTick + 983040 < d.porch.ticks then 1 else 2) else d

/-- A waiting command declares a failure in the same fabric cycle (R504). -/
def failsNow (t : Nat) : Instr → Bool
  | .startFailed t2 _ m => cycleOf t2 == cycleOf t && decide (m < engines)
  | .registerWrite t2 m a w => cycleOf t2 == cycleOf t && decide (m < engines) && busAddr a == Reg.START_CMD && fld w 1 0 == 2
  | _ => false

/-- START_CMD by an engine. -/
def Dev.startCmd (d : Dev) (m a : Nat) (w : Word) : Dev :=
  match fld w 1 0 with
  | 1 => d.inServiceWrite
  | 2 => d.startFailedWrite
  | 3 => (d.setBitM m Reg.ENG_STATUS 31 true).event (dieOf m) 0xA00A [.w (a % 0x10000)]
  | _ => d

/-- STATE of START_STATUS, and START_STATUS as it reads. -/
def Dev.startState (d : Dev) : Nat :=
  if d.start.inService then 2 else if d.start.step = 0 ∧ d.start.open_ then 1 else 0
def Dev.startStatus (d : Dev) : Word :=
  let ms := if d.start.open_ || d.start.inService then min 65535 ((d.porch.ticks - d.start.openTick) * 1000 / 32768) else 0
  wd (ms * 65536 + d.ob Obj.FailedStarts * 256 + d.start.slot * 4 + d.startState)

/-! ## Firmware update (R501) -/

def Dev.updateBusy (d : Dev) : Bool := decide (1 ≤ d.ob Obj.UpdateState) && decide (d.ob Obj.UpdateState ≤ 3)

def Dev.updateEvent (d : Dev) (op : Nat) : Dev := d.event 1 0xA009 [.h d.start.upSlot, .h op, .h (d.ob Obj.UpdateResult)]

/-- The refusal of a begin. -/
def Dev.beginCode (d : Dev) (slot : Nat) : Nat :=
  if d.inField || d.frozen 0x417 then 0x0401
  else if d.pstate ≠ .doorstop ∧ d.ob Obj.ActiveImage = slot + 1 then 0x0401
  else if d.updateBusy then 0x0601
  else 0

/-- Begin: the slot is EMPTY and its erase starts. -/
def Dev.updateBegin (d : Dev) (r : Req) (slot : Nat) : Dev :=
  let d := (d.setBootSlot slot 0).setOb Obj.UpdateState 1
  { d with start := { d.start with upSlot := slot, upReq := some r } }

def Dev.updateErased (d : Dev) : Dev :=
  if d.ob Obj.UpdateState ≠ 1 then d
  else
    let s := d.start.upSlot
    let d := ((d.imgErase s).setOb Obj.UpdateState 2).setOb Obj.UpdateResult 0
    let r := d.start.upReq
    let d := (({ d with start := { d.start with upReq := none } } : Dev)).updateEvent 1
    match r with
    | some r => d.answer r 2 0x2204 1 0 0 [BitVec.ofNat 8 (1 + 16 * s)] [] false
    | none => d

def Dev.updateData (d : Dev) (off : Nat) (b : List Byte) : WRes :=
  if imageSize < off + b.length ∨ imageSize ≤ off then d.no 0x0301
  else if d.ob Obj.UpdateState ≠ 2 || d.frozen 0x417 then d.no 0x0401
  else (d.imgWrite d.start.upSlot off b).yes

def Dev.updateVerify (d : Dev) : WRes :=
  if d.inField then d.no 0x0401
  else if d.ob Obj.UpdateState = 1 then d.no 0x0601
  else if d.ob Obj.UpdateState ≠ 2 || d.frozen 0x417 then d.no 0x0401
  else
    let p := d.imgCheck d.start.upSlot
    let d : Dev := p.2.setOb Obj.UpdateResult p.1
    if p.1 = 0 then (((d.setBootSlot d.start.upSlot 2).setOb Obj.UpdateState 4).clearLatch 2 |>.updateEvent 2).yes
    else ((d.setOb Obj.UpdateState 5).updateEvent 2).yes

def Dev.updateAbandon (d : Dev) : WRes :=
  if d.inField then d.no 0x0401
  else if d.ob Obj.UpdateState = 1 then d.no 0x0601
  else if d.ob Obj.UpdateState = 0 then d.no 0x0401
  else (((d.setBootSlot d.start.upSlot 0).setOb Obj.UpdateState 0).updateEvent 3).yes

/-- An UpdateCommand; a begin is answered when its erase ends. -/
def Dev.updateCommand (d : Dev) (r : Req) (v : Nat) : Dev :=
  let data : List Byte := [BitVec.ofNat 8 v]
  let slot := v / 16 % 2
  match (if v < 32 then v % 16 else 0) with
  | 1 =>
    d.withRequest r 2 0x2204 1 0 data (fun (d : Dev) =>
      let code := d.generalCode r true 0x2204 1 0 data
      let own := d.beginCode slot
      if code ≠ 0 then d.answer r 2 0x2204 1 0 code data [] false
      else if own ≠ 0 then d.answer r 2 0x2204 1 0 own data [] false
      else (d.updateBegin r slot).answerPending r 2 0x2204 1 0 data)
  | 2 => d.dictVal r 0x2204 1 1 v (fun (d : Dev) => d.updateVerify)
  | 3 => d.dictVal r 0x2204 1 1 v (fun (d : Dev) => d.updateAbandon)
  | _ => d.dictVal r 0x2204 1 1 v (fun (d : Dev) => d.no 0x0301)

/-! ## Meanings -/

def execColdStart (k feed mv ma10 : Nat) (s : State) : Host.Outcome State Fault Refusal :=
  s.put ((s.dev.advanceTicks k).coldStart feed mv ma10)

def execPackageReset (t : Nat) (r : Req) (s : State) : Host.Outcome State Fault Refusal :=
  s.put ((s.dev.advance t).dictVal r 0x2202 1 1 1 (fun (d : Dev) => d.askReset 1)).resetAct

def execPackageResetClearLatch (t : Nat) (r : Req) (s : State) : Host.Outcome State Fault Refusal :=
  s.put ((s.dev.advance t).dictVal r 0x2202 1 1 2 (fun (d : Dev) => d.askReset 2)).resetAct

/-- The reset button of the host die (R492). -/
def execResetButton (t : Nat) (s : State) : Host.Outcome State Fault Refusal :=
  let d := s.dev.advance t
  s.put (if d.hostOn then d.packageReset else d)

def execStartPorchDone (k : Nat) (mirror : Bool) (s : State) : Host.Outcome State Fault Refusal :=
  s.put (if s.dev.start.step = 1 then (s.dev.porchDone mirror).advanceTicks k else s.dev)

def execStartPowerDieResetDone (k : Nat) (s : State) : Host.Outcome State Fault Refusal :=
  let d := s.dev.advanceTicks k
  s.put (if d.start.step = 2 then d.dieResetDone else d)

def execStartConfigLoaded (k : Nat) (dieOk halfOk : Bool) (s : State) : Host.Outcome State Fault Refusal :=
  let d := s.dev.advanceTicks k
  s.put (if d.start.step = 4 then d.configLoaded dieOk halfOk else d)

def execStartImageChecked (k : Nat) (s : State) : Host.Outcome State Fault Refusal :=
  let d := s.dev.advanceTicks k
  s.put (if d.start.step = 5 then d.imageChecked else d)

def execStartEnginesLoaded (k : Nat) (s : State) : Host.Outcome State Fault Refusal :=
  let d := s.dev.advanceTicks k
  s.put (if d.start.step = 6 then d.enginesLoaded else d)

def execStartReady (t : Nat) (s : State) : Host.Outcome State Fault Refusal := s.put ((s.dev.advance t).startReady t)

def execStartInService (t k m : Nat) (s : State) : Host.Outcome State Fault Refusal :=
  let d := (s.dev.advance t).advanceTicks k
  s.put (if m < engines then d.byMaster m Reg.START_CMD true (fun (d : Dev) =>
      if s.pending.any (failsNow t) then d.startFailedWrite else d.inServiceWrite) else d)

def execStartFailed (t k m : Nat) (s : State) : Host.Outcome State Fault Refusal :=
  let d := (s.dev.advance t).advanceTicks k
  s.put (if m < engines then d.byMaster m Reg.START_CMD true (fun (d : Dev) => d.startFailedWrite) else d)

def execStartAttemptTimeout (k : Nat) (s : State) : Host.Outcome State Fault Refusal :=
  let d := s.dev.advanceTicks k
  s.put (if d.start.open_ && !d.start.declared && decide (d.start.openTick + 983040 < d.porch.ticks) then d.failStart 1 else d)

def execUpdateBegin (t : Nat) (r : Req) (slot : Nat) (s : State) : Host.Outcome State Fault Refusal :=
  s.put ((s.dev.advance t).updateCommand r (1 + 16 * (slot % 2)))

def execUpdateEraseDone (t : Nat) (s : State) : Host.Outcome State Fault Refusal := s.put (s.dev.advance t).updateErased

def execUpdateData (t : Nat) (r : Req) (off : Nat) (data : List Byte) (s : State) : Host.Outcome State Fault Refusal :=
  s.put ((s.dev.advance t).dictWriteWith r 0x2204 2 off data (fun (d : Dev) => d.updateData off data))

def execUpdateVerify (t : Nat) (r : Req) (s : State) : Host.Outcome State Fault Refusal :=
  s.put ((s.dev.advance t).updateCommand r 2)

def execUpdateAbandon (t : Nat) (r : Req) (s : State) : Host.Outcome State Fault Refusal :=
  s.put ((s.dev.advance t).updateCommand r 3)

end Sys2Proof.Machine
end

