-- ==== Sys2Proof/Machine/Ranges.lean ====
section
/-! DEFINITION. RangeCommand: verify and store, and the reload, which powers the clusters that its binds need (R130, R131). -/
namespace Sys2Proof.Machine

/-- A cluster that a load needs is powered, loaded and released, unless it is on. -/
def Dev.clusterNeed (d : Dev) (c : Nat) : Dev := if d.clusterOn c then d else d.clusterBoot c

/-- RangeCommand 2 (R131). -/
def Dev.rangeReload (d : Dev) : WRes :=
  if d.inField || !d.queuesEmpty then d.no 0x0401
  else
    let d := d.own.map.foldl (fun d p => d.unbindAt p.1 ((p.2 - 1) / 256) ((p.2 - 1) % 256)) d
    let d := (d.solSettleDie 0).solSettleDie 1
    let d := d.neededClusters.foldl Dev.clusterNeed d
    d.rangeLoad.yes

/-- RangeCommand (R130, R131). -/
def Dev.rangeCommand (d : Dev) (v : Nat) : WRes :=
  match v with
  | 1 => d.rangeStore
  | 2 => d.rangeReload
  | _ => d.no 0x0301

def Dev.rangeCmdReq (d : Dev) (r : Req) (v : Nat) : Dev :=
  d.dictWriteWith r 0x4010 0x03 0 (byte1 v) (fun d => d.rangeCommand v)

def execRangeVerifyStore (t : Nat) (r : Req) (s : State) : Host.Outcome State Fault Refusal :=
  s.put ((s.dev.advance t).rangeCmdReq r 1)

def execRangeReload (t : Nat) (r : Req) (s : State) : Host.Outcome State Fault Refusal :=
  s.put ((s.dev.advance t).rangeCmdReq r 2)

end Sys2Proof.Machine
end

