-- ==== Sys2Proof/Machine/Fire.lean ====
section
/-! DEFINITION. Firing of the shutter queues (R171, R176 to R178, R184, R446, R480), the schedules of remote nodes that do not
leave in time (R175, R180) and the readback of class D (R181). -/
namespace Sys2Proof.Machine

/-! ## Which entry decides (R177) -/

/-- The entries of an ID that are due, in order of acceptance. -/
def Dev.dueOf (d : Dev) (id : Nat) : List QEntry :=
  d.shq.queue.filter (fun q => q.id == id && decide (q.fireFt ≤ d.now))

/-- The earliest instant among entries. -/
def earliestFire (qs : List QEntry) : Nat := qs.foldl (fun m q => min m q.fireFt) (qs.head?.map (·.fireFt) |>.getD 0)

/-- The entry accepted last of an action. -/
def lastOf (qs : List QEntry) (action : Nat) : Option QEntry := (qs.filter (fun q => q.action == action)).getLast?

/-- The entry that decides a firing: an off wins, then the level accepted last beside an on, else the entry accepted last. -/
def decides (qs : List QEntry) : Option QEntry :=
  match lastOf qs 0 with
  | some q => some q
  | none =>
    match lastOf qs 2 with
    | some q => some q
    | none => lastOf qs 1

/-- What fires: an on beside a level is an on at its Level. -/
def firedAction (qs : List QEntry) (q : QEntry) : Nat :=
  if q.action = 2 && qs.any (fun x => x.action == 1) then 1 else q.action

/-- The cause for which an on or level is not executed, 0 where it is (R176, R184); 7 for a dot's on that could not be delivered
(R304), 9 while the package applies no product under a number that is not its own (R33). `closing`: the close state is entered in this
very cycle (R193). -/
def Dev.fireCause (d : Dev) (q : QEntry) (closing : Bool) : Nat :=
  let (e, s) := d.qPlace q
  let st := d.epState e s
  if st = epDisabled then 8
  else if st ≠ epEnabled then 1
  else if !epochMatches (d.epEpoch e s) q.epoch then 2
  else if !d.headerOk e s then 3
  else if d.frozen e then 4
  else if d.closed || closing then 5
  else if d.epClass e s = 4 ∧ q.undeliv then 7
  else if d.ib.dupNumber then 9
  else 0

/-! ## Effects of an executed action -/

/-- The frame in which an output's on-time is gathered: from its opening, or from the frame start where that is later (R481). -/
def Dev.frameOnEnd (d : Dev) (id fireFt : Nat) : Dev :=
  let on := SMap.get (fun _ => 0) d.shq.onSince id
  if on = 0 then d
  else
    let add := fireFt - max (on - 1) d.frame.start
    let v := SMap.get (fun _ => 0) d.shq.frameOn id + add
    { d with shq := { d.shq with frameOn := SMap.set (fun _ => 0) d.shq.frameOn id v } }

/-- The output's on period begins or ends. -/
def Dev.setOnSince (d : Dev) (id v : Nat) : Dev :=
  { d with shq := { d.shq with
      onSince := SMap.set (fun _ => 0) d.shq.onSince id v
      onMeas := SMap.set (fun _ => false) d.shq.onMeas id false } }

/-- LastOnFt or LastOffFt, and OutState.ON (R178). -/
def Dev.markFired (d : Dev) (e s action fireFt : Nat) : Dev :=
  let d := d.recSet e s (if action = 0 then 80 else 72) 8 fireFt
  let d := d.recSet e s 88 1 (putBits (d.recGet e s 88 1) 0 0 (b2n (action != 0)))
  d.measGen e s

/-- Whether the device may measure an action on this output: nothing above the command source holds it. -/
def Dev.outFollows (d : Dev) (cls out : Nat) : Bool :=
  match dieOfOutput cls out with
  | some i => !d.forcing i && !d.closed
  | none => true

/-- The output follows the action (R178). Classes N and T act by their own messages. -/
def Dev.driveOut (d : Dev) (cls out id action level fireFt : Nat) (measured : Bool) : Dev :=
  let lv := if action = 0 then 0 else level
  if cls = 0 then d.solAction out lv
  else if cls = 1 then
    let d := d.lsCommand out lv
    d.dwellAdd { chan := out, id := id, fireFt := fireFt, opening := action != 0, measured := measured }
  else if cls = 2 then d.dioCommand out (action != 0)
  else d

/-- An on or level outside Field (R446). -/
def Dev.outsideField (d : Dev) (id : Nat) : Dev :=
  if d.inField then d
  else
    let d := d.incOb Obj.OnOutsideField
    let n := d.pwr.onSince + 1
    let d := { d with pwr := { d.pwr with onSince := n } }
    let before := d.rcd.staged.length
    let d := d.eventEvery 1000000000 4 0x9011 0 [.w id, .w n]
    if before < d.rcd.staged.length then { d with pwr := { d.pwr with onSince := 0 } } else d

/-- The endpoint's earlier action can no longer be measured: its event is written (R182). -/
def Dev.closeEarlier (d : Dev) (id : Nat) : Dev :=
  match d.shq.acts.find? (fun a => a.id == id) with
  | some a => d.closeAct a
  | none => d

/-- Whether an action is measured: every one but a level change on an open output (R181, R182), and on a solenoid an on too only from the
off state (R206). -/
def Dev.isMeasured (d : Dev) (cls id action : Nat) : Bool :=
  action == 0 || (action == 1 && cls != 0) || SMap.get (fun _ => 0) d.shq.onSince id == 0

/-- The action waits for its measurement; an on period begins or ends with it. -/
def Dev.awaitMeasure (d : Dev) (q : QEntry) (e s action : Nat) : Dev :=
  let on := SMap.get (fun _ => 0) d.shq.onSince q.id
  let cls := d.epClass e s
  let a : Actuation :=
    { engine := q.engine, slot := s, id := q.id, cls := cls, action := action, epoch := q.epoch
      account := d.epAccount e s, fireFt := q.fireFt, level := q.level, late := q.late, stale := q.stale
      handle := q.handle, opening := action != 0
      measurable := d.isMeasured cls q.id action && d.outFollows cls (d.epOut e s)
      openAt := if action = 0 then on else 0
      openMeas := action == 0 && SMap.get (fun _ => false) d.shq.onMeas q.id }
  { d with shq := { d.shq with acts := d.shq.acts ++ [a] } }

/-- An off that fires more than 20 ms late is recorded (R196). -/
def Dev.lateOffSeen (d : Dev) (q : QEntry) (action : Nat) : Dev :=
  if action = 0 ∧ 20000000 < q.late then d.event (dieOf q.engine) 0x3023 [.w q.id, .w (q.late / 1000000)] else d

/-- Executes the deciding entry. An off queued before a switch executes under an older epoch and is counted (R135, R139). -/
def Dev.execute (d : Dev) (q : QEntry) (action : Nat) : Dev :=
  let (e, s) := d.qPlace q
  let d := d.closeEarlier q.id
  let on := SMap.get (fun _ => 0) d.shq.onSince q.id
  let measured := d.isMeasured (d.epClass e s) q.id action
  let d := if action = 0 ∧ !q.stale ∧ !epochMatches (d.epEpoch e s) q.epoch then d.staleSeen e s q.epoch else d
  let d := d.awaitMeasure q e s action
  let d := if action ≠ 0 ∧ on = 0 then d.meterOn (d.epAccount e s) else d
  let d := if action = 0 then (d.frameOnEnd q.id q.fireFt).setOnSince q.id 0
    else if on = 0 then d.setOnSince q.id (q.fireFt + 1) else d
  let d := d.markFired e s action q.fireFt
  let d := d.driveOut (d.epClass e s) (d.epOut e s) q.id action q.level q.fireFt measured
  let d := d.lateOffSeen q action
  if action = 0 then d else d.outsideField q.id

/-- The entry is refused at its instant: it leaves as DROPPED, counted in RemapDropCount too where its endpoint is DISABLED (R126),
and a dot that has been told is closed (R176, R305). -/
def Dev.refuseFire (d : Dev) (q : QEntry) (cause : Nat) : Dev :=
  let d := if cause = 3 then d.faultHeader (d.qPlace q).1 (d.qPlace q).2 else d
  let d := if d.qClass q = 4 ∧ q.sent then d.sillOff (d.qOut q) q.fireFt else d
  let d := if cause = 8 then d.incOb Obj.RemapDropCount else d
  (d.dropEntry q cause).reportDrop q.id cause

/-- Adds to SameTickMergeCount (R177). -/
def Dev.countMerged (d : Dev) (n : Nat) : Dev := d.addOb Obj.SameTickMergeCount n

/-- The entries of one endpoint at one tick (R177): the deciding one fires or is refused, the others are discarded. -/
def Dev.fireGroup (d : Dev) (qs : List QEntry) (q : QEntry) (closing : Bool) : Dev :=
  let action := firedAction qs q
  let others := qs.filter (fun x => !(x.engine == q.engine && x.handle == q.handle))
  let d := d.countMerged others.length
  let d := others.foldl (fun (d : Dev) x => d.removeEntries x.engine (fun y => y.handle == x.handle)) d
  let cause := if action = 0 then 0 else d.fireCause q closing
  if cause ≠ 0 then
    let told := d.qClass q == 4 && !q.sent && others.any (fun x => x.sent && x.action != 0)
    (if told then d.sillOff (d.qOut q) q.fireFt else d).refuseFire q (if cause = 9 then Config.cause 0x3022 9 else cause)
  else (d.removeEntries q.engine (fun y => y.handle == q.handle)).execute q action

/-- The entries of an endpoint at one tick of its class (R177). -/
def Dev.tickOf (d : Dev) (id f : Nat) : List QEntry :=
  d.shq.queue.filter (fun q => q.id == id && q.fireFt / resolution (d.qClass q) == f / resolution (d.qClass q))

/-- The earliest due tick of an endpoint fires; `closing` as of its cause. -/
def Dev.fire (d : Dev) (id : Nat) (closing : Bool) : Dev :=
  if !d.fabricOn || (d.dueOf id).isEmpty then d
  else
    let qs := d.tickOf id (earliestFire (d.dueOf id))
    match decides qs with
    | none => d
    | some q => d.fireGroup qs q closing

/-! ## Schedules that leave late -/

/-- The entry of a handle. -/
def Dev.entryOf (d : Dev) (e handle : Nat) : Option QEntry := (d.queueOf e).find? (fun q => q.handle == handle)

/-- NodeLead in ns. -/
def Dev.leadNs (d : Dev) : Nat := d.ob Obj.NodeLead * 1000000

/-- A class N entry becomes committed at FireFt − NodeLead (R175). -/
def Dev.leadCommit (d : Dev) (e handle : Nat) : Dev :=
  match d.entryOf e handle with
  | none => d
  | some q =>
    if d.fabricOn && d.qClass q == 3 && decide (q.fireFt ≤ d.now + d.leadNs) then
      d.setQueue (d.shq.queue.map (fun x => if x.engine = e ∧ x.handle = handle then { x with committed := true } else x))
    else d

/-- A class N on or level that has not left its port by FireFt − NodeLead / 2 (R180). -/
def Dev.leaveLate (d : Dev) (e handle : Nat) : Dev :=
  match d.entryOf e handle with
  | none => d
  | some q =>
    if d.fabricOn && d.qClass q == 3 && q.action != 0 && !q.sent && decide (q.fireFt ≤ d.now + d.leadNs / 2) then
      (d.undeliverable q).reach 4
    else d

/-! ## Class D (R181) -/

/-- The first of the readback samples, one every 10 µs up to now, from `fired` on that shows a level. -/
def Dev.showing (d : Dev) (rs : List Nat) (fired : Nat) (level : Bool) : Option Nat :=
  let at_ (p : Nat × Nat) : Nat × Nat := (d.now - (rs.length - 1 - p.2) * 10000, p.1)
  ((rs.zipIdx.map at_).find? (fun p => decide (fired ≤ p.1) && decide (4500 < p.2) == level)).map (fun p => p.1)

/-- The channel's own input stage first shows the level of the endpoint's last action (R181); the samples also end a mismatch (R276). -/
def Dev.readback (d : Dev) (n : Nat) (rs : List Nat) : Dev :=
  let d := d.dioMismatch n rs
  match d.boundTo 2 n with
  | none => d
  | some id =>
    match d.ownerOf id with
    | none => d
    | some (e, s) =>
      let level := bitOf (d.recGet e s 88 1) 0
      let fired := d.recGet e s (if level then 72 else 80) 8
      match d.showing rs fired level with
      | some instant => if d.fabricOn then d.measure id instant level (decide (instant ≤ fired + 1000000)) false none else d
      | none => d


def execScheduleUndeliverable (t e handle : Nat) (s : State) : Host.Outcome State Fault Refusal :=
  s.put ((s.dev.advance t).leaveLate e handle)

def execNodeLeadCommit (t e handle : Nat) (s : State) : Host.Outcome State Fault Refusal :=
  s.put ((s.dev.advance t).leadCommit e handle)

def execDioReadbackChange (t n : Nat) (r : List Nat) (s : State) : Host.Outcome State Fault Refusal :=
  s.put ((s.dev.advance t).readback n r)

end Sys2Proof.Machine
end

