-- ==== Sys2Proof/Machine/BusIn.lean ====
section
/-! DEFINITION. What the implement buses bring in that can show this package's own number under another sender: frames and reference
messages, and the end of applying product that follows (R33, R339). -/
namespace Sys2Proof.Machine

/-- An endpoint that applies product stops at once (R33). -/
def Dev.productOff (d : Dev) (id : Nat) : Dev :=
  match d.ownerOf id with
  | none => d
  | some (e, s) =>
    let on := SMap.get (fun _ => 0) d.shq.onSince id
    let cls := d.epClass e s
    let out := d.epOut e s
    let d := (d.closeEarlier id).meterOff (d.epAccount e s) on d.now false
    let d := ((d.frameOnEnd id d.now).setOnSince id 0).markFired e s 0 d.now
    if cls = 3 then d.nodeSchedule out id e 0xFFFF 0xFFFF 0 (d.epEpoch e s) 0 d.now
    else if cls = 4 then d.sillOff out d.now
    else d.driveOut cls out id 0 0 d.now false

/-- The package applies no product any more: what waits to open is discarded, with its cancels and offs, and what is open closes (R33). -/
def Dev.stopProduct (d : Dev) : Dev :=
  let d := (d.shq.queue.filter (fun q => q.action != 0)).foldl (fun (d : Dev) q =>
    ((d.uncommand q).dropEntry q (Config.cause 0x3022 9)).reportDrop q.id (Config.cause 0x3022 9)) d
  (d.shq.onSince.map (·.1)).foldl Dev.productOff d

/-- What arrives on a bus, and what follows where it shows that another package sends under this one's number. -/
def Dev.busIn (d : Dev) (f : Dev → Dev) : Dev :=
  let x := f d
  if !d.ib.dupNumber && x.ib.dupNumber then x.stopProduct else x

def execIbFrameRx (t port start : Nat) (std remote : Bool) (ident : Nat) (data : List Byte) (s : State) :
    Host.Outcome State Fault Refusal :=
  let d := s.dev.advance t
  s.put (if d.fabricOn && decide (port < 4) && d.ibEnabled port then
      d.busIn (fun d => d.frameRx port start std remote ident (data.take 64))
    else if d.asleep && d.ib.wakePorts.contains port then d.busSeen port t
    else d)

def execReferenceMessageRx (t bus sender capture txPrev round cls flags check : Nat) (s : State) : Host.Outcome State Fault Refusal :=
  let d := s.dev.advance t
  let m : RefMsg := { sender := sender, capture := capture, txPrev := txPrev, round := round, cls := cls % 4 }
  s.put (if d.fabricOn && decide (bus < 4) && d.ibEnabled bus then d.busIn (fun d => d.referenceRx bus m flags check) else d)

end Sys2Proof.Machine
end

