-- ==== Sys2Proof/Machine/Frame.lean ====
section
/-! DEFINITION. The start of a shutter frame: numbering, commits, publication, wakes, dot frames and what each chapter does then
(R147 to R149, R175, R301 to R304, R445, R476, R481). -/
namespace Sys2Proof.Machine

/-! ## Product (R481) -/

/-- IDs that were on at some time of the ended frame. -/
def Dev.onIds (d : Dev) : List Nat :=
  ((d.shq.onSince.map (fun p => p.1)) ++ (d.shq.frameOn.map (fun p => p.1))).eraseDups

/-- On-time of an ID within the frame that ends at `f`, ns. -/
def Dev.frameOnTime (d : Dev) (id f : Nat) : Nat :=
  let on := SMap.get (fun _ => 0) d.shq.onSince id
  SMap.get (fun _ => 0) d.shq.frameOn id + (if on = 0 then 0 else f - max (on - 1) d.frame.start)

/-- Metering key of an ID's endpoint. -/
def Dev.keyOf (d : Dev) (id : Nat) : Option Nat :=
  (d.ownerOf id).map (fun p => acctKey (d.epAccount p.1 p.2))

/-- Adds a time to its key. -/
def addPart (parts : List (Nat × Nat)) (k t : Nat) : List (Nat × Nat) :=
  if parts.any (fun p => p.1 == k) then parts.map (fun p => if p.1 = k then (k, p.2 + t) else p) else parts ++ [(k, t)]

/-- Account keys of a layer and their on-times. -/
def Dev.layerParts (d : Dev) (layer f : Nat) : List (Nat × Nat) :=
  d.onIds.foldl (fun parts id =>
    match d.keyOf id with
    | some k => if k % 4 = layer then addPart parts k (d.frameOnTime id f) else parts
    | none => parts) []

/-- Each layer's meter is read and its edges are shared over the ended frame. -/
def Dev.frameProduct (d : Dev) (f : Nat) : Dev :=
  let d := (List.range 4).foldl (fun (d : Dev) layer =>
    let n := d.ob (Obj.MeterInput layer)
    if 8 ≤ n then d
    else
      let edges := ((d.rd (Reg.FI_COUNT n)).toNat + 2 ^ 32 - d.mtr.fiLast.getD n 0) % 2 ^ 32
      d.shareProduct layer edges (d.layerParts layer f)) d
  { d with
    mtr := { d.mtr with fiLast := (List.range 8).map (fun n => (d.rd (Reg.FI_COUNT n)).toNat) }
    shq := { d.shq with frameOn := [] } }

/-! ## Numbering and commits (R147, R175) -/

/-- An accepted frame length takes effect. -/
def Dev.frameLenChange (d : Dev) : Dev :=
  if d.frame.nextLen ≠ 0 ∧ d.frame.nextAt ≤ d.now then
    let old := d.frame.len
    let new := d.frame.nextLen
    let d : Dev := { d with frame := { d.frame with len := new, nextLen := 0, nextAt := 0 } }
    d.event 1 0x3011 [.h old, .h new]
  else d

/-- Entries with FireFt before F + 2 · FrameLength become committed. -/
def Dev.frameCommit (d : Dev) (f : Nat) : Dev :=
  let limit := f + 2000 * d.frame.len
  d.setQueue (d.shq.queue.map (fun q => if q.fireFt < limit then { q with committed := true } else q))

/-! ## The parameter block (R148) -/

/-- A published object as it stood before the cycle of the frame start (R168). -/
def Dev.policyAt (d : Dev) (k : Nat) : Nat :=
  match d.frame.policyWas.find? (fun p => p.1 == cycleOf d.frame.start && p.2.1 == k) with
  | some p => p.2.2
  | none => d.ob k

/-- The block's bytes for frame `k`. -/
def Dev.paramBlock (d : Dev) (k : Nat) : List Byte :=
  let o (key n : Nat) : List Byte := leBytes (d.policyAt key) n
  let gen := leBytes d.frame.paramGen 4
  gen ++ leBytes k 4 ++ leBytes d.frame.len 2 ++ o Obj.LookHorizon 2
    ++ leBytes (min (d.policyAt Obj.QueueHorizon) (d.policyAt Obj.LookHorizon)) 2 ++ o Obj.LookStep 2 ++ o Obj.RequeueThreshold 2
    ++ o Obj.CoverageThreshold 1 ++ o Obj.CellSize 1 ++ o Obj.ExclusionMargin 2 ++ o Obj.ExclusionSigmaFactor 1
    ++ o Obj.SpreadFactor 1 ++ o Obj.MinApplySpeed 2 ++ o Obj.RescanDistance 2 ++ o Obj.RescanHeading 2
    ++ o Obj.PaneMissingFill 1 ++ o Obj.TargetRespectCoverage 1
    ++ (List.range 4).flatMap (fun l => o (Obj.LayerMode l) 1)
    ++ (List.range 4).flatMap (fun l => o (Obj.LayerPressureSlot l) 1)
    ++ o Obj.TargetMargin 2 ++ o Obj.SpotFallback 1 ++ o Obj.TargetSourceState 1 ++ List.replicate 20 0
    ++ (List.range 4).flatMap (fun l => (List.range 63).flatMap (fun z => o (Obj.ZoneLevel l z) 2))
    ++ List.replicate 452 0 ++ gen

def Dev.paramPublish (d : Dev) (k : Nat) : Dev :=
  let d : Dev := { d with frame := { d.frame with paramGen := (d.frame.paramGen + 1) % 2 ^ 32 } }
  d.allClusters 0x5F800 (d.paramBlock k)

/-! ## Wakes and overruns (R149) -/

/-- An engine has not ended the frame before: its wake is held. -/
def Dev.overrun (d : Dev) (e : Nat) : Dev :=
  let d := (d.setBitM e Reg.FRM_STATUS 0 true).setBitM e Reg.FRM_STATUS 1 true
  let d := d.setFM e Reg.FRM_STATUS 31 16 (d.fM e Reg.FRM_STATUS 31 16 + 1)
  let d := d.incOb Obj.FrameOverrunCount
  let n := d.frame.overSince + 1
  let d : Dev := { d with frame := { d.frame with overSince := n } }
  let before := d.rcd.staged.length
  let d := d.eventEvery 1000000000 (dieOf e) 0x3010 0 [.h e, .w d.frame.number, .w n]
  if before < d.rcd.staged.length then { d with frame := { d.frame with overSince := 0 } } else d

def Dev.wake (d : Dev) (e : Nat) : Dev :=
  if d.frameBusy e then d.overrun e else (d.setBusy e true).raise e 0

/-- Engines whose cluster is powered and that have been released. -/
def Dev.wakeable (d : Dev) : List Nat :=
  d.pwr.clusters.flatMap (fun p =>
    if d.clusterOn p.1 then ((List.range 16).map (fun i => 16 * p.1 + i)).filter (fun e => (d.engine e).running) else [])

def Dev.wakeAll (d : Dev) : Dev := d.wakeable.foldl (fun (d : Dev) e => d.wake e) d

/-! ## Histograms 16, 26 and 28 (R476) -/

/-- Age of the record that is published at `f`, µs (R109). -/
def Dev.poseAge (d : Dev) (f : Nat) : Nat :=
  let p := if d.pose.ever then leAt d.pose.last 16 8 else 0
  if f < p then 0 else min 0xFFFFFFFF ((f - p) / 1000)

/-- The largest share of the ended frame; an engine that has not ended it has used all of it. -/
def Dev.shareUsed (d : Dev) : Nat := if d.frame.busy.isEmpty then d.frame.share else max 100 d.frame.share

/-- The highest fill of any queue. -/
def Dev.highestFill (d : Dev) : Nat :=
  ((d.shq.queue.map (fun q => q.engine)).eraseDups).foldl (fun m e => max m (d.queueOf e).length) 0

def Dev.frameHists (d : Dev) (share f : Nat) : Dev :=
  let fill := d.highestFill
  let age := d.poseAge f / 250
  ((d.histFeed 16 0 5 share share).histFeed 26 0 40 fill fill).histFeed 28 0 1 age age

/-! ## Dot frames (R301 to R305) -/

/-- A link's share of a transmission as it fills: events taken, oldest first, offs carried and ons refused. -/
structure DotLoad where
  used : Nat
  taken : List DotEvent
  carried : List DotEvent
  refused : List DotEvent
  deriving DecidableEq, Repr

def insertEvent (x : DotEvent) : List DotEvent → List DotEvent
  | [] => [x]
  | y :: ys => if x.fireFt < y.fireFt then x :: y :: ys else y :: insertEvent x ys

/-- Events in FireFt order, those of one instant in the order given. -/
def byFireFt (xs : List DotEvent) : List DotEvent := xs.foldl (fun acc x => insertEvent x acc) []

/-- The class T entries of a link that have just become committed. -/
def Dev.newDots (d : Dev) (n f : Nat) : List DotEvent :=
  let l := 1000 * d.frame.len
  (d.shq.queue.filter (fun q => d.qClass q == 4 && d.qOut q / 16384 == n && !q.sent && !q.undeliv
      && decide (f + l ≤ q.fireFt) && decide (q.fireFt < f + 2 * l))).map (fun q =>
    { tile := d.qOut q / 1024 % 16, dot := d.qOut q % 1024, on := q.action != 0, fireFt := q.fireFt
      engine := q.engine, handle := q.handle, carried := false, early := false })

/-- The dot of an on is already on (R302): the latest of the offs and of the ons sent up to its FireFt decides, an off before an on of one
instant, and without one the port's knowledge `on`. -/
def dotIsOn (on : SMap Nat) (events : List DotEvent) (x : DotEvent) : Bool :=
  let before := events.filter (fun y => y.tile == x.tile && y.dot == x.dot && decide (y.fireFt ≤ x.fireFt))
  let last := before.foldl (fun a y => max a y.fireFt) 0
  if before.isEmpty then SMap.get (fun _ => 0) on (x.tile * 1024 + x.dot) != 0
  else before.all (fun y => decide (y.fireFt < last) || y.on)

/-- Bytes an event adds: its own in both copies, and the frame's where it is the frame's first. -/
def dotCost (taken : List DotEvent) (x : DotEvent) : Nat :=
  if taken.any (fun y => y.tile == x.tile && y.early == x.early) then 8 else 48

/-- Takes one event where it fits R303 and its tile can take it. An off of a tile that is lost or SWAPPED has nowhere to go, and while the
link enumerates it is carried. -/
def loadDot (budget : Nat) (ready there : Nat → Bool) (a : DotLoad) (x : DotEvent) : DotLoad :=
  let fits := decide (a.used + dotCost a.taken x ≤ budget)
    && decide ((a.taken.filter (fun y => y.tile == x.tile)).length < 1024)
  if x.on && !(ready x.tile && fits) then { a with refused := a.refused ++ [x] }
  else if !there x.tile then a
  else if ready x.tile && fits then { a with used := a.used + dotCost a.taken x, taken := a.taken ++ [x] }
  else { a with carried := a.carried ++ [x] }

/-- Takes one on, unless its dot is on already: an on of a tile that is lost or SWAPPED is refused all the same (R302, R304). -/
def loadOn (on : SMap Nat) (offs : List DotEvent) (budget : Nat) (ready there : Nat → Bool) (a : DotLoad) (x : DotEvent) : DotLoad :=
  if there x.tile && dotIsOn on (offs ++ a.taken.filter (fun y => y.on)) x then a else loadDot budget ready there a x

/-- A tile whose dots the port may drive, and one that it can send to now. -/
def Dev.dotThere (d : Dev) (n t : Nat) : Bool := (d.tile n t).present && !(d.tile n t).lost && !(d.tile n t).swapped
def Dev.dotReady (d : Dev) (n t : Nat) : Bool := d.linkRunning n && d.dotThere n t

/-- Marks what became of the entries. -/
def Dev.markDots (d : Dev) (a : DotLoad) : Dev :=
  let has (xs : List DotEvent) (q : QEntry) : Bool := xs.any (fun x => x.engine == q.engine && x.handle == q.handle)
  d.setQueue (d.shq.queue.map (fun q =>
    if d.qClass q ≠ 4 then q
    else { q with sent := q.sent || has a.taken q, undeliv := q.undeliv || has a.refused q }))

/-- The overflow episode of a link (R304). -/
def Dev.dotOverflow (d : Dev) (n : Nat) (a : DotLoad) : Dev :=
  let exceeds := !a.carried.isEmpty || !a.refused.isEmpty
  let l := d.link n
  let late := (a.carried.filter (fun x => !x.carried)).length
  let d := d.addOb (Obj.SillLateOffs n) late
  let ov := Reg.SL_OVF n
  let d := (d.setF ov 15 0 (d.f ov 15 0 + late)).setF ov 31 16 (d.f ov 31 16 + a.refused.length)
  let d := if exceeds then d.setBit (Reg.SL_STATUS n) 3 true else d
  let d := if exceeds && !l.overflowing then
      (d.incOb (Obj.SillUndeliverable n)).event 0 0xC005 [.h n, .w a.carried.length, .w a.refused.length] else d
  d.setLink n { d.link n with
    overflowing := exceeds
    offs := a.carried.map (fun x => ({ tile := x.tile, dot := x.dot, fireFt := x.fireFt, carried := true } : SillOff)) }

/-- No entry of a queue: an off of R305 or one carried over. Its FireFt may lie before F + L, so that it goes in a Dot frame whose BaseFt is
the frame start: DESIGN CHOICE, since OFFSET cannot be negative. -/
def headEvent (o : SillOff) : DotEvent :=
  { tile := o.tile, dot := o.dot, on := false, fireFt := o.fireFt, engine := 0xFFFF, handle := 0x10000, carried := o.carried, early := true }

/-- The transmission of one link at a frame start. A package that shares its number applies no product: its ons stay back (R33). -/
def Dev.dotLink (d : Dev) (f n : Nat) : Dev :=
  let l := d.link n
  let fresh := (byFireFt (d.newDots n f)).filter (fun x => !(x.on && d.ib.dupNumber))
  let offs := l.offs.map headEvent ++ fresh.filter (fun x => !x.on)
  if l.offs.isEmpty && fresh.isEmpty then
    let d := d.wr (Reg.SL_LOAD n) 0
    if l.overflowing then d.setLink n { l with overflowing := false } else d
  else
    let budget := 38 * d.frame.len
    let a := offs.foldl (loadDot budget (d.dotReady n) (d.dotThere n)) { used := 0, taken := [], carried := [], refused := [] }
    let a := (fresh.filter (fun x => x.on)).foldl (loadOn l.dotOn offs budget (d.dotReady n) (d.dotThere n)) a
    let sent := a.taken
    let d := d.setF (Reg.SL_LOAD n) 7 0 (a.used * 100 / budget)
    let d := d.markDots a
    let base := f + 1000 * d.frame.len
    let d := d.dotSend n f base sent
    let on := (byFireFt sent).foldl dotAfter l.dotOn
    (d.setLink n { d.link n with dotOn := on }).dotOverflow n a

/-- A port whose agent is frozen sends nothing (R423). -/
def Dev.dotFrames (d : Dev) (f : Nat) : Dev :=
  if d.frozen 0x416 then d else (List.range 16).foldl (fun (d : Dev) n => d.dotLink f n) d

/-! ## Power states (R445) -/

/-- A transition between Ready and Field completes. -/
def Dev.frameState (d : Dev) : Dev :=
  match d.pwr.target with
  | some .field =>
    let d : Dev := { d with pwr := { d.pwr with target := none } }
    if d.pstate = .ready then (d.enter .field).chainsField else d
  | some .ready =>
    if d.pstate = .field then
      let d : Dev := { d with pwr := { d.pwr with target := none } }
      d.enter .ready
    else d
  | _ => d

/-! ## The frame start -/

/-- Frame `k` starts at `f`. -/
def Dev.frameBegin (d : Dev) (f : Nat) : Dev :=
  let us := (f - d.frame.start) / 1000
  let ran := d.frame.started
  let share := d.shareUsed
  let d := if ran then d.frameProduct f else d
  let d := d.pairFlush
  let d := d.frameLenChange
  let k := f / (1000 * d.frame.len) % 2 ^ 32
  let d : Dev := { d with frame := { d.frame with number := k, start := f, started := true, share := 0 } }
  let d := ((d.frameState.remapSwitches).applyHeld).applyAccounts
  let d := d.frameCommit f
  let d := (d.posePublish k f).paramPublish k
  let d := if ran then d.frameHists share f else d
  let d := (d.dieClocks).wakeAll
  let d := d.dotFrames f
  (d.pairHealth us).clusterTidy

/-- Whether a frame starts now: a whole multiple of the length in force, later than the running frame's start. -/
def Dev.frameDue (d : Dev) : Bool :=
  let len := if d.frame.nextLen ≠ 0 ∧ d.frame.nextAt ≤ d.now then d.frame.nextLen else d.frame.len
  d.fabricOn && decide (d.now % (1000 * len) = 0) && (!d.frame.started || d.now != d.frame.start)

/-- The frame that starts at `t`, where one does. -/
def Dev.frameStart (d : Dev) (t : Nat) : Dev := if d.frameDue && d.now == t then d.frameBegin t else d

end Sys2Proof.Machine
end

