-- ==== Sys2Proof/Machine/FwDict.lean ====
section
/-! DEFINITION. Firmware-defined objects: requests at DictEngine, its answers, restores and time limits (R412 to R414). -/
namespace Sys2Proof.Machine

/-- DictEngine runs. -/
def Dev.fwRuns (d : Dev) : Bool := decide (d.dict.dictEngine < engines) && d.alive d.dict.dictEngine

/-- DICT_CTRL.READY. -/
def Dev.fwReady (d : Dev) : Bool := d.bit Reg.DICT_CTRL 0

/-- The client that restores are delivered for. -/
def fwRestorer : Req := { transport := .firmware, client := 0, tid := 0, token := 0 }

/-- Puts bytes into DICT_DATA. -/
def Dev.fwPut (d : Dev) (b : List Byte) : Dev :=
  (List.range ((b.length + 3) / 4)).foldl (fun (d : Dev) i => d.wr (Reg.DICT_DATA i) (wd (leAt b (4 * i) 4))) d

/-- The first `n` bytes of DICT_DATA. -/
def Dev.fwBytes (d : Dev) (n : Nat) : List Byte :=
  ((List.range ((n + 3) / 4)).flatMap (fun i => leBytes (d.rd (Reg.DICT_DATA i)).toNat 4)).take n

/-- What DICT_LEN says of a request: the data bytes of a write, the requested length of a DOM read. -/
def fwLen (w : Waiting) : Nat := if w.op = 1 then min 1024 (leNat w.data) else w.data.length

/-- A request is put before DictEngine (R413 step 1). -/
def Dev.fwPresent (d : Dev) (w : Waiting) : Dev :=
  let d := d.wr Reg.DICT_REQ (wd (w.op * 2 ^ 30 + w.idx * 2 ^ 8 + w.sub))
  let level := if w.op = 3 then 0 else d.levelOf w.req
  let d := d.wr Reg.DICT_LEN (wd (fwLen w + level * 2 ^ 16))
  let d := d.wr Reg.DICT_OFFSET (wd w.off)
  let d := if w.op = 1 then d else d.fwPut w.data
  { d with dict := { d.dict with fw := some { w with since := d.now } } }

/-- A journalled value as a restore request; its size is the declared one. -/
def Dev.fwRestore (d : Dev) (x : Nat × Nat × Nat) : Waiting :=
  let n := match d.fwObj x.1 x.2.1 with
    | some o => o.size
    | none => 0
  let b := if n ≤ 8 then leBytes x.2.2 n else SMap.getList (fun _ => 0) d.nvDom (domKey (objKey 0 x.1 x.2.1) 0) (min 1024 n)
  { req := fwRestorer, op := 3, idx := x.1, sub := x.2.1, off := 0, data := b, since := d.now }

/-- The next request: restores first, then clients in order. One is outstanding at a time. -/
def Dev.fwNext (d : Dev) : Dev :=
  if d.dict.fw.isSome || !d.fwReady then d
  else
    match d.dict.restores, d.dict.fwQueue with
    | x :: rest, _ => Dev.fwPresent { d with dict := { d.dict with restores := rest } } (d.fwRestore x)
    | [], w :: rest => Dev.fwPresent { d with dict := { d.dict with fwQueue := rest } } w
    | [], [] => d

/-- A request for a firmware-defined object that has passed the general checks. -/
def Dev.fwAsk (d : Dev) (r : Req) (op idx sub off : Nat) (data : List Byte) : Dev :=
  if !d.fwRuns then d.answer r op idx sub off 0x0401 data [] false
  else if 1024 < data.length then d.answer r op idx sub off 0x0701 data [] false
  else
    let w : Waiting := { req := r, op := op, idx := idx, sub := sub, off := off, data := data, since := d.now }
    let d := d.holdRequest r op idx sub off data
    Dev.fwNext { d with dict := { d.dict with fwQueue := d.dict.fwQueue ++ [w] } }

/-- The bytes of a DIRECT_READ object. -/
def Dev.fwDirect (d : Dev) (o : FwObj) : List Byte :=
  d.bytes (sharedBase (clusterOf d.dict.dictEngine) + o.storage) o.size

/-- A write that firmware has accepted is journalled where the object is PERSISTENT (R413 step 4). -/
def Dev.fwJournal (d : Dev) (w : Waiting) (o : FwObj) : Dev :=
  let isDom := decide (8 < o.size)
  let key := objKey 0 w.idx w.sub
  let j : Journal :=
    { req := w.req, idx := w.idx, sub := w.sub, off := w.off
      newVal := if isDom then w.data.length else leNat w.data
      oldVal := if d.nv.any (fun p => p.1 == key) then SMap.get objDefault d.nv key else o.dflt
      newBytes := if isDom then w.data else []
      oldBytes := if isDom then SMap.getList (fun _ => 0) d.nvDom (domKey key w.off) w.data.length else []
      data := w.data
      crc := entryCrc w.idx w.sub w.off (leNat w.data) (if isDom then w.data else []) }
  { d with dict := { d.dict with journal := d.dict.journal ++ [j] } }

/-- The answer of firmware to the outstanding request. -/
def Dev.fwAnswer (d : Dev) (w : Waiting) (code len : Nat) : Dev :=
  if w.op = 3 then
    if code = 0 then d
    else
      let d : Dev := { d with nv := SMap.del d.nv (objKey 0 w.idx w.sub) }
      d.event 1 0x3033 [.h w.idx, .h w.sub, .h code]
  else if code ≠ 0 then d.answer w.req w.op w.idx w.sub w.off code w.data [] false
  else if w.op = 1 then
    let size := match d.fwObj w.idx w.sub with
      | some o => o.size
      | none => 0
    let b := d.fwBytes (min 1024 len)
    d.answer w.req w.op w.idx w.sub w.off 0 w.data b (decide (w.off + b.length < size))
  else
    match d.fwObj w.idx w.sub with
    | some o => if bitOf o.flags 0 then d.fwJournal w o else d.answer w.req w.op w.idx w.sub w.off 0 w.data [] false
    | none => d.answer w.req w.op w.idx w.sub w.off 0 w.data [] false

/-- DICT_RESP (R413 step 2). -/
def Dev.dictResp (d : Dev) (w : Word) : Dev :=
  match d.dict.fw with
  | none => d
  | some q =>
    let d : Dev := { d with dict := { d.dict with fw := none } }
    (d.fwAnswer q (fld w 31 16) (fld w 10 0)).fwNext

/-- DICT_CTRL: READY starts the deliveries (R414). -/
def Dev.dictCtrl (d : Dev) (m : Nat) (w : Word) : Dev := (d.regStore m Reg.DICT_CTRL w).fwNext

/-- A request is given up. -/
def Dev.fwRefuse (d : Dev) (w : Waiting) (code : Nat) : Dev :=
  if w.op = 3 then d else d.answer w.req w.op w.idx w.sub w.off code w.data [] false

/-- 1,000 ms in ns. -/
def fwLimit : Nat := 1000000000

/-- Requests whose time is up, or whose engine has stopped (R413, R414). -/
def Dev.fwExpire (d : Dev) : Dev :=
  if !d.fwRuns then
    let all := (match d.dict.fw with | some w => [w] | none => []) ++ d.dict.fwQueue
    let d : Dev := { d with dict := { d.dict with fw := none, fwQueue := [] } }
    all.foldl (fun (d : Dev) w => d.fwRefuse w 0x0401) d
  else
    let late (w : Waiting) : Bool := decide (w.since + fwLimit ≤ d.now)
    let old := d.dict.fwQueue.filter late
    let d : Dev := { d with dict := { d.dict with fwQueue := d.dict.fwQueue.filter (fun w => !late w) } }
    let d := old.foldl (fun (d : Dev) w => d.fwRefuse w 0x0601) d
    match d.dict.fw with
    | some w =>
      if late w then
        let d : Dev := { d with dict := { d.dict with fw := none } }
        ((d.fwRefuse w 0x0601).event 1 0x3032 [.h w.idx, .h w.sub]).fwNext
      else d
    | none => d

/-- A write of DICT_RESP: requests whose time is up have gone before it. -/
def execDictRespWrite (t m : Nat) (w : Word) (s : State) : Host.Outcome State Fault Refusal :=
  s.put ((s.dev.advance t).byMaster m Reg.DICT_RESP true (fun (d : Dev) => d.fwExpire.dictResp w))

def execDictReady (t m : Nat) (s : State) : Host.Outcome State Fault Refusal :=
  s.put ((s.dev.advance t).byMaster m Reg.DICT_CTRL true (fun (d : Dev) => d.dictCtrl m 1))

def execFirmwareObjectTimeout (t : Nat) (s : State) : Host.Outcome State Fault Refusal := s.put (s.dev.advance t).fwExpire

end Sys2Proof.Machine
end

