-- ==== Sys2Proof/Machine/RegView.lean ====
section
/-! DEFINITION. What a register read gives: the stored word, or the value that the device computes for it, block by block (register
tables of R69, R96, R114, R143, R168, R194, R220, R239, R262, R292, R312, R341, R364, R408, R435, R460, R489, R504). -/
namespace Sys2Proof.Machine

/-- The low or the high word of a 64-bit value, by the place in its register pair. -/
def half64 (v k : Nat) : Word := if k = 0 then wd v else wd (v / 2 ^ 32)

/-- Block ENG: the per-engine registers that the device computes. -/
def Dev.viewEng (d : Dev) (m a : Nat) : Word :=
  if a = Reg.ENG_ID then wd m
  else if a = Reg.ENG_CYCLE then (if m < engines && (d.engine m).running then wd ((d.dieTicks (dieOf m) - (d.engine m).releasedAt) / 10) else 0)
  else if a = Reg.IRQ_PEND then wd (d.irqPend m)
  else if a = Reg.START_STATUS then d.startStatus
  else if a = Reg.FRM_CTRL then wd (d.frame.len / 250 - 1)
  else if a = Reg.FRM_START_LO then half64 d.frame.start 0
  else if a = Reg.FRM_START_HI then half64 d.frame.start 1
  else if a = Reg.FRM_NUMBER then wd d.frame.number
  else if a = Reg.FRM_EARLIEST_LO then half64 d.e2 0
  else if a = Reg.FRM_EARLIEST_HI then half64 d.e2 1
  else if a = Reg.TGT_LEN then wd (d.ob Obj.TargetRingLength)
  else d.rdM m a

/-- Word `k` of entry `i` of an engine's queue, as SHQ_VIEW shows it (R171). -/
def Dev.viewEntry (d : Dev) (m i k : Nat) : Word :=
  match (d.queueOf m).find? (fun q => q.index == i) with
  | none => if k < 2 then 0xFFFFFFFF else 0
  | some q =>
    if k < 2 then half64 q.fireFt k
    else if k = 2 then wd (q.slot + 256 * (q.action + 4 * q.gen) + 65536 * q.epoch)
    else wd (q.level + 65536 * late10 q.late)

/-- Block SHQ. -/
def Dev.viewShq (d : Dev) (m a : Nat) : Word :=
  if Reg.SHQ_VIEW 0 ≤ a then d.viewEntry m ((a - Reg.SHQ_VIEW 0) / 16) (a % 16 / 4)
  else if a = Reg.AA_BASE then wd (0x7C000000 + 0x8000 * m)
  else d.rdM m a

/-- Block FT. -/
def Dev.viewFt (d : Dev) (m a : Nat) : Word :=
  if a = Reg.FT_LO then half64 d.now 0
  else if a = Reg.FT_HI then half64 d.now 1
  else if a = Reg.FT_STATUS ∨ a = Reg.FT_UNC ∨ a = Reg.FT_AGE then d.fixTime.rd a
  else if a = Reg.PORCH_LO then wd d.porch.ticks
  else if a = Reg.PORCH_HI then wd (d.porch.ticks / 2 ^ 32)
  else d.rdM m a

/-- One of the two shadow banks of the Latch by its register address: 0 or 1 by number modulo 2. -/
def Dev.latchBank (d : Dev) (i : Nat) : LatchBank := if i = 0 then d.latch.bank0 else d.latch.bank1

/-- The word that a bank holds of an address; none was copied, 0. -/
def LatchBank.word (b : LatchBank) (a : Nat) : Word :=
  match b.copies.find? (fun p => p.1 == a) with
  | some p => p.2
  | none => 0

/-- The four words of the baseband's bank header (R68); 0 where the firing found the baseband without power (R67). -/
def LatchBank.header (b : LatchBank) (k : Nat) : Word := b.unitHeader (fun a => a == Reg.GB_CTRL + 0x8000 + 16) false k

/-- The burst store, a word of it (R93). -/
def Dev.viewBurst (d : Dev) (o : Nat) : Word := wd (leNat (SMap.getList (fun _ => (0 : Byte)) d.gnss.burstStore o 4))

/-- Block GB: the burst store at 0x3000 and the shadow banks at 0x8000 and 0xC000, header then records. -/
def Dev.viewGb (d : Dev) (m a : Nat) : Word :=
  let o := a % 0x10000
  if 0x8000 ≤ o then
    let i := (o - 0x8000) / 0x4000
    let k := o % 0x4000
    if k < 16 then (d.latchBank i).header (k / 4)
    else if k < 16 + 192 * 64 then (d.latchBank i).word (Reg.GB_CTRL + 0x8000 + k)
    else 0
  else if 0x3000 ≤ o ∧ o < 0x7080 then d.viewBurst (o - 0x3000)
  else if 0x1000 ≤ o ∧ o < 0x1000 + 192 * 32 ∧ o % 32 = 0x1C then
    wd (d.f a 31 31 * 2 ^ 31 + d.chanFlags ((o - 0x1000) / 32) (d.rd (Reg.CH_CFG ((o - 0x1000) / 32))) false % 1024)
  else if a = Reg.GB_CODE_DATA then wd (d.ld (codeBase + (d.rd Reg.GB_CODE_ADDR).toNat % 0x40000) 4)
  else if 0x40 ≤ o ∧ o < 0x80 ∧ o % 16 = 8 then
    (if d.headSupplied ((o - 0x40) / 16) then wd ((Config.freeWord d.fresh).toNat % 251) else 0)
  else d.rdM m a

/-- Block SPD and IMU. -/
def Dev.viewSpd (d : Dev) (m a : Nat) : Word :=
  let o := a % 0x10000
  if 0x40 ≤ o ∧ o < 0x140 then
    let n := (o - 0x40) / 32
    let k := (o - 0x40) % 32
    if k = 0x14 then (match (d.fi n).fifo with | p :: _ => wd p.1 | [] => 0)
    else if k = 0x18 then (match (d.fi n).fifo with | p :: _ => wd (p.1 / 2 ^ 32) | [] => 0)
    else if k = 0x1C then wd (d.fiStat n)
    else d.rdM m a
  else d.rdM m a

/-- Milliseconds since the last accepted resistance sample, saturating (SOL_AGE). -/
def Dev.solAge (d : Dev) (n : Nat) : Word :=
  if d.rd (Reg.SOL_RES n) = 0 then 0xFFFFFFFF else wd (min 0xFFFFFFFF ((d.now - (d.solOf n).sampleAt) / 1000000))

/-- Block SOL. -/
def Dev.viewSol (d : Dev) (m a : Nat) : Word :=
  let o := a % 0x10000
  if 0x1000 ≤ o ∧ o < 0x2000 ∧ o % 64 = 0x14 then d.solAge ((o - 0x1000) / 64) else d.rdM m a

/-- LV_STATUS of a module with its computed fields. -/
def Dev.lvStatus (d : Dev) (n : Nat) : Word :=
  let x := d.lvRun n d.fine (d.lvMod n)
  let w := putFld (d.rd (Reg.LV_STATUS n)) 23 16 (x.pair0.supp + x.pair1.supp)
  putBit w 4 (d.lvForced n)

/-- LV_CHAIN of a die (R231). -/
def Dev.lvChainWord (d : Dev) (i : Nat) : Word :=
  let left := ((d.chainOf i).resyncUntil - d.now + 999999) / 1000000
  putFld (putBit (d.rd (Reg.LV_CHAIN i)) 0 (d.chainOpen i)) 31 16 left

/-- Block LV. -/
def Dev.viewLv (d : Dev) (m a : Nat) : Word :=
  let o := a % 0x10000
  if o = 0x1000 then d.lvChainWord 0
  else if o = 0x1010 then d.lvChainWord 1
  else if o < 0x1000 ∧ o % 0x100 = 0x48 then wd (d.lvCount (o / 0x100))
  else if o < 0x1000 ∧ o % 0x100 = 4 then d.lvStatus (o / 0x100)
  else d.rdM m a

/-- HG_HYS of a channel: the set-point and the slot it comes from, if one does (R252). -/
def Dev.hysWord (d : Dev) (n : Nat) : Word :=
  let x := SMap.get (fun _ => 0) d.hyst n
  let active := b2n (decide (d.solPhase n = 3))
  if x = 0 then wd (active * 2 ^ 31 + fld (d.profWord n 1) 11 0)
  else wd (active * 2 ^ 31 + 2 ^ 30 + (x - 1) / 4096 % 16 * 2 ^ 24 + (x - 1) % 4096)

/-- Block HG. -/
def Dev.viewHg (d : Dev) (m a : Nat) : Word :=
  let o := a % 0x10000
  let die := o / 0x8000
  let k := o % 0x8000
  if k = 8 then wd (min 40 (Config.freeWord d.fresh).toNat)
  else if 0x3000 ≤ k ∧ k < 0x3080 then d.hysWord (32 * die + (k - 0x3000) / 4)
  else d.rdM m a

/-- The level of duty a load switch applies (LS_DUTY). -/
def Dev.lsDuty (d : Dev) (n : Nat) : Nat :=
  if d.forcing (lsDie n) && !d.closed then (if d.lsOn n then 65535 else 0)
  else if (d.routedBy 1 n).isSome then (if d.lsOn n then 65535 else 0)
  else
    let c := d.lsOf n
    if !d.bit (Reg.LS_CTRL n) 31 || d.lsTripped n || d.closed then 0
    else if pulses (d.f (Reg.LS_CTRL n) 30 29) c.level then min 65535 (roundDiv ((65535 * c.ton : Nat) : Int) 500).toNat
    else c.level

/-- LS_STATUS of a load switch with its computed fields. -/
def Dev.lsStatus (d : Dev) (n : Nat) : Word :=
  let w := putBit (d.rd (Reg.LS_STATUS n)) 23 (d.lsOn n)
  let w := putBit w 17 (d.forcing (lsDie n) && !d.closed)
  let w := putBit (putBit w 19 (fbit w 19 && d.lsFull n)) 18 (fbit w 18 && d.lsOffAsked n)
  putFld (putBit w 16 d.closed) 1 0 (d.lsSource n)

/-- LS_CURR with STALE: a switch that the scan passes over for more than one round of 24 visits of 100 µs. -/
def Dev.lsCurr (d : Dev) (n : Nat) : Word := putBit (d.rd (Reg.LS_CURR n)) 31 (decide ((d.lsOf n).visitedAt + 2400000 < d.now))

/-- Block LS. -/
def Dev.viewLs (d : Dev) (m a : Nat) : Word :=
  let o := a % 0x10000
  if 0x1000 ≤ o ∧ o < 0x1000 + 24 * 32 then
    let n := (o - 0x1000) / 32
    let k := o % 32
    if k = 4 then d.lsStatus n
    else if k = 8 then d.lsCurr n
    else if k = 0x10 then wd (d.lsDuty n)
    else d.rdM m a
  else if o = 0x0008 then putBit (d.rd a) 2 (d.forcing 0)
  else if o = 0x0108 then putBit (d.rd a) 2 (d.forcing 1)
  else d.rdM m a

/-- DIO_STATUS of a channel with its computed fields. -/
def Dev.dioStatus (d : Dev) (n : Nat) : Word :=
  let out := decide (d.dioMode n = 2)
  let w := putBit (d.rd (Reg.DIO_STATUS n)) 14 (out && d.forcing (dioDie n) && !d.closed)
  let w := putBit (putBit w 16 (fbit w 16 && d.dioAsked n)) 15 (fbit w 15 && !d.dioAsked n)
  putBit w 13 (out && d.closed)

/-- SIN_STATUS of a pair, its counter as the ticks have brought it on (R283). -/
def Dev.sinStatus (d : Dev) (p : Nat) : Word :=
  let w := d.rd (Reg.SIN_STATUS p)
  putFld w 25 16 (d.discShown (d.f (Reg.SIN_CTRL p) 9 0) (fld w 25 16) (SMap.get (fun _ => 0) d.sinTickAt p))

/-- ACL_STATUS of a die, likewise (R286). -/
def Dev.aclStatus (d : Dev) (i : Nat) : Word :=
  let w := d.rd (Reg.ACL_STATUS i)
  if fld w 22 16 = 100 then w else putFld w 22 16 (d.discShown 100 1 (d.loadDieOf i).aclAt)

/-- Block DIO and SIN. -/
def Dev.viewDio (d : Dev) (m a : Nat) : Word :=
  let o := a % 0x10000
  if 0x100 ≤ o ∧ o < 0x180 ∧ o % 16 = 4 then d.sinStatus ((o - 0x100) / 16)
  else if o = 0x200 ∨ o = 0x210 then d.aclStatus (o / 16 % 2)
  else if 0x1000 ≤ o ∧ o < 0x1400 ∧ o % 32 = 4 then d.dioStatus ((o - 0x1000) / 32) else d.rdM m a

/-- Block IB, at its place in the store: port and offset. -/
def Dev.viewIb (d : Dev) (m a : Nat) : Word :=
  let p := if a < 0x400C0000 then (a - 0x400B0000) / 0x8000 else (busAddr a - 0x400B0000) / 0x8000
  let k := a % 0x8000
  if k = 0x18 then wd (d.now / d.roundNs)
  else if 0x1000 ≤ k ∧ k < 0x2000 ∧ k % 16 = 0 then
    let o := (k - 0x1000) / 16
    let w := putBit (d.rd a) 30 (d.devObject p o)
    if d.devObject p o then putBit w 29 false else w
  else d.rdM m a

/-- Block WIN and DB: an engine's own windows. -/
def Dev.viewWin (d : Dev) (m a : Nat) : Word :=
  if a = Reg.WIN_STATUS then
    putFld (d.rdM m a) 7 0 ((List.range 8).foldl (fun s w => s + b2n (d.bitM m (Reg.WIN_BASE w) 0) * 2 ^ w) 0)
  else d.rdM m a

/-- Blocks PWR, REC and MTR. -/
def Dev.viewTop (d : Dev) (m a : Nat) : Word :=
  if a = Reg.PWR_STATUS then d.pwrStatus
  else if a = Reg.REC_STATUS then putBit (d.rdM m a) 2 (d.ob Obj.ForerunnerEnable == 1)
  else if a = Reg.REC_NEXTSEQ then wd ((d.area 1).nextSeq * 7)
  else if a = Reg.REC_STAGED then wd d.rcd.staged.length
  else if a = Reg.MTR_END_LO then half64 (d.ob Obj.PeriodEnd) 0
  else if a = Reg.MTR_END_HI then half64 (d.ob Obj.PeriodEnd) 1
  else d.rdM m a

/-- A register that its row marks write-only reads an open value in its fields; a reserved address and a reserved bit read 0 (R7). -/
def Dev.regView (d : Dev) (m a : Nat) : Word :=
  match regRow a with
  | none => if a / 0x10000 = 0x4003 then d.viewGb m a else 0
  | some r =>
    if r.wo then r.held (Config.woRead d.fresh)
    else
      match a / 0x10000 with
      | 0x4000 => d.viewEng m a
      | 0x4001 => d.viewShq m a
      | 0x4002 => d.viewFt m a
      | 0x4003 => d.viewGb m a
      | 0x4004 => d.viewSpd m a
      | 0x4005 => d.viewSol m a
      | 0x4006 => d.viewLv m a
      | 0x4007 => d.viewHg m a
      | 0x4008 => d.viewLs m a
      | 0x4009 => d.viewDio m a
      | 0x400B => d.viewIb m a
      | 0x500C => d.viewIb m a
      | 0x400E => d.viewWin m a
      | 0x400F => d.viewTop m a
      | 0x4010 => d.viewTop m a
      | 0x4011 => d.viewTop m a
      | _ => d.rdM m a

/-- Whether a read gives an open value, so that the next one is another. -/
def openReg (a : Nat) : Bool :=
  (match regRow a with | some r => r.wo | none => false) || a == Reg.HG_LOAD 0 || a == Reg.HG_LOAD 1
    || (decide (0x40030040 ≤ a) && decide (a < 0x40030080) && a % 16 == 8)

/-- The high word that a read of a low word puts into the shadow. -/
def Dev.highView (d : Dev) (m a : Nat) : Word := d.regView m (a + 4)

/-- GB_CODE_ADDR goes on to the next word (R87). -/
def Dev.codeStep (d : Dev) : Dev := d.wr Reg.GB_CODE_ADDR (wd (((d.rd Reg.GB_CODE_ADDR).toNat % 0x40000 + 4) % 0x40000))

/-- A read of the word at a bus address by a master (R7, R87, R104, R391). -/
def Dev.regRead (d : Dev) (m a0 : Nat) : Dev × Word :=
  let a := regPlace a0
  if 0x40040040 ≤ a ∧ a < 0x40040140 ∧ (a - 0x40040040) % 32 = 0x14 then d.fiPop m ((a - 0x40040040) / 32)
  else
    let w := d.regView m a
    let d := if openReg a then d.bump else d
    let d := if a = Reg.GB_CODE_DATA then d.codeStep else d
    if halfOf a = 1 then (d.setShadow m (d.highView m a), w)
    else if halfOf a = 2 then (d, d.shadow m)
    else (d, w)

/-- A read of both words of a 64-bit register in one access; the shadows stay (R391). -/
def Dev.regReadPair (d : Dev) (m a0 : Nat) : Dev × Word × Word :=
  let a := regPlace a0
  if 0x40040040 ≤ a ∧ a < 0x40040140 ∧ (a - 0x40040040) % 32 = 0x14 then
    let hi := d.regView m (a + 4)
    let s := d.shadow m
    let r := d.fiPop m ((a - 0x40040040) / 32)
    (r.1.setShadow m s, r.2, hi)
  else (d, d.regView m a, d.regView m (a + 4))

/-- A read by a master of the low word of a 64-bit register, whose high word goes to the master's shadow (R391). -/
def Dev.lowWordRead (d : Dev) (m a : Nat) : Dev :=
  if halfOf (regPlace a) = 1 then
    d.byMaster m a false (fun (d : Dev) =>
      let r := d.regRead m a
      r.1.emit .bus m 0 [a, r.2.toNat])
  else d

end Sys2Proof.Machine
end

