-- ==== Sys2Proof/Machine/Latch.lean ====
section
/-! DEFINITION. The firing of a Latch: the copies of every unit, the shadow banks and the history (R66 to R68, R91, R114, R194, R220,
R239, R262, R292, R312, R341, R364, R460, R489, R522). -/
namespace Sys2Proof.Machine

/-- The place of a copied value that has no register: its object key. -/
def copyKey (k : Nat) : Nat := 2 ^ 48 + k

/-- Copies of registers at the given addresses. -/
def Dev.copyRegs (d : Dev) (as : List Nat) : List (Nat × Word) := as.map (fun a => (a, d.regView 0x400 a))

def upTo (n : Nat) (g : Nat → List Nat) : List Nat := (List.range n).flatMap g

/-- One engine's copies: queue fill, overruns, events written (R194). -/
def Dev.copyEngine (d : Dev) (e : Nat) : List (Nat × Word) :=
  [(bankKey e Reg.SHQ_STATUS, wd (d.queueOf e).length), (bankKey e Reg.FRM_STATUS, wd (d.fM e Reg.FRM_STATUS 31 16)),
    (bankKey e Reg.AA_WR, d.rdM e Reg.AA_WR)]

/-- The engines of powered clusters copy; a cluster without power copies nothing (R67). -/
def Dev.copyEngines (d : Dev) : List (Nat × Word) :=
  ((List.range 64).filter (fun c => d.clusterOn c)).flatMap (fun c =>
    (List.range 16).flatMap (fun i => d.copyEngine (16 * c + i)))

/-- The ledger unit (R194). -/
def Dev.copyLedger (d : Dev) : List (Nat × Word) :=
  [(copyKey Obj.LedgerNextSeq, wd (d.ob Obj.LedgerNextSeq)), (copyKey Obj.LedgerReceived, wd (d.ob Obj.LedgerReceived))]

/-- Frequency inputs and inertial ports (R114). -/
def Dev.copyPose (d : Dev) : List (Nat × Word) :=
  d.copyRegs (upTo 8 (fun n => [Reg.FI_COUNT n, Reg.FI_LAST_LO n, Reg.FI_LAST_HI n, Reg.FI_PERIOD n]))
    ++ (List.range 2).flatMap (fun p =>
      [(Reg.IMU_STATUS p, wd (d.f (Reg.IMU_STATUS p) 31 16)), (copyKey (2 * p), wd (d.imu p).newest),
        (copyKey (2 * p + 1), wd ((d.imu p).newest / 2 ^ 32))])

/-- The power dies: solenoids, boost, Louvre, Hinge, loads, inputs, safety and tiles (R220, R239, R262, R292, R312). -/
def Dev.copyDies (d : Dev) : List (Nat × Word) :=
  d.copyRegs (
    upTo 64 (fun n => [Reg.SOL_PULSES n, Reg.SOL_CURR n, Reg.SOL_TEMP n, Reg.SOL_MOPEN n, Reg.SOL_MCLOSE n])
    ++ upTo 2 (fun i => [Reg.SOL_BOOST_V i, Reg.SOL_FEED_V i, Reg.WDG_STATUS i, Reg.ACL_STATUS i])
    ++ upTo 16 (fun n => [Reg.LV_COUNT n, Reg.LV_PERIODS n])
    ++ upTo 2 (fun i => upTo 16 (fun s => [Reg.HG_SY i s, Reg.HG_SR i s, Reg.HG_SU i s, Reg.HG_SCOUNT i s, Reg.HG_SSTATUS i s]))
    ++ upTo 24 (fun n => [Reg.LS_CURR n, Reg.LS_STATUS n]) ++ upTo 32 (fun n => [Reg.DIO_STATUS n])
    ++ upTo 8 (fun p => [Reg.SIN_STATUS p]) ++ upTo 16 (fun n => [Reg.AI_VAL n, Reg.AI_TRIG n])
    ++ upTo 16 (fun n => [Reg.SL_STATUS n, Reg.SL_ERR n, Reg.SL_OVF n]))

/-- Implement-bus ports, power, recorder and metering (R341, R460, R489). -/
def Dev.copyTop (d : Dev) : List (Nat × Word) :=
  d.copyRegs (
    upTo 4 (fun p => [Reg.IB_ERR p, Reg.IB_COUNT p, Reg.IB_ROUND p])
    ++ [Reg.PWR_FEED_A, Reg.PWR_FEED_B, Reg.PWR_STATUS, Reg.PWR_HEALTH, Reg.REC_NEXTSEQ, Reg.REC_STAGED, Reg.MTR_PERIOD]
    ++ upTo 4 (fun l => [Reg.MTR_UNALLOC_LO l, Reg.MTR_UNALLOC_HI l]))

/-- The frame counters of HC0, HC1, HE0, HE1 and HG0: no rule says what they count or where they are read, so their copies are free
values (R364). -/
def Dev.copyHost (d : Dev) : List (Nat × Word) := (List.range 5).map (fun i => (copyKey (16 + i), Config.freeWord (d.fresh + i)))

/-- The baseband's records as words of its shadow bank (R91). -/
def bankWords : Nat → Nat → List Byte → List (Nat × Word)
  | 0, _, _ => []
  | n + 1, k, b => (k, wd (leAt b 0 4)) :: bankWords n (k + 4) (b.drop 4)

/-- The baseband copies one record per channel while it has its domain and its clock (R40, R67, R91). -/
def Dev.copyGnss (d : Dev) (number at_ : Nat) : Dev × List (Nat × Word) :=
  if d.gbClock then
    let r := d.gnssRecords number at_ false (List.range 192)
    (r.1, bankWords 3072 (Reg.GB_CTRL + 0x8000 + 16) r.2)
  else (d, [])

/-- All copies of a firing. -/
def Dev.copyAll (d : Dev) (number at_ : Nat) : Dev × List (Nat × Word) :=
  let rest := d.copyEngines ++ d.copyLedger ++ d.copyPose ++ d.copyDies ++ d.copyTop ++ d.copyHost
  let g := Dev.copyGnss { d with fresh := d.fresh + 5 } number at_
  (g.1, rest ++ g.2)

/-- A firing writes the bank of its number's parity. -/
def Dev.setBank (d : Dev) (b : LatchBank) : Dev :=
  if b.number % 2 = 0 then { d with latch := { d.latch with bank0 := b } } else { d with latch := { d.latch with bank1 := b } }

/-- Whether a Latch slot's instant has come. -/
def Dev.latchDue (d : Dev) (slot : Nat) : Bool :=
  match d.latch.slots.getD slot none with
  | none => false
  | some x => d.fabricOn && decide (x.target ≤ d.now)

/-- A Latch slot whose instant has come fires (R67, R68); a periodic one goes on to its next target (R66). -/
def Dev.latchFire (d : Dev) (slot : Nat) : Dev :=
  match d.latch.slots.getD slot none with
  | none => d
  | some x =>
    if d.fabricOn && decide (x.target ≤ d.now) then
      let number := (d.latch.counter + 1) % 65536
      let c := d.copyAll number x.target
      let d := c.1.setBank { number := number, slot := slot, unaligned := !d.laneValid, instant := x.target, copies := c.2 }
      let d := d.setSlot slot (if x.period = 0 then none else some { x with target := x.target + x.period * 1000 })
      let d := d.setF Reg.LAT_LAST 15 0 number
      { d with latch := { d.latch with
          counter := number, copiesDue := true, history := (number, x.target) :: d.latch.history.take 15 } }
    else d


end Sys2Proof.Machine
end

