-- ==== Sys2Proof/Machine/RegBus.lean ====
section
/-! DEFINITION. Register writes, block by block: what a write does beyond storing its fields (R7, R8 and the register tables). Engines
reach them by their stores, the table's own rows by name, and REGISTER_WRITE for every register without a row. -/
namespace Sys2Proof.Machine

/-! ## Time and baseband (R44 to R51, R69, R83 to R96) -/

/-- FT_RATE, which firmware writes while SERVO_EN is 0, within its range (R43, R49). -/
def Dev.ftRate (d : Dev) (m a : Nat) (w : Word) : Dev :=
  if d.bit Reg.FT_CTRL 0 then d
  else if (swd w).natAbs ≤ 2147483 then d.wr a w
  else d.reject m a

def Dev.writeFt (d : Dev) (m a : Nat) (w : Word) : Dev :=
  if a = Reg.FT_CTRL then (d.regStore m a w).sourceLost
  else if a = Reg.FT_RATE then d.ftRate m a w
  else if a = Reg.GNSS_CTRL then d.gnssCtrl m w
  else if heldRegs a then d.heldStore m a w
  else if a = Reg.LAT_CMD then d.latCmd m w.toNat
  else d.regStore m a w

/-- GB_CTRL: heads and acquisition follow their enables. -/
def Dev.gbCtrl (d : Dev) (t m a : Nat) (w : Word) : Dev :=
  let d := d.regStore m a w
  let d := if d.bit Reg.GB_CTRL 1 then d else d.acqOff
  ((List.range 4).foldl (fun (d : Dev) n => d.headDrop t n) d).gbDomain

/-- A firmware rate of a channel: within its range, and ignored while the hardware loop runs it (R84, R95, R96). -/
def Dev.chanRateWrite (d : Dev) (m a c : Nat) (limit : Nat) (w : Word) : Dev :=
  if limit < (swd w).natAbs then d.reject m a
  else if d.hwLoop c && d.chanOn c then d
  else ((d.ncoNow c).regStore m a w).chanRate c

/-- Registers of a channel. -/
def Dev.writeChan (d : Dev) (m a c : Nat) (w : Word) : Dev :=
  match a % 32 with
  | 0 => d.chanCfg m c w
  | 0xC => d.chanRateWrite m a c 100000000 w
  | 0x10 => d.chanRateWrite m a c 50000000 w
  | 0x1C => (d.setBit a 31 (fbit w 31)).setChan c { (d.chan c) with signKnown := true }
  | _ => d.regStore m a w

def Dev.writeGb (d : Dev) (t m a : Nat) (w : Word) : Dev :=
  let o := a % 0x10000
  if a = Reg.GB_CTRL then d.gbCtrl t m a w
  else if a = Reg.GB_DUMP_BASE ∨ a = Reg.GB_DUMP_LEN then d.dumpPlace m a w
  else if a = Reg.GB_CODE_DATA then d.codeWrite w
  else if 0x40 ≤ o ∧ o < 0x80 ∧ o % 16 = 0 then
    let n := (o - 0x40) / 16
    ((d.regStore m a w).headSet n).headDrop t n
  else if a = Reg.ACQ_CMD then
    (if w = 1 then d.acqRequest m t else if w = 2 then d.acqCancel t else if w = 0 then d else d.reject m a)
  else if 0x1000 ≤ o ∧ o < 0x1000 + 192 * 32 then d.writeChan m a ((o - 0x1000) / 32) w
  else d.regStore m a w

/-- Frequency inputs, inertial ports, the pose (R102 to R107). -/
def Dev.writeSpd (d : Dev) (t m a : Nat) (w : Word) : Dev :=
  let o := a % 0x10000
  if 0x40 ≤ o ∧ o < 0x140 ∧ o % 32 = 0 then d.fiCtrl m a ((o - 0x40) / 32) w
  else if o = 0x200 ∨ o = 0x240 then d.imuCtrl m a ((o - 0x200) / 64) w
  else if 0x800 ≤ o ∧ o < 0x900 then d.poseStage m a w
  else if a = Reg.POSE_COMMIT_REG then (if fbit w 0 then d.poseCommit m t else d)
  else d.regStore m a w

/-! ## Engines, ownership, frames, panes, queues (R143, R149, R158, R172, R185, R186, R405) -/

/-- The clusters of a region whose cache area holds the dump ring (R86). -/
def Dev.ringInCache (d : Dev) (region : Nat) : Nat :=
  let base := d.rd Reg.GB_DUMP_BASE
  let c := fld base 31 26
  let lo := fld base 18 0
  let used := decide (d.rd Reg.GB_DUMP_LEN ≠ 0) && decide (0x10000 ≤ lo) && decide (lo < 0x58000)
  if used && c / 8 == region then 2 ^ (c % 8) else 0

/-- PC_CTRL: a cluster that holds the dump ring in its cache area keeps CACHE_EN at 0. -/
def Dev.pcCtrl (d : Dev) (m a : Nat) (w : Word) : Dev :=
  let bar := d.ringInCache (regionOf m)
  let clash := fld w 7 0 &&& bar
  let d := d.regStore m a (wd (fld w 7 0 - clash))
  let base := 8 * regionOf m
  let d := (List.range 8).foldl (fun (d : Dev) i => if d.cacheEn (base + i) then d else d.cacheDrop (base + i)) d
  if clash ≠ 0 then d.setBitM m Reg.FRM_STATUS 15 true else d

/-- ENG_DOORBELL: DOORBELL in the named engines of the writer's cluster (R405). -/
def Dev.ring (d : Dev) (m : Nat) (w : Word) : Dev :=
  (List.range 16).foldl (fun (d : Dev) i =>
    if fbit w i then
      let e := 16 * (m / 16) + i
      (d.raise e 3).setBitM e Reg.ENG_DOORBELL_SRC (m % 16) true
    else d) d

/-- ENG_TMR: the value takes effect at the write of its high word (R392), and is matched anew. -/
def Dev.timerWrite (d : Dev) (m a : Nat) (w : Word) : Dev :=
  let d := d.heldStore m a w
  if a = Reg.ENG_TMR_HI then d.setEngine m { (d.engine m) with tmrDone := false } else d

/-- PF_CMD. -/
def Dev.pfCmd (d : Dev) (m a : Nat) (w : Word) : Dev :=
  match fld w 1 0 with
  | 0 => d
  | 1 => d.paneFetch m
  | _ => d.reject m a

def Dev.writeEng (d : Dev) (m a : Nat) (w : Word) : Dev :=
  if a = Reg.ENG_TMR_LO ∨ a = Reg.ENG_TMR_HI then d.timerWrite m a w
  else if a = Reg.ENG_DOORBELL_REG then d.ring m w
  else if a = Reg.START_CMD then d.startCmd m a w
  else if a = Reg.OWN_CMD then d.ownCmd m (fld w 3 0)
  else if a = Reg.FRM_DONE_REG then (if fbit w 0 then d.frmDone m else d)
  else if a = Reg.PF_CMD then d.pfCmd m a w
  else if a = Reg.PC_CTRL then d.pcCtrl m a w
  else if a = Reg.DICT_CTRL then d.dictCtrl m w
  else if a = Reg.DICT_RESP then d.fwExpire.dictResp w
  else d.regStore m a w

def Dev.writeShq (d : Dev) (m a : Nat) (w : Word) : Dev :=
  if a = Reg.SHQ_CMD then d.shqCmd m (fld w 1 0)
  else if a = Reg.AA_RD then d.aaRead m w.toNat
  else if a = Reg.LED_CMD then (if fbit w 0 then d.ledSubmit m false else d)
  else d.regStore m a w

/-! ## Solenoids (R200, R212, R216) -/

/-- SOL_DIE_CTRL: CAP_CLEAR is at Service level (R200). -/
def Dev.dieCtrl (d : Dev) (m a i : Nat) (w : Word) : Dev :=
  let was := d.bit a 0
  let d := d.regStore m a w
  let d := if fbit w 1 && d.serviceOpen then d.capClear i else d
  d.boostSet i was

/-- SOL_CTRL: COIL_RREF 0 only with EN 0, and no enable without it (R212). -/
def Dev.solCtrl (d : Dev) (m a n : Nat) (w : Word) : Dev :=
  let was := d.bit a 31
  let rref := fld w 15 0
  let legal := decide (1000 ≤ rref) && decide (rref ≤ 60000) || (rref == 0 && !fbit w 31)
  let keep := if legal then rref else d.f a 15 0
  let on := fbit w 31 && keep != 0
  let d := d.regStore m a (putBit (putFld w 15 0 keep) 31 on)
  let d := if legal && (on || !fbit w 31) then d else d.reject m a
  let d := d.thermChan n
  if was && !on then d.solStop n else d

/-- SOL_CMD. -/
def Dev.solCmd (d : Dev) (n : Nat) (w : Word) : Dev :=
  let d := if fbit w 0 && d.solFault n && d.solClearable n then d.solClear n else d
  if fbit w 1 then d.wr (Reg.SOL_FCNT n) 0 else d

def Dev.writeSol (d : Dev) (m a : Nat) (w : Word) : Dev :=
  let o := a % 0x10000
  if o = 0 ∨ o = 0x100 then d.dieCtrl m a (o / 0x100) w
  else if o % 0x100 = 0x18 ∧ o < 0x200 ∨ o % 0x100 = 0x1C ∧ o < 0x200 then (d.regStore m a w).thermDie (o / 0x100)
  else if 0x1000 ≤ o ∧ o < 0x2000 ∧ o % 64 = 0 then d.solCtrl m a ((o - 0x1000) / 64) w
  else if 0x1000 ≤ o ∧ o < 0x2000 ∧ o % 64 = 0x2C then d.solCmd ((o - 0x1000) / 64) w
  else d.regStore m a w

/-! ## Louvre (R223, R224, R228, R231) -/

/-- The route codes of a LV_ROUTE word, A0, B0, A1, B1. -/
def routeCodes (w : Word) : List Nat := (List.range 4).map (fun k => fld w (8 * k + 4) (8 * k))

/-- No route code is a reserved one. -/
def routeCodesOk (w : Word) : Bool := (routeCodes w).all (fun c => decide (c ≤ 12) || decide (16 ≤ c))

/-- Whether a route code of module `n` meets the conditions of R223, the other outputs of the device as they stand. -/
def Dev.routeOk (d : Dev) (n code : Nat) : Bool :=
  match routeTarget (n / 8) code with
  | none => code == 0
  | some (cls, out) =>
    let other := match d.routedBy cls out with
      | some (m, _) => m != n
      | none => false
    !other && (d.boundTo cls out).isNone && (cls == 1 || d.dioMode out == 2)

def distinctRoutes (cs : List Nat) : Bool := ((cs.filter (fun c => c != 0)).eraseDups.length == (cs.filter (fun c => c != 0)).length)

/-- The whole route word may stand: each code meets R223 and no two name one channel. -/
def Dev.routesOk (d : Dev) (n : Nat) (w : Word) : Bool := (routeCodes w).all (fun c => d.routeOk n c) && distinctRoutes (routeCodes w)

/-- The channels that a module has gained or lost change their command source (R265). -/
def Dev.routesFollow (d : Dev) (n : Nat) (old : List Nat) : Dev :=
  let new := routeCodes (d.rd (Reg.LV_ROUTE n))
  let moved := (old.filter (fun c => !new.contains c)) ++ new.filter (fun c => !old.contains c)
  moved.foldl (fun (d : Dev) c => match routeTarget (n / 8) c with
    | some (cls, out) =>
      let d := d.sourceNew cls out
      if cls = 1 then d.lsConds out else d.dioConds out
    | none => d) d

/-- A LV_ROUTE write takes the fields that may stand, one after the other (R8, R223). -/
def Dev.lvRouteWrite (d : Dev) (m a n : Nat) (w : Word) : Dev :=
  let take (p : Dev × Bool) (k : Nat) : Dev × Bool :=
    let d := p.1
    let c := fld w (8 * k + 4) (8 * k)
    let others := ((List.range 4).filter (fun j => j != k)).map (fun j => d.routeCode n j)
    if d.routeOk n c && !(c != 0 && others.contains c) then (d.setF a (8 * k + 4) (8 * k) c, p.2) else (d, true)
  let r := (List.range 4).foldl take (d, false)
  let d1 := r.1.routesFollow n (routeCodes (d.rd a))
  if r.2 then d1.reject m a else d1

/-- Configuration words take a change only while EN is 0 (R224). -/
def Dev.lvConfig (d : Dev) (m a n : Nat) (w : Word) : Dev :=
  if d.bit (Reg.LV_CTRL n) 31 then (if heldBits a w = d.rd a then d else d.reject m a)
  else if a % 0x100 = 0x34 then d.lvRouteWrite m a n w
  else d.regStore m a w

/-- LV_CHAIN: TEST and RESYNC; TEST is refused in Field (R231). -/
def Dev.chainWrite (d : Dev) (m a i : Nat) (w : Word) : Dev :=
  let test := fbit w 1
  let d := if test == d.bit a 1 then d else if test && d.inField then d.reject m a else d.lvTest i (b2n test)
  if fbit w 2 then d.lvResync i else d

def Dev.writeLv (d : Dev) (m a : Nat) (w : Word) : Dev :=
  let o := a % 0x10000
  let n := o / 0x100
  if o = 0x1000 ∨ o = 0x1010 then d.chainWrite m a ((o - 0x1000) / 16) w
  else if 0x1000 ≤ o then d
  else
    match o % 0x100 with
    | 0 => d.lvCtrlWrite m n w
    | 0x18 => d.lvConfig m a n w
    | 0x1C => d.lvConfig m a n w
    | 0x30 => d.lvConfig m a n w
    | 0x34 => d.lvConfig m a n w
    | 0x44 => d.lvConfig m a n w
    | 0x40 => if fbit w 0 then d.lvCommit n else d
    | _ => d.regStore m a w

/-! ## Hinge (R253, R256, R258, R259) -/

/-- Whether slot `g` may join group `gr`: no fifth member (R253). -/
def Dev.groupRoom (d : Dev) (g gr : Nat) : Bool :=
  gr == 0 || decide (((dieSlots (hgDie g)).filter (fun x => x != g && d.hgGroup x == gr)).length < 4)

/-- HG_SCTRL while EN is 0: the fields, without a group that is full. -/
def Dev.hgFields (d : Dev) (m a g : Nat) (w : Word) : Dev :=
  let full := !d.groupRoom g (fld w 20 18)
  let d := d.regStore m a (putBit (if full then putFld w 20 18 (d.hgGroup g) else w) 31 false)
  if full then d.reject m a else d

/-- HG_SCTRL: fields change only while EN is 0 (R258). -/
def Dev.hgSctrl (d : Dev) (m a g : Nat) (w : Word) : Dev :=
  let same := decide (putFld (putBit w 31 true) 17 17 0 = d.rd a)
  if d.bit a 31 then
    let d := if same then d else d.reject m a
    if fbit w 31 then d else d.hgDisable g 1
  else
    let d := d.hgFields m a g w
    if fbit w 31 then d.hgEnableReg m g else d

/-- HG_SROUTE changes only while EN is 0; a destination that R251 reserves leaves DEST and DEST_IDX as they were. -/
def Dev.hgSroute (d : Dev) (m a g : Nat) (w : Word) : Dev :=
  if d.hgCtrl g 31 31 = 1 then (if putFld w 15 0 0 = d.rd a then d else d.reject m a)
  else
    let bad := decide (fld w 31 29 ≤ 5) && d.hgDestBad g (fld w 31 29) (fld w 28 24)
    let d := d.regStore m a (if bad then putFld w 31 24 (fld (d.rd a) 31 24) else w)
    if bad then d.reject m a else d

/-- Whether an F32 register of a slot accepts a value (R255, R256, R258). -/
def Dev.hgAccepts (d : Dev) (g k : Nat) (w : Word) : Bool :=
  if !fFinite w then false
  else if k = 0x20 then !fLt (d.rd (hgReg Reg.HG_U_MAX g)) w
  else if k = 0x24 then !fLt w (d.rd (hgReg Reg.HG_U_MIN g))
  else if k = 0x3C ∨ k = 0x40 ∨ k = 0x44 then fLt 0 w
  else if k = 0x58 then !fLt w 0
  else if k = 0x38 then !d.hgTargeted g
  else true

/-- A slot's F32 register. HG_FWIN keeps the instant of its write (R246). -/
def Dev.hgFloat (d : Dev) (m a g k : Nat) (w : Word) : Dev :=
  if !d.hgAccepts g k w then d.reject m a
  else
    let d := d.regStore m a w
    if k = 0x5C then d.setHg g { (d.hgOf g) with fwAt := d.now + 1 } else d

/-- HG_COMMIT: a bit per slot of the die. -/
def Dev.hgCommitMask (d : Dev) (m i : Nat) (w : Word) : Dev :=
  (List.range 16).foldl (fun (d : Dev) s => if fbit w s then d.hgCommitReg m (16 * i + s) else d) d

def Dev.writeHg (d : Dev) (m a : Nat) (w : Word) : Dev :=
  let o := a % 0x10000
  let i := o / 0x8000
  let k := o % 0x8000
  if k = 0 then (if fbit w 0 then d.regStore m a w else d.hgDisableAll i)
  else if k = 0xC then d.hgCommitMask m i w
  else if 0x100 ≤ k ∧ k < 0x900 then
    let g := 16 * i + (k - 0x100) / 0x80
    let j := (k - 0x100) % 0x80
    if j = 0 then d.hgSctrl m a g w
    else if j = 4 then d.hgSroute m a g w
    else if 0x10 ≤ j ∧ j < 0x60 then d.hgFloat m a g j w
    else d.regStore m a w
  else d.regStore m a w

/-! ## Loads, digital channels, inputs (R265, R267, R269, R273, R279, R291) -/

/-- LS_CTRL: LAMP on a Louvre target is a reserved encoding (R269). -/
def Dev.lsCtrl (d : Dev) (m a n : Nat) (w : Word) : Dev :=
  let was := pulses (d.f a 30 29) (d.lsOf n).level
  let bad := fld w 30 29 != 0 && fld w 30 29 != 3 && (d.routedBy 1 n).isSome
  let d := d.regStore m a (if bad then putFld w 30 29 (d.f a 30 29) else w)
  let d := if bad then d.reject m a else d
  (if pulses (d.f a 30 29) (d.lsOf n).level && !was then d.lsPeriod n else d).lsConds n

def Dev.writeLs (d : Dev) (m a : Nat) (w : Word) : Dev :=
  let o := a % 0x10000
  if o = 4 ∨ o = 0x104 then d.remapSwitches.wdgKick m (o / 0x100) (fld w 7 0)
  else if 0x1000 ≤ o ∧ o < 0x1000 + 24 * 32 then
    let n := (o - 0x1000) / 32
    match o % 32 with
    | 0 => d.lsCtrl m a n w
    | 0xC => if d.taken 1 n then d.reject m a else d.lsDirect n (fld w 15 0)
    | 0x14 => if fbit w 0 && d.lsAsksOff n then d.lsClear n else d
    | _ => d.regStore m a w
  else d.regStore m a w

/-- DIO_CTRL: the mode of a bound channel, a Louvre target or a pair member stays (R118, R273). -/
def Dev.dioCtrl (d : Dev) (m a n : Nat) (w : Word) : Dev :=
  let cur := d.dioMode n
  let fixed := fld w 31 30 != cur && (d.taken 2 n || cur == 3)
  let d := (d.regStore m a (if fixed && fld w 31 30 != 3 then putFld w 31 30 cur else w)).dioModeNew n cur
  if fixed && fld w 31 30 != 3 then d.reject m a else d

def Dev.writeDio (d : Dev) (m a : Nat) (w : Word) : Dev :=
  let o := a % 0x10000
  if 0x1000 ≤ o ∧ o < 0x1400 then
    let n := (o - 0x1000) / 32
    match o % 32 with
    | 0 => d.dioCtrl m a n w
    | 8 => if d.taken 2 n then d.reject m a else d.dioDirect n (fld w 0 0)
    | _ => d.regStore m a w
  else d.regStore m a w

def Dev.writeAin (d : Dev) (m a : Nat) (w : Word) : Dev :=
  if a = Reg.AI_SUP 0 then d.supplySet 0 (fbit w 0)
  else if a = Reg.AI_SUP 1 then d.supplySet 1 (fbit w 0)
  else d.regStore m a w

/-! ## Buses, Transom, tiles (R299, R334, R335, R351) -/

/-- IB_RFILT: a DEVICE object ignores writes (R341's table). -/
def Dev.rfilt (d : Dev) (m a p o : Nat) (w : Word) : Dev :=
  if d.devObject p o then d else (d.regStore m a w).objLeast p

def Dev.writeIb (d : Dev) (m a : Nat) (w : Word) : Dev :=
  let p := (busAddr a - 0x400B0000) / 0x8000
  let k := a % 0x8000
  if k = 0x28 then (if fbit w 0 then d.ibTxCmd m p else d)
  else if 0x1000 ≤ k ∧ k < 0x2000 ∧ (k % 16 = 0 ∨ k % 16 = 4) then d.rfilt m a p ((k - 0x1000) / 16) w
  else d.regStore m a w

def Dev.writeTr (d : Dev) (m a : Nat) (w : Word) : Dev :=
  if a = Reg.TR_TX_CMD then (if fbit w 0 then d.asApplied m else d) else d.regStore m a w

/-- SL_CTRL: EN, and REENUM at Service level (R299). -/
def Dev.slCtrl (d : Dev) (m a n : Nat) (w : Word) : Dev :=
  let was := d.bit a 31
  let d := d.regStore m a (putBit w 31 was)
  let d := if fbit w 31 == was then d else d.sillEnable n (fbit w 31)
  if fbit w 30 && d.serviceOpen then d.reenumerate n else d

def Dev.writeSl (d : Dev) (m a : Nat) (w : Word) : Dev :=
  let o := a % 0x10000
  if o < 0x1000 ∧ o % 0x100 = 0 then d.slCtrl m a (o / 0x100) w else d.regStore m a w

/-- Block WIN and DB: everything but WIN_STATUS is ignored and sets CFG_REJECT (R435's tables). -/
def Dev.writeWin (d : Dev) (m a : Nat) (w : Word) : Dev :=
  if a = Reg.WIN_STATUS then d.regStore m a w else d.setBitM m Reg.WIN_STATUS 31 true

/-- The recorder: a histogram value and a firmware event (R472, R476). -/
def Dev.writeRec (d : Dev) (m a : Nat) (w : Word) : Dev :=
  if a = Reg.HIST_VAL then d.histVal m (swd w)
  else if a = Reg.EVT_CODE then d.evtCode m (fld w 15 0)
  else d.regStore m a w

/-- A write of the word `w` to the register at bus address `a0` by master `m` at FT `t`. -/
def Dev.regEffect (d : Dev) (m t a0 : Nat) (w : Word) : Dev :=
  let a := regPlace a0
  match a / 0x10000 with
  | 0x4000 => d.writeEng m a w
  | 0x4001 => d.writeShq m a w
  | 0x4002 => d.writeFt m a w
  | 0x4003 => d.writeGb t m a w
  | 0x4004 => d.writeSpd t m a w
  | 0x4005 => d.writeSol m a w
  | 0x4006 => d.writeLv m a w
  | 0x4007 => d.writeHg m a w
  | 0x4008 => d.writeLs m a w
  | 0x4009 => d.writeDio m a w
  | 0x400A => d.writeAin m a w
  | 0x400B => d.writeIb m a w
  | 0x500C => d.writeIb m a w
  | 0x400C => d.writeTr m a w
  | 0x400D => d.writeSl m a w
  | 0x400E => d.writeWin m a w
  | 0x4010 => d.writeRec m a w
  | _ => d.regStore m a w

/-- A write of both words of a register pair in one access (R392): the device sees the two words, low first. -/
def Dev.regPair (d : Dev) (m t a : Nat) (lo hi : Word) : Dev := (d.regEffect m t a lo).regEffect m t (a + 4) hi

/-- A register write attempted by a master. -/
def Dev.regWrite (d : Dev) (t m a : Nat) (w : Word) : Dev :=
  if isRegAddr a then d.byMaster m a true (fun (d : Dev) => d.regEffect m t a w) else d

/-- A register write. In service and start failed in one fabric cycle are a failure (R504). -/
def execRegisterWrite (t m a : Nat) (w : Word) (s : State) : Host.Outcome State Fault Refusal :=
  let both : Bool := busAddr a == Reg.START_CMD && fld w 1 0 == 1 && s.pending.any (failsNow t)
  s.put (((s.dev.advance t).kickFirst s.pending a).regWrite t m a (if both then 2 else w))

def execLowWordRead (t m a : Nat) (s : State) : Host.Outcome State Fault Refusal := s.put ((s.dev.advance t).lowWordRead m a)

/-- A write of ENG_DOORBELL (R405). -/
def execEngDoorbell (t m mask : Nat) (s : State) : Host.Outcome State Fault Refusal :=
  s.put ((s.dev.advance t).byMaster m Reg.ENG_DOORBELL_REG true (fun (d : Dev) => d.ring m (wd mask)))

/-- TIMER: FT has reached ENG_TMR (R405). -/
def Dev.timerMatch (d : Dev) (e : Nat) : Dev :=
  let x := d.engine e
  if d.fabricOn && x.running && !x.tmrDone && decide (d.rd64M e Reg.ENG_TMR_LO ≤ d.now) then
    (d.raise e 2).setEngine e { x with tmrDone := true }
  else d

def execEngTimerMatch (t e : Nat) (s : State) : Host.Outcome State Fault Refusal := s.put ((s.dev.advance t).timerMatch e)

end Sys2Proof.Machine
end

