-- ==== Sys2Proof/Machine/Operands.lean ====
section
/-! DEFINITION. The operands of engine instructions (R390, R393, R394, R397, R400): general registers and pairs, vector lanes and their
masks, immediates, and the memory that an address reaches. -/
namespace Sys2Proof.Machine

/-! ## General registers and pairs (R390) -/

/-- A general register; g0 reads 0. -/
def Dev.gr (d : Dev) (e n : Nat) : Word := if n = 0 then 0 else SMap.get (fun _ => 0) d.greg (e * 32 + n)

/-- A write of a general register; g0 ignores it. -/
def Dev.setGr (d : Dev) (e n : Nat) (w : Word) : Dev :=
  if n = 0 then d else { d with greg := SMap.set (fun _ => 0) d.greg (e * 32 + n) w }

/-- A register that may be named where a pair is required. -/
def pairReg (n : Nat) : Bool := n % 2 == 0

/-- The pair g*n*, g*n* + 1: the even register holds bits 31:0. -/
def Dev.gp (d : Dev) (e n : Nat) : Nat := (d.gr e n).toNat + 2 ^ 32 * (d.gr e (n + 1)).toNat
def Dev.setGp (d : Dev) (e n v : Nat) : Dev := (d.setGr e n (wd v)).setGr e (n + 1) (wd (v / 2 ^ 32))

/-! ## Vector registers (R390, R400) -/

def Dev.lane (d : Dev) (e r i : Nat) : Word := SMap.get (fun _ => 0) d.vreg (e * 256 + r * 16 + i)
def Dev.putLane (d : Dev) (e r i : Nat) (w : Word) : Dev :=
  { d with vreg := SMap.set (fun _ => 0) d.vreg (e * 256 + r * 16 + i) w }

/-- The 16 lanes of a vector register, lane 0 first. -/
def Dev.vec (d : Dev) (e r : Nat) : List Word := (List.range 16).map (fun i => d.lane e r i)

/-- The lanes on which an instruction with mask field `m` acts: all of them, or those that g*m* names. -/
def Dev.laneMask (d : Dev) (e m : Nat) : Nat := if m = 0 then 0xFFFF else (d.gr e m).toNat

/-- Sets the lanes of `vd` that `mask` names to `f i`; the others keep their value. -/
def Dev.setLanes (d : Dev) (e vd mask : Nat) (f : Nat → Word) : Dev :=
  (List.range 16).foldl (fun (d : Dev) i => if bitOf mask i then d.putLane e vd i (f i) else d) d

/-- A mask with bit `i` set where `f i` holds. -/
def lanesWhere (f : Nat → Bool) : Word := wd ((List.range 16).foldl (fun s i => s + b2n (f i) * 2 ^ i) 0)

/-! ## Immediates and shifts (R397, R398) -/

/-- A signed immediate as a word. -/
def simm {n : Nat} (i : BitVec n) : Word := i.signExtend 32
/-- A zero-extended immediate as a word. -/
def zimm {n : Nat} (i : BitVec n) : Word := i.setWidth 32

/-- A shift: kind 0 left, 1 right logical, 2 right arithmetic. -/
def shiftBy (kind : Nat) (a : Word) (n : Nat) : Word :=
  match kind with
  | 0 => a <<< n
  | 1 => a >>> n
  | _ => a.sshiftRight n

/-- A shift by a register's value; by 32 or more its result is open. -/
def shiftReg (kind : Nat) (a b : Word) : Word :=
  if b.toNat < 32 then shiftBy kind a b.toNat else Config.wideShift kind a b

/-! ## Integer results (R398) -/

def truth (b : Bool) : Word := wd (b2n b)
def mulHigh (a b : Word) : Word := wd (unsx 64 (swd a * swd b) / 2 ^ 32)
def mulHighU (a b : Word) : Word := wd (a.toNat * b.toNat / 2 ^ 32)
def quoU (a b : Word) : Word := if b = 0 then 0xFFFFFFFF else wd (a.toNat / b.toNat)
def modU (a b : Word) : Word := if b = 0 then a else wd (a.toNat % b.toNat)

/-- The signed quotient: by zero 0xFFFF_FFFF, and open where it lies outside the format. -/
def quoS (a b : Word) : Word :=
  if b = 0 then 0xFFFFFFFF
  else if a = 0x80000000 ∧ b = 0xFFFFFFFF then Config.quoOver
  else wd (unsx 32 (if Config.quoFloors then (swd a).fdiv (swd b) else (swd a).tdiv (swd b)))

/-- The signed remainder: by zero the dividend. -/
def modS (a b : Word) : Word :=
  if b = 0 then a
  else wd (unsx 32 (if Config.quoFloors then (swd a).fmod (swd b) else (swd a).tmod (swd b)))

def minS (a b : Word) : Word := if b.slt a then b else a
def maxS (a b : Word) : Word := if a.slt b then b else a
def minU (a b : Word) : Word := if b.ult a then b else a
def maxU (a b : Word) : Word := if a.ult b then b else a

/-- Leading zero bits, and set bits, of a word. -/
def leadZeros (a : Word) : Word := if a = 0 then 32 else wd (31 - Nat.log2 a.toNat)
def setBits (a : Word) : Word := wd (onesBelow a.toNat 32)

/-- FTOI: nearest, ties to even, saturating; open for what is not a number. -/
def fToWord (a : Word) : Word :=
  match fToInt a with
  | some i => wd (unsx 32 i)
  | none => Config.nanToInt a
def fOfWord (a : Word) : Word := fOfInt (swd a)

/-! ## Memory as an engine sees it (R393, R394) -/

/-- The model's memory address behind an engine's address outside the device registers. -/
def Dev.engAddr (d : Dev) (e a : Nat) : Nat :=
  if a < 0x10000 then localBase e + a
  else if a < 0x180000 then sharedBase (clusterOf e) + (a - 0x100000)
  else if a < 0x1400000 then sharedBase (8 * regionOf e) + (a - 0x1000000)
  else dramBase + d.dramOff e a

/-- Whether an address of shared memory holds cache lines or tags, which are the port's (R157). -/
def Dev.cacheByte (d : Dev) (x : Nat) : Bool :=
  let o := (x - sharedBase 0) % 0x80000
  decide (sharedBase 0 ≤ x) && decide (x < sharedBase 64) && d.cacheEn ((x - sharedBase 0) / 0x80000)
    && decide (0x10000 ≤ o) && decide (o < 0x58000)

/-- Whether a DRAM address holds data whose layout the spec does not give (R154, R190, R394). -/
def dramOpen (x : Nat) : Bool :=
  let o := x - dramBase
  decide (dramBase ≤ x) && ((decide (0x78000000 ≤ o) && decide (o < 0x7A000000)) || (decide (0x7B000000 ≤ o) && decide (o < 0x7B061A80))
    || decide (0xFF800000 ≤ o))

/-- The pane that fills a slot of the store, for a DRAM address in it (R154). -/
def Dev.paneAt (d : Dev) (x : Nat) : Option Pane :=
  if paneAddr 0 0 ≤ x ∧ x < paneAddr paneRoom 0 then d.look.panes.find? (fun p => p.slot == (x - paneAddr 0 0) / 0x100000) else none

/-- A byte as an engine reads it. -/
def Dev.engByte (d : Dev) (x : Nat) : Byte :=
  if d.cacheByte x || dramOpen x then Config.deviceByte d.fresh x
  else
    match d.paneAt x with
    | some p => BitVec.ofNat 8 ((d.byte x).toNat ^^^ p.fill)
    | none => d.byte x

/-- `n` bytes from an engine's address, little-endian. -/
def Dev.engLd (d : Dev) (e a n : Nat) : Nat := leNat ((List.range n).map (fun i => d.engByte (d.engAddr e a + i)))

/-- Whether a read of `n` bytes meets a byte of open content. -/
def Dev.engOpen (d : Dev) (e a : Nat) : Bool := d.cacheByte (d.engAddr e a) || dramOpen (d.engAddr e a)

/-- After a read of open content the next one is another value. -/
def Dev.seen (d : Dev) (e a : Nat) : Dev := if d.engOpen e a then d.bump else d

/-- A store of `n` bytes at an engine's address. -/
def Dev.engSt (d : Dev) (e a n v : Nat) : Dev := d.st (d.engAddr e a) n v

end Sys2Proof.Machine
end

