-- ==== Sys2Proof/Machine/Flags.lean ====
section
/-! DEFINITION. How an engine goes from one instruction to the next (R390, R406 to R408, R420): issue, the program counter, interrupt
enable and handler bits, faults and double faults, freezes for accesses outside the windows, interrupt entry and sleep. -/
namespace Sys2Proof.Machine

/-! ## Program counter and status bits -/

def Dev.pcOf (d : Dev) (e : Nat) : Nat := (d.engine e).pc
def Dev.setPc (d : Dev) (e a : Nat) : Dev := d.setEngine e { (d.engine e) with pc := a % 2 ^ 32 }

/-- IE of ENG_CTRL and HANDLER of ENG_STATUS. -/
def Dev.ie (d : Dev) (e : Nat) : Bool := d.bitM e Reg.ENG_CTRL 16
def Dev.setIe (d : Dev) (e : Nat) (b : Bool) : Dev := d.setBitM e Reg.ENG_CTRL 16 b
def Dev.handler (d : Dev) (e : Nat) : Bool := d.bitM e Reg.ENG_STATUS 1
def Dev.setHandler (d : Dev) (e : Nat) (b : Bool) : Dev := d.setBitM e Reg.ENG_STATUS 1 b

/-- The instruction is done: the next one follows, unless its own effect froze the engine before it (R420). -/
def Dev.nextPc (d : Dev) (e : Nat) : Dev := if d.frozen e then d else d.setPc e (d.pcOf e + 4)

/-- An instruction whose result is one general register. -/
def Dev.result (d : Dev) (e rd : Nat) (w : Word) : Dev := (d.setGr e rd w).nextPc e

/-- The address that a word offset from the following instruction reaches (R397). -/
def Dev.target (d : Dev) (e : Nat) (off : Int) : Nat := unsx 32 ((d.pcOf e : Int) + 4 + 4 * off)

/-! ## Interrupts (R406) -/

/-- An interrupt is taken at this instruction boundary; handlers do not nest. -/
def Dev.irqTaken (d : Dev) (e : Nat) : Bool := d.ie e && !d.handler e && d.irqNow e != 0

/-- Entry at a place of the vector table: EPC, HANDLER and IE. -/
def Dev.vector (d : Dev) (e off : Nat) : Dev :=
  let d := d.wrM e Reg.EPC (wd (d.pcOf e))
  ((d.setHandler e true).setIe e false).setPc e ((d.rdM e Reg.IRQ_BASE).toNat + off)

/-- The lowest pending source that is enabled. -/
def Dev.irqSource (d : Dev) (e : Nat) : Nat := (lowestBit (d.irqNow e) 14 0).getD 0

def Dev.irqEntry (d : Dev) (e : Nat) : Dev := d.vector e (16 * d.irqSource e)

/-! ## Faults and violations (R408, R420) -/

/-- A fault's registers. -/
def Dev.faultRegs (d : Dev) (e cause addr : Nat) : Dev :=
  ((d.setFM e Reg.FAULT_CAUSE 3 0 cause).wrM e Reg.FAULT_ADDR (wd addr)).wrM e Reg.EPC (wd (d.pcOf e))

/-- A fault while HANDLER is 1: the engine stops and is frozen (R408). -/
def Dev.doubleFault (d : Dev) (e cause addr : Nat) : Dev :=
  let pc := d.pcOf e
  let d := d.faultRegs e cause addr
  let d := d.setEngine e { (d.engine e) with stopped := true }
  (d.event (dieOf e) 0x3031 [.w e, .h cause, .w pc]).freeze e 4 addr pc

/-- A fault is taken whatever the value of IE. -/
def Dev.fault (d : Dev) (e cause addr : Nat) : Dev :=
  if d.handler e then d.doubleFault e cause addr
  else
    let pc := d.pcOf e
    let d := (d.faultRegs e cause addr).vector e 0xF0
    let d := d.setBitM e Reg.ENG_STATUS 30 true
    d.eventEvery 1000000000 (dieOf e) 0x3030 e [.w e, .h cause, .w pc]

/-- An access outside the windows: the engine is frozen at the instruction, which has no effect. -/
def Dev.violate (d : Dev) (e a : Nat) (write : Bool) : Dev :=
  (if write then d.louvreWrong e a else d).freeze e (if write then 2 else 1) a (d.pcOf e)

/-- An illegal instruction. -/
def Dev.illegal (d : Dev) (e : Nat) : Dev := d.fault e 1 (d.pcOf e)

/-- What an instruction with a register that must be even comes to. -/
def Dev.withEven (d : Dev) (e : Nat) (rs : List Nat) (k : Dev → Dev) : Dev := if rs.all pairReg then k d else d.illegal e

/-! ## Issue and sleep (R397, R406, R407) -/

/-- Whether an address holds an instruction that can be fetched. -/
def inStore (a : Nat) : Bool := decide (0x160000 ≤ a) && decide (a < 0x180000) && a % 4 == 0

/-- Whether an engine issues the next instruction of its thread now. -/
def Dev.issues (d : Dev) (e : Nat) : Bool := d.runs e && !d.irqTaken e

/-- The clock gate opens. -/
def Dev.ungate (d : Dev) (e : Nat) : Dev := if (d.engine e).gated then d.setEngine e { (d.engine e) with gated := false } else d

/-- The engine issues the instruction with effect `k`, if it issues one now and its address can be fetched. -/
def Dev.issue (d : Dev) (e : Nat) (k : Dev → Dev) : Dev :=
  if d.issues e then
    let d := d.ungate e
    let pc := d.pcOf e
    if inStore pc then k d
    else if d.mayRead e pc then d.fault e 3 pc
    else d.violate e pc false
  else d

/-- WAIT: on at once with an enabled source pending, else the engine clock-gates (R407). -/
def Dev.wait (d : Dev) (e : Nat) : Dev :=
  if d.irqNow e = 0 then
    let d := (d.nextPc e).setBitM e Reg.ENG_STATUS 0 true
    d.setEngine e { (d.engine e) with gated := true }
  else d.nextPc e

/-- An instruction of engine `e`, at FT `t`. -/
def State.instr (s : State) (t e : Nat) (k : Dev → Dev) : Host.Outcome State Fault Refusal := s.put ((s.dev.advance t).issue e k)

end Sys2Proof.Machine
end

