-- ==== Sys2Proof/Machine/IsaMem.lean ====
section
/-! DEFINITION. Loads, stores and atomic operations of engines (R391 to R396, R399, R401). -/
namespace Sys2Proof.Machine

/-- Bytes of a register's word at an address within it. -/
def regPart (w : Word) (a n : Nat) : Nat := w.toNat / 2 ^ (8 * (a % 4)) % 2 ^ (8 * n)

/-- The word that a store of `n` bytes within a register's word presents; the bytes that it does not give are open. -/
def Dev.regWord (d : Dev) (a n v : Nat) : Word :=
  if n = 4 then wd v
  else wd (putBits (Config.freeWord d.fresh).toNat (8 * (a % 4) + 8 * n - 1) (8 * (a % 4)) v)

/-! ## Scalar accesses -/

/-- A load of `n` bytes, at most 4, whose value goes on to `k`. -/
def Dev.load (d : Dev) (e a n : Nat) (k : Dev → Nat → Dev) : Dev :=
  if a % n ≠ 0 then d.fault e 2 a
  else if !d.mayRead e a then d.violate e a false
  else if isRegAddr a then
    let r := d.regRead e (a - a % 4)
    k r.1 (regPart r.2 a n)
  else k (d.seen e a) (d.engLd e a n)

/-- A load into a register. -/
def Dev.loadInto (d : Dev) (e rd a n : Nat) (f : Nat → Word) : Dev := d.load e a n (fun (d : Dev) v => d.result e rd (f v))

/-- A sign-extended value. -/
def signed (n v : Nat) : Word := wd (unsx 32 (sx n v))

/-- A store of `n` bytes, at most 4. -/
def Dev.store (d : Dev) (e t a n v : Nat) : Dev :=
  if a % n ≠ 0 then d.fault e 2 a
  else if !d.mayWrite e a n then d.violate e a true
  else if isRegAddr a then
    let w := d.regWord a n v
    ((if n = 4 then d else d.bump).regEffect e t (a - a % 4) w).nextPc e
  else (d.engSt e a n v).nextPc e

/-- The address rs1 + imm. -/
def Dev.based (d : Dev) (e rs1 : Nat) (imm : BitVec 16) : Nat := (d.gr e rs1 + simm imm).toNat

/-- LDD. -/
def Dev.loadPair (d : Dev) (e rd a : Nat) : Dev :=
  if a % 8 ≠ 0 then d.fault e 2 a
  else if !d.mayRead e a then d.violate e a false
  else if isRegAddr a then
    let r := d.regReadPair e a
    (r.1.setGp e rd (r.2.1.toNat + 2 ^ 32 * r.2.2.toNat)).nextPc e
  else
    let v := d.engLd e a 8
    ((d.seen e a).setGp e rd v).nextPc e

/-- STD. -/
def Dev.putPair (d : Dev) (e t rd a : Nat) : Dev :=
  let v := d.gp e rd
  if a % 8 ≠ 0 then d.fault e 2 a
  else if !d.mayWrite e a 8 then d.violate e a true
  else if isRegAddr a then (d.regPair e t a (wd v) (wd (v / 2 ^ 32))).nextPc e
  else (d.engSt e a 8 v).nextPc e

/-- An atomic operation: the new word is a function of the old one, none where the word stays (R396). -/
def Dev.atomic (d : Dev) (e rd a : Nat) (f : Word → Option Word) : Dev :=
  if a % 4 ≠ 0 then d.fault e 2 a
  else if isRegAddr a then d.fault e 5 a
  else if !d.mayRead e a then d.violate e a false
  else if !d.mayWrite e a 4 then d.violate e a true
  else
    let old := wd (d.engLd e a 4)
    let d := d.seen e a
    let d := match f old with
      | some w => d.engSt e a 4 w.toNat
      | none => d
    d.result e rd old

/-! ## Vector accesses (R401) -/

/-- B + 64k of a block. -/
def Dev.blockAddr (d : Dev) (e base : Nat) (imm : BitVec 9) : Nat := (d.gr e base + simm imm * 64).toNat

/-- The address of a lane of VLDS, VSTS and VGATH: B + 4k and what the lane adds. -/
def Dev.laneAddr (d : Dev) (e base : Nat) (imm : BitVec 9) (more : Word) : Nat := (d.gr e base + simm imm * 4 + more).toNat

/-- VLD. -/
def Dev.loadBlock (d : Dev) (e vd a : Nat) : Dev :=
  if a % 64 ≠ 0 || isRegAddr a then d.fault e 4 a
  else if !d.mayRead e a then d.violate e a false
  else ((d.seen e a).setLanes e vd 0xFFFF (fun i => wd (d.engLd e (a + 4 * i) 4))).nextPc e

/-- VST. -/
def Dev.storeBlock (d : Dev) (e vd a : Nat) : Dev :=
  if a % 64 ≠ 0 || isRegAddr a then d.fault e 4 a
  else if !d.mayWrite e a 64 then d.violate e a true
  else ((List.range 16).foldl (fun (x : Dev) i => x.engSt e (a + 4 * i) 4 (d.lane e vd i).toNat) d).nextPc e

/-- The first lane address that is misaligned or outside the engine's local memory. -/
def badLane (f : Nat → Nat) : Option Nat := ((List.range 16).map f).find? (fun a => a % 4 != 0 || decide (0x10000 ≤ a))

/-- VLDS and VGATH, by lane address. -/
def Dev.loadLanes (d : Dev) (e vd : Nat) (f : Nat → Nat) : Dev :=
  match badLane f with
  | some a => d.fault e 4 a
  | none => (d.setLanes e vd 0xFFFF (fun i => wd (d.engLd e (f i) 4))).nextPc e

/-- The word that VSTS leaves at a lane's address: that of one of the lanes which store there. -/
def Dev.laneStored (d : Dev) (e vd : Nat) (f : Nat → Nat) (a : Nat) : Nat :=
  let is := (List.range 16).filter (fun i => f i == a)
  (d.lane e vd (is.getD (Config.laneWinner d.fresh a % is.length) 0)).toNat

/-- VSTS, by lane address. -/
def Dev.storeLanes (d : Dev) (e vd : Nat) (f : Nat → Nat) : Dev :=
  match badLane f with
  | some a => d.fault e 4 a
  | none =>
    match ((List.range 16).map f).find? (fun a => !d.mayWrite e a 4) with
    | some a => d.violate e a true
    | none =>
      ((List.range 16).foldl (fun (x : Dev) i => x.engSt e (f i) 4 (d.laneStored e vd f (f i))) d.bump).nextPc e

/-! ## Meanings -/

def execLdw (t e : Nat) (rd rs1 : BitVec 5) (imm : BitVec 16) (s : State) : Host.Outcome State Fault Refusal :=
  s.instr t e (fun (d : Dev) => d.loadInto e rd.toNat (d.based e rs1.toNat imm) 4 wd)
def execLdh (t e : Nat) (rd rs1 : BitVec 5) (imm : BitVec 16) (s : State) : Host.Outcome State Fault Refusal :=
  s.instr t e (fun (d : Dev) => d.loadInto e rd.toNat (d.based e rs1.toNat imm) 2 (signed 16))
def execLdhu (t e : Nat) (rd rs1 : BitVec 5) (imm : BitVec 16) (s : State) : Host.Outcome State Fault Refusal :=
  s.instr t e (fun (d : Dev) => d.loadInto e rd.toNat (d.based e rs1.toNat imm) 2 wd)
def execLdb (t e : Nat) (rd rs1 : BitVec 5) (imm : BitVec 16) (s : State) : Host.Outcome State Fault Refusal :=
  s.instr t e (fun (d : Dev) => d.loadInto e rd.toNat (d.based e rs1.toNat imm) 1 (signed 8))
def execLdbu (t e : Nat) (rd rs1 : BitVec 5) (imm : BitVec 16) (s : State) : Host.Outcome State Fault Refusal :=
  s.instr t e (fun (d : Dev) => d.loadInto e rd.toNat (d.based e rs1.toNat imm) 1 wd)

def execStw (t e : Nat) (rd rs1 : BitVec 5) (imm : BitVec 16) (s : State) : Host.Outcome State Fault Refusal :=
  s.instr t e (fun (d : Dev) =>
    let a := d.based e rs1.toNat imm
    (d.kickFirst s.pending a).store e t a 4 (d.gr e rd.toNat).toNat)
def execSth (t e : Nat) (rd rs1 : BitVec 5) (imm : BitVec 16) (s : State) : Host.Outcome State Fault Refusal :=
  s.instr t e (fun (d : Dev) =>
    let a := d.based e rs1.toNat imm
    (d.kickFirst s.pending (a - a % 4)).store e t a 2 (d.gr e rd.toNat).toNat)
def execStb (t e : Nat) (rd rs1 : BitVec 5) (imm : BitVec 16) (s : State) : Host.Outcome State Fault Refusal :=
  s.instr t e (fun (d : Dev) =>
    let a := d.based e rs1.toNat imm
    (d.kickFirst s.pending (a - a % 4)).store e t a 1 (d.gr e rd.toNat).toNat)

def execLdd (t e : Nat) (rd rs1 : BitVec 5) (imm : BitVec 16) (s : State) : Host.Outcome State Fault Refusal :=
  s.instr t e (fun (d : Dev) => d.withEven e [rd.toNat] (fun (d : Dev) => d.loadPair e rd.toNat (d.based e rs1.toNat imm)))
def execStd (t e : Nat) (rd rs1 : BitVec 5) (imm : BitVec 16) (s : State) : Host.Outcome State Fault Refusal :=
  s.instr t e (fun (d : Dev) => d.withEven e [rd.toNat] (fun (d : Dev) =>
    let a := d.based e rs1.toNat imm
    ((d.kickFirst s.pending a).kickFirst s.pending (a + 4)).putPair e t rd.toNat a))

def execAtadd (t e : Nat) (rd rs1 rs2 : BitVec 5) (s : State) : Host.Outcome State Fault Refusal :=
  s.instr t e (fun (d : Dev) => d.atomic e rd.toNat (d.gr e rs1.toNat).toNat (fun w => some (w + d.gr e rs2.toNat)))
def execAtswp (t e : Nat) (rd rs1 rs2 : BitVec 5) (s : State) : Host.Outcome State Fault Refusal :=
  s.instr t e (fun (d : Dev) => d.atomic e rd.toNat (d.gr e rs1.toNat).toNat (fun _ => some (d.gr e rs2.toNat)))
def execAtmin (t e : Nat) (rd rs1 rs2 : BitVec 5) (s : State) : Host.Outcome State Fault Refusal :=
  s.instr t e (fun (d : Dev) => d.atomic e rd.toNat (d.gr e rs1.toNat).toNat (fun w => some (minS w (d.gr e rs2.toNat))))
def execAtmax (t e : Nat) (rd rs1 rs2 : BitVec 5) (s : State) : Host.Outcome State Fault Refusal :=
  s.instr t e (fun (d : Dev) => d.atomic e rd.toNat (d.gr e rs1.toNat).toNat (fun w => some (maxS w (d.gr e rs2.toNat))))
def execAtcas (t e : Nat) (rd rs1 rs2 : BitVec 5) (s : State) : Host.Outcome State Fault Refusal :=
  s.instr t e (fun (d : Dev) => d.atomic e rd.toNat (d.gr e rs1.toNat).toNat
    (fun w => if w = d.gr e rd.toNat then some (d.gr e rs2.toNat) else none))

def execVld (t e : Nat) (vd : BitVec 4) (base : BitVec 5) (imm : BitVec 9) (s : State) : Host.Outcome State Fault Refusal :=
  s.instr t e (fun (d : Dev) => d.loadBlock e vd.toNat (d.blockAddr e base.toNat imm))
def execVst (t e : Nat) (vd : BitVec 4) (base : BitVec 5) (imm : BitVec 9) (s : State) : Host.Outcome State Fault Refusal :=
  s.instr t e (fun (d : Dev) => d.storeBlock e vd.toNat (d.blockAddr e base.toNat imm))
def execVlds (t e : Nat) (vd : BitVec 4) (base aux : BitVec 5) (imm : BitVec 9) (s : State) : Host.Outcome State Fault Refusal :=
  s.instr t e (fun (d : Dev) => d.loadLanes e vd.toNat (fun i => d.laneAddr e base.toNat imm (wd i * d.gr e aux.toNat)))
def execVsts (t e : Nat) (vd : BitVec 4) (base aux : BitVec 5) (imm : BitVec 9) (s : State) : Host.Outcome State Fault Refusal :=
  s.instr t e (fun (d : Dev) => d.storeLanes e vd.toNat (fun i => d.laneAddr e base.toNat imm (wd i * d.gr e aux.toNat)))
def execVgath (t e : Nat) (vd : BitVec 4) (base : BitVec 5) (aux : BitVec 4) (imm : BitVec 9) (s : State) :
    Host.Outcome State Fault Refusal :=
  s.instr t e (fun (d : Dev) => d.loadLanes e vd.toNat (fun i => d.laneAddr e base.toNat imm (d.lane e aux.toNat i)))

end Sys2Proof.Machine
end

