-- ==== Sys2Proof/Machine/Isa.lean ====
section
/-! DEFINITION. Scalar instructions of engines: integer, constant, branch, jump, pair and float (R397, R398). -/
namespace Sys2Proof.Machine

/-- An instruction of format A whose result is a function of rs1 and rs2. -/
def State.alu (s : State) (t e : Nat) (rd rs1 rs2 : BitVec 5) (f : Word → Word → Word) : Host.Outcome State Fault Refusal :=
  s.instr t e (fun (d : Dev) => d.result e rd.toNat (f (d.gr e rs1.toNat) (d.gr e rs2.toNat)))

/-- An instruction of format K whose result is a function of rs1 and the immediate as a word. -/
def State.aluK (s : State) (t e : Nat) (rd rs1 : BitVec 5) (imm : Word) (f : Word → Word → Word) : Host.Outcome State Fault Refusal :=
  s.instr t e (fun (d : Dev) => d.result e rd.toNat (f (d.gr e rs1.toNat) imm))

/-- A compare and branch. -/
def State.branch (s : State) (t e : Nat) (rs1 rs2 : BitVec 5) (off : BitVec 16) (f : Word → Word → Bool) :
    Host.Outcome State Fault Refusal :=
  s.instr t e (fun (d : Dev) =>
    if f (d.gr e rs1.toNat) (d.gr e rs2.toNat) then d.setPc e (d.target e off.toInt) else d.nextPc e)

/-- A pair instruction whose result is a pair. -/
def State.aluD (s : State) (t e : Nat) (rd rs1 rs2 : BitVec 5) (f : Nat → Nat → Nat) : Host.Outcome State Fault Refusal :=
  s.instr t e (fun (d : Dev) => d.withEven e [rd.toNat, rs1.toNat, rs2.toNat] (fun (d : Dev) =>
    (d.setGp e rd.toNat (f (d.gp e rs1.toNat) (d.gp e rs2.toNat))).nextPc e))

/-- A compare of pairs; the result is 0 or 1 in rd. -/
def State.cmpD (s : State) (t e : Nat) (rd rs1 rs2 : BitVec 5) (f : Nat → Nat → Bool) : Host.Outcome State Fault Refusal :=
  s.instr t e (fun (d : Dev) => d.withEven e [rs1.toNat, rs2.toNat] (fun (d : Dev) =>
    d.result e rd.toNat (truth (f (d.gp e rs1.toNat) (d.gp e rs2.toNat)))))

/-! ## Integer, three registers -/

def execAddR (t e : Nat) (rd rs1 rs2 : BitVec 5) (s : State) : Host.Outcome State Fault Refusal := s.alu t e rd rs1 rs2 (· + ·)
def execSubR (t e : Nat) (rd rs1 rs2 : BitVec 5) (s : State) : Host.Outcome State Fault Refusal := s.alu t e rd rs1 rs2 (· - ·)
def execAndR (t e : Nat) (rd rs1 rs2 : BitVec 5) (s : State) : Host.Outcome State Fault Refusal := s.alu t e rd rs1 rs2 (· &&& ·)
def execOrR (t e : Nat) (rd rs1 rs2 : BitVec 5) (s : State) : Host.Outcome State Fault Refusal := s.alu t e rd rs1 rs2 (· ||| ·)
def execXorR (t e : Nat) (rd rs1 rs2 : BitVec 5) (s : State) : Host.Outcome State Fault Refusal := s.alu t e rd rs1 rs2 (· ^^^ ·)
def execShl (t e : Nat) (rd rs1 rs2 : BitVec 5) (s : State) : Host.Outcome State Fault Refusal := s.alu t e rd rs1 rs2 (shiftReg 0)
def execShr (t e : Nat) (rd rs1 rs2 : BitVec 5) (s : State) : Host.Outcome State Fault Refusal := s.alu t e rd rs1 rs2 (shiftReg 1)
def execSar (t e : Nat) (rd rs1 rs2 : BitVec 5) (s : State) : Host.Outcome State Fault Refusal := s.alu t e rd rs1 rs2 (shiftReg 2)
def execClt (t e : Nat) (rd rs1 rs2 : BitVec 5) (s : State) : Host.Outcome State Fault Refusal := s.alu t e rd rs1 rs2 (fun a b => truth (a.slt b))
def execCltu (t e : Nat) (rd rs1 rs2 : BitVec 5) (s : State) : Host.Outcome State Fault Refusal := s.alu t e rd rs1 rs2 (fun a b => truth (a.ult b))
def execMul (t e : Nat) (rd rs1 rs2 : BitVec 5) (s : State) : Host.Outcome State Fault Refusal := s.alu t e rd rs1 rs2 (· * ·)
def execMulhi (t e : Nat) (rd rs1 rs2 : BitVec 5) (s : State) : Host.Outcome State Fault Refusal := s.alu t e rd rs1 rs2 mulHigh
def execMulhiu (t e : Nat) (rd rs1 rs2 : BitVec 5) (s : State) : Host.Outcome State Fault Refusal := s.alu t e rd rs1 rs2 mulHighU
def execQuo (t e : Nat) (rd rs1 rs2 : BitVec 5) (s : State) : Host.Outcome State Fault Refusal := s.alu t e rd rs1 rs2 quoS
def execQuou (t e : Nat) (rd rs1 rs2 : BitVec 5) (s : State) : Host.Outcome State Fault Refusal := s.alu t e rd rs1 rs2 quoU
def execModR (t e : Nat) (rd rs1 rs2 : BitVec 5) (s : State) : Host.Outcome State Fault Refusal := s.alu t e rd rs1 rs2 modS
def execModu (t e : Nat) (rd rs1 rs2 : BitVec 5) (s : State) : Host.Outcome State Fault Refusal := s.alu t e rd rs1 rs2 modU
def execMin (t e : Nat) (rd rs1 rs2 : BitVec 5) (s : State) : Host.Outcome State Fault Refusal := s.alu t e rd rs1 rs2 minS
def execMax (t e : Nat) (rd rs1 rs2 : BitVec 5) (s : State) : Host.Outcome State Fault Refusal := s.alu t e rd rs1 rs2 maxS
def execMinu (t e : Nat) (rd rs1 rs2 : BitVec 5) (s : State) : Host.Outcome State Fault Refusal := s.alu t e rd rs1 rs2 minU
def execMaxu (t e : Nat) (rd rs1 rs2 : BitVec 5) (s : State) : Host.Outcome State Fault Refusal := s.alu t e rd rs1 rs2 maxU
def execLzc (t e : Nat) (rd rs1 : BitVec 5) (s : State) : Host.Outcome State Fault Refusal := s.alu t e rd rs1 0 (fun a _ => leadZeros a)
def execBitc (t e : Nat) (rd rs1 : BitVec 5) (s : State) : Host.Outcome State Fault Refusal := s.alu t e rd rs1 0 (fun a _ => setBits a)

/-! ## Register and constant -/

def execAddk (t e : Nat) (rd rs1 : BitVec 5) (imm : BitVec 16) (s : State) : Host.Outcome State Fault Refusal :=
  s.aluK t e rd rs1 (simm imm) (· + ·)
def execAndk (t e : Nat) (rd rs1 : BitVec 5) (imm : BitVec 16) (s : State) : Host.Outcome State Fault Refusal :=
  s.aluK t e rd rs1 (zimm imm) (· &&& ·)
def execOrk (t e : Nat) (rd rs1 : BitVec 5) (imm : BitVec 16) (s : State) : Host.Outcome State Fault Refusal :=
  s.aluK t e rd rs1 (zimm imm) (· ||| ·)
def execXork (t e : Nat) (rd rs1 : BitVec 5) (imm : BitVec 16) (s : State) : Host.Outcome State Fault Refusal :=
  s.aluK t e rd rs1 (zimm imm) (· ^^^ ·)
def execCltk (t e : Nat) (rd rs1 : BitVec 5) (imm : BitVec 16) (s : State) : Host.Outcome State Fault Refusal :=
  s.aluK t e rd rs1 (simm imm) (fun a b => truth (a.slt b))
def execHik (t e : Nat) (rd : BitVec 5) (imm : BitVec 16) (s : State) : Host.Outcome State Fault Refusal :=
  s.aluK t e rd 0 (zimm imm) (fun _ i => i <<< 16)

/-- SHK: the amount in imm 4:0, the kind in imm 6:5; kind 3 is not listed and so illegal. -/
def execShk (t e : Nat) (rd rs1 : BitVec 5) (imm : BitVec 16) (s : State) : Host.Outcome State Fault Refusal :=
  s.instr t e (fun (d : Dev) =>
    let kind := bitsOf imm.toNat 6 5
    if kind = 3 then d.illegal e else d.result e rd.toNat (shiftBy kind (d.gr e rs1.toNat) (bitsOf imm.toNat 4 0)))

/-! ## Branches and jumps -/

def execBreq (t e : Nat) (rs1 rs2 : BitVec 5) (off : BitVec 16) (s : State) : Host.Outcome State Fault Refusal := s.branch t e rs1 rs2 off (· == ·)
def execBrne (t e : Nat) (rs1 rs2 : BitVec 5) (off : BitVec 16) (s : State) : Host.Outcome State Fault Refusal := s.branch t e rs1 rs2 off (· != ·)
def execBrlt (t e : Nat) (rs1 rs2 : BitVec 5) (off : BitVec 16) (s : State) : Host.Outcome State Fault Refusal := s.branch t e rs1 rs2 off BitVec.slt
def execBrge (t e : Nat) (rs1 rs2 : BitVec 5) (off : BitVec 16) (s : State) : Host.Outcome State Fault Refusal := s.branch t e rs1 rs2 off (fun a b => !a.slt b)
def execBrltu (t e : Nat) (rs1 rs2 : BitVec 5) (off : BitVec 16) (s : State) : Host.Outcome State Fault Refusal := s.branch t e rs1 rs2 off BitVec.ult
def execBrgeu (t e : Nat) (rs1 rs2 : BitVec 5) (off : BitVec 16) (s : State) : Host.Outcome State Fault Refusal := s.branch t e rs1 rs2 off (fun a b => !a.ult b)

def execGo (t e : Nat) (off : BitVec 26) (s : State) : Host.Outcome State Fault Refusal :=
  s.instr t e (fun (d : Dev) => d.setPc e (d.target e off.toInt))

/-- CALL: the link, the address of the following instruction, goes to g31. -/
def execCall (t e : Nat) (off : BitVec 26) (s : State) : Host.Outcome State Fault Refusal :=
  s.instr t e (fun (d : Dev) => (d.setGr e 31 (wd (d.pcOf e + 4))).setPc e (d.target e off.toInt))

/-- The address rs1 + imm × 4. -/
def Dev.jumpAddr (d : Dev) (e : Nat) (rs1 : BitVec 5) (imm : BitVec 16) : Nat := (d.gr e rs1.toNat + simm imm * 4).toNat

def execGor (t e : Nat) (rs1 : BitVec 5) (imm : BitVec 16) (s : State) : Host.Outcome State Fault Refusal :=
  s.instr t e (fun (d : Dev) => d.setPc e (d.jumpAddr e rs1 imm))
def execCallr (t e : Nat) (rd rs1 : BitVec 5) (imm : BitVec 16) (s : State) : Host.Outcome State Fault Refusal :=
  s.instr t e (fun (d : Dev) => (d.setGr e rd.toNat (wd (d.pcOf e + 4))).setPc e (d.jumpAddr e rs1 imm))

/-! ## Pairs -/

def execAddD (t e : Nat) (rd rs1 rs2 : BitVec 5) (s : State) : Host.Outcome State Fault Refusal := s.aluD t e rd rs1 rs2 (fun a b => (a + b) % 2 ^ 64)
def execSubD (t e : Nat) (rd rs1 rs2 : BitVec 5) (s : State) : Host.Outcome State Fault Refusal :=
  s.aluD t e rd rs1 rs2 (fun a b => (a + 2 ^ 64 - b) % 2 ^ 64)
def execCltuD (t e : Nat) (rd rs1 rs2 : BitVec 5) (s : State) : Host.Outcome State Fault Refusal := s.cmpD t e rd rs1 rs2 (fun a b => decide (a < b))
def execCltD (t e : Nat) (rd rs1 rs2 : BitVec 5) (s : State) : Host.Outcome State Fault Refusal :=
  s.cmpD t e rd rs1 rs2 (fun a b => decide (sx 64 a < sx 64 b))

/-! ## Floats -/

def execFadd (t e : Nat) (rd rs1 rs2 : BitVec 5) (s : State) : Host.Outcome State Fault Refusal := s.alu t e rd rs1 rs2 fAdd
def execFsub (t e : Nat) (rd rs1 rs2 : BitVec 5) (s : State) : Host.Outcome State Fault Refusal := s.alu t e rd rs1 rs2 fSub
def execFmul (t e : Nat) (rd rs1 rs2 : BitVec 5) (s : State) : Host.Outcome State Fault Refusal := s.alu t e rd rs1 rs2 fMul
def execFdiv (t e : Nat) (rd rs1 rs2 : BitVec 5) (s : State) : Host.Outcome State Fault Refusal := s.alu t e rd rs1 rs2 fDiv
def execFmin (t e : Nat) (rd rs1 rs2 : BitVec 5) (s : State) : Host.Outcome State Fault Refusal := s.alu t e rd rs1 rs2 fMin
def execFmax (t e : Nat) (rd rs1 rs2 : BitVec 5) (s : State) : Host.Outcome State Fault Refusal := s.alu t e rd rs1 rs2 fMax
def execFclt (t e : Nat) (rd rs1 rs2 : BitVec 5) (s : State) : Host.Outcome State Fault Refusal := s.alu t e rd rs1 rs2 (fun a b => truth (fLt a b))
def execFceq (t e : Nat) (rd rs1 rs2 : BitVec 5) (s : State) : Host.Outcome State Fault Refusal := s.alu t e rd rs1 rs2 (fun a b => truth (fEq a b))
def execFang (t e : Nat) (rd rs1 rs2 : BitVec 5) (s : State) : Host.Outcome State Fault Refusal := s.alu t e rd rs1 rs2 fAng
def execFsqrt (t e : Nat) (rd rs1 : BitVec 5) (s : State) : Host.Outcome State Fault Refusal := s.alu t e rd rs1 0 (fun a _ => fSqrt a)
def execFfromi (t e : Nat) (rd rs1 : BitVec 5) (s : State) : Host.Outcome State Fault Refusal := s.alu t e rd rs1 0 (fun a _ => fOfWord a)
def execFtoi (t e : Nat) (rd rs1 : BitVec 5) (s : State) : Host.Outcome State Fault Refusal := s.alu t e rd rs1 0 (fun a _ => fToWord a)

/-- FSCT: sine to rd, cosine to rd + 1. -/
def execFsct (t e : Nat) (rd rs1 : BitVec 5) (s : State) : Host.Outcome State Fault Refusal :=
  s.instr t e (fun (d : Dev) => d.withEven e [rd.toNat] (fun (d : Dev) =>
    let a := d.gr e rs1.toNat
    ((d.setGr e rd.toNat (fSin a)).setGr e (rd.toNat + 1) (fCos a)).nextPc e))

end Sys2Proof.Machine
end

