-- ==== Sys2Proof/Machine/IsaVec.lean ====
section
/-! DEFINITION. Vector instructions of engines (R398, R400). -/
namespace Sys2Proof.Machine

/-- A masked instruction whose lanes are a function of the lanes of vs1 and vs2. -/
def State.vop (s : State) (t e : Nat) (vd vs1 vs2 : BitVec 4) (m : BitVec 5) (f : Word → Word → Word) :
    Host.Outcome State Fault Refusal :=
  s.instr t e (fun (d : Dev) =>
    (d.setLanes e vd.toNat (d.laneMask e m.toNat) (fun i => f (d.lane e vs1.toNat i) (d.lane e vs2.toNat i))).nextPc e)

/-- A compare: lane mask to g. -/
def State.vcmp (s : State) (t e : Nat) (g : BitVec 5) (vs1 vs2 : BitVec 4) (f : Word → Word → Bool) :
    Host.Outcome State Fault Refusal :=
  s.instr t e (fun (d : Dev) => d.result e g.toNat (lanesWhere (fun i => f (d.lane e vs1.toNat i) (d.lane e vs2.toNat i))))

/-- A reduction of the 16 lanes of vs1 to g. -/
def State.vred (s : State) (t e : Nat) (g : BitVec 5) (vs1 : BitVec 4) (f : Word → Word → Word) : Host.Outcome State Fault Refusal :=
  s.instr t e (fun (d : Dev) => d.result e g.toNat
    ((List.range 15).foldl (fun w i => f w (d.lane e vs1.toNat (i + 1))) (d.lane e vs1.toNat 0)))

/-! ## Integer lanes -/

def execVadd (t e : Nat) (vd vs1 vs2 : BitVec 4) (m : BitVec 5) (s : State) : Host.Outcome State Fault Refusal := s.vop t e vd vs1 vs2 m (· + ·)
def execVsub (t e : Nat) (vd vs1 vs2 : BitVec 4) (m : BitVec 5) (s : State) : Host.Outcome State Fault Refusal := s.vop t e vd vs1 vs2 m (· - ·)
def execVmul (t e : Nat) (vd vs1 vs2 : BitVec 4) (m : BitVec 5) (s : State) : Host.Outcome State Fault Refusal := s.vop t e vd vs1 vs2 m (· * ·)
def execVmulhi (t e : Nat) (vd vs1 vs2 : BitVec 4) (m : BitVec 5) (s : State) : Host.Outcome State Fault Refusal := s.vop t e vd vs1 vs2 m mulHigh
def execVand (t e : Nat) (vd vs1 vs2 : BitVec 4) (m : BitVec 5) (s : State) : Host.Outcome State Fault Refusal := s.vop t e vd vs1 vs2 m (· &&& ·)
def execVor (t e : Nat) (vd vs1 vs2 : BitVec 4) (m : BitVec 5) (s : State) : Host.Outcome State Fault Refusal := s.vop t e vd vs1 vs2 m (· ||| ·)
def execVxor (t e : Nat) (vd vs1 vs2 : BitVec 4) (m : BitVec 5) (s : State) : Host.Outcome State Fault Refusal := s.vop t e vd vs1 vs2 m (· ^^^ ·)
def execVshl (t e : Nat) (vd vs1 vs2 : BitVec 4) (m : BitVec 5) (s : State) : Host.Outcome State Fault Refusal := s.vop t e vd vs1 vs2 m (shiftReg 0)
def execVshr (t e : Nat) (vd vs1 vs2 : BitVec 4) (m : BitVec 5) (s : State) : Host.Outcome State Fault Refusal := s.vop t e vd vs1 vs2 m (shiftReg 1)
def execVsar (t e : Nat) (vd vs1 vs2 : BitVec 4) (m : BitVec 5) (s : State) : Host.Outcome State Fault Refusal := s.vop t e vd vs1 vs2 m (shiftReg 2)
def execVmin (t e : Nat) (vd vs1 vs2 : BitVec 4) (m : BitVec 5) (s : State) : Host.Outcome State Fault Refusal := s.vop t e vd vs1 vs2 m minS
def execVmax (t e : Nat) (vd vs1 vs2 : BitVec 4) (m : BitVec 5) (s : State) : Host.Outcome State Fault Refusal := s.vop t e vd vs1 vs2 m maxS
def execVminu (t e : Nat) (vd vs1 vs2 : BitVec 4) (m : BitVec 5) (s : State) : Host.Outcome State Fault Refusal := s.vop t e vd vs1 vs2 m minU
def execVmaxu (t e : Nat) (vd vs1 vs2 : BitVec 4) (m : BitVec 5) (s : State) : Host.Outcome State Fault Refusal := s.vop t e vd vs1 vs2 m maxU

/-- VSEL: lane of vs1 where the bit of g*m* is 1, lane of vs2 elsewhere. -/
def execVsel (t e : Nat) (vd vs1 vs2 : BitVec 4) (m : BitVec 5) (s : State) : Host.Outcome State Fault Refusal :=
  s.instr t e (fun (d : Dev) =>
    let mask := (d.gr e m.toNat).toNat
    (d.setLanes e vd.toNat 0xFFFF (fun i => if bitOf mask i then d.lane e vs1.toNat i else d.lane e vs2.toNat i)).nextPc e)

/-! ## Float lanes -/

def execVfadd (t e : Nat) (vd vs1 vs2 : BitVec 4) (m : BitVec 5) (s : State) : Host.Outcome State Fault Refusal := s.vop t e vd vs1 vs2 m fAdd
def execVfsub (t e : Nat) (vd vs1 vs2 : BitVec 4) (m : BitVec 5) (s : State) : Host.Outcome State Fault Refusal := s.vop t e vd vs1 vs2 m fSub
def execVfmul (t e : Nat) (vd vs1 vs2 : BitVec 4) (m : BitVec 5) (s : State) : Host.Outcome State Fault Refusal := s.vop t e vd vs1 vs2 m fMul
def execVfdiv (t e : Nat) (vd vs1 vs2 : BitVec 4) (m : BitVec 5) (s : State) : Host.Outcome State Fault Refusal := s.vop t e vd vs1 vs2 m fDiv
def execVfmin (t e : Nat) (vd vs1 vs2 : BitVec 4) (m : BitVec 5) (s : State) : Host.Outcome State Fault Refusal := s.vop t e vd vs1 vs2 m fMin
def execVfmax (t e : Nat) (vd vs1 vs2 : BitVec 4) (m : BitVec 5) (s : State) : Host.Outcome State Fault Refusal := s.vop t e vd vs1 vs2 m fMax
def execVfsqrt (t e : Nat) (vd vs1 : BitVec 4) (m : BitVec 5) (s : State) : Host.Outcome State Fault Refusal := s.vop t e vd vs1 0 m (fun a _ => fSqrt a)
def execVffromi (t e : Nat) (vd vs1 : BitVec 4) (m : BitVec 5) (s : State) : Host.Outcome State Fault Refusal := s.vop t e vd vs1 0 m (fun a _ => fOfWord a)
def execVftoi (t e : Nat) (vd vs1 : BitVec 4) (m : BitVec 5) (s : State) : Host.Outcome State Fault Refusal := s.vop t e vd vs1 0 m (fun a _ => fToWord a)

/-- VFMA: vs1 × vs2 + vd. -/
def execVfma (t e : Nat) (vd vs1 vs2 : BitVec 4) (m : BitVec 5) (s : State) : Host.Outcome State Fault Refusal :=
  s.instr t e (fun (d : Dev) => (d.setLanes e vd.toNat (d.laneMask e m.toNat)
    (fun i => fMulAdd (d.lane e vs1.toNat i) (d.lane e vs2.toNat i) (d.lane e vd.toNat i))).nextPc e)

/-- VFSCT: sines to vd, cosines to vd + 1, vd even. -/
def execVfsct (t e : Nat) (vd vs1 : BitVec 4) (m : BitVec 5) (s : State) : Host.Outcome State Fault Refusal :=
  s.instr t e (fun (d : Dev) => d.withEven e [vd.toNat] (fun (d : Dev) =>
    let mask := d.laneMask e m.toNat
    let c := fun i => fCos (d.lane e vs1.toNat i)
    ((d.setLanes e vd.toNat mask (fun i => fSin (d.lane e vs1.toNat i))).setLanes e (vd.toNat + 1) mask c).nextPc e))

/-! ## Compares, moves and reductions -/

def execVceq (t e : Nat) (g : BitVec 5) (vs1 vs2 : BitVec 4) (s : State) : Host.Outcome State Fault Refusal := s.vcmp t e g vs1 vs2 (· == ·)
def execVclt (t e : Nat) (g : BitVec 5) (vs1 vs2 : BitVec 4) (s : State) : Host.Outcome State Fault Refusal := s.vcmp t e g vs1 vs2 BitVec.slt
def execVcltu (t e : Nat) (g : BitVec 5) (vs1 vs2 : BitVec 4) (s : State) : Host.Outcome State Fault Refusal := s.vcmp t e g vs1 vs2 BitVec.ult
def execVfclt (t e : Nat) (g : BitVec 5) (vs1 vs2 : BitVec 4) (s : State) : Host.Outcome State Fault Refusal := s.vcmp t e g vs1 vs2 fLt
def execVfceq (t e : Nat) (g : BitVec 5) (vs1 vs2 : BitVec 4) (s : State) : Host.Outcome State Fault Refusal := s.vcmp t e g vs1 vs2 fEq

def execVbcast (t e : Nat) (vd : BitVec 4) (g : BitVec 5) (s : State) : Host.Outcome State Fault Refusal :=
  s.instr t e (fun (d : Dev) => (d.setLanes e vd.toNat 0xFFFF (fun _ => d.gr e g.toNat)).nextPc e)

/-- VINS and VEXT name a lane in five bits; a lane above 15 is not one that they list. -/
def execVins (t e : Nat) (vd : BitVec 4) (g lane : BitVec 5) (s : State) : Host.Outcome State Fault Refusal :=
  s.instr t e (fun (d : Dev) =>
    if 15 < lane.toNat then d.illegal e else (d.putLane e vd.toNat lane.toNat (d.gr e g.toNat)).nextPc e)
def execVext (t e : Nat) (g : BitVec 5) (vs1 : BitVec 4) (lane : BitVec 5) (s : State) : Host.Outcome State Fault Refusal :=
  s.instr t e (fun (d : Dev) => if 15 < lane.toNat then d.illegal e else d.result e g.toNat (d.lane e vs1.toNat lane.toNat))

def execVredadd (t e : Nat) (g : BitVec 5) (vs1 : BitVec 4) (s : State) : Host.Outcome State Fault Refusal := s.vred t e g vs1 (· + ·)
def execVredmin (t e : Nat) (g : BitVec 5) (vs1 : BitVec 4) (s : State) : Host.Outcome State Fault Refusal := s.vred t e g vs1 minS
def execVredmax (t e : Nat) (g : BitVec 5) (vs1 : BitVec 4) (s : State) : Host.Outcome State Fault Refusal := s.vred t e g vs1 maxS
def execVredminu (t e : Nat) (g : BitVec 5) (vs1 : BitVec 4) (s : State) : Host.Outcome State Fault Refusal := s.vred t e g vs1 minU
def execVredmaxu (t e : Nat) (g : BitVec 5) (vs1 : BitVec 4) (s : State) : Host.Outcome State Fault Refusal := s.vred t e g vs1 maxU

end Sys2Proof.Machine
end

