-- ==== Sys2Proof/Machine/IsaPrim.lean ====
section
/-! DEFINITION. Queue, Latch and frame primitives, interrupts and sleep (R402, R406 to R408). -/
namespace Sys2Proof.Machine

/-! ## The shutter queue -/

/-- Registers that a primitive stages go back to what they held where the primitive's own command froze the engine (R420). -/
def Dev.unstage (d : Dev) (e : Nat) (old : Dev) (as : List Nat) : Dev :=
  if d.frozen e then as.foldl (fun (d : Dev) a => d.wrM e a (old.rdM e a)) d else d

def qStaged : List Nat := [Reg.SHQ_FT_LO, Reg.SHQ_FT_LO + 4, Reg.SHQ_ARG, Reg.SHQ_EPOCH, Reg.SHQ_HANDLE]

/-- The writes that QPUT and QREP have in common. -/
def Dev.qStage (d : Dev) (e t ga gb : Nat) : Dev :=
  let d1 := d.regEffect e t Reg.SHQ_FT_LO (d.gr e ga)
  let d2 := d1.regEffect e t (Reg.SHQ_FT_LO + 4) (d.gr e (ga + 1))
  let d3 := d2.regEffect e t Reg.SHQ_ARG (d.gr e gb)
  d3.regEffect e t Reg.SHQ_EPOCH (wd (fld (d.gr e (gb + 1)) 15 0))

/-- Their results: gb, and the pair ga when the code is 0 or 1. -/
def Dev.qResult (d : Dev) (e ga gb : Nat) : Dev :=
  if d.frozen e then d
  else
    let r := d.rdM e Reg.SHQ_RESULT
    let d1 := d.setGr e gb r
    (if fld r 23 20 ≤ 1 then d1.setGp e ga (d.rd64M e Reg.SHQ_FIRE_LO) else d1).nextPc e

def Dev.qput (d : Dev) (e t ga gb : Nat) : Dev :=
  (((d.qStage e t ga gb).shqCmd e 1).unstage e d qStaged).qResult e ga gb

def Dev.qrep (d : Dev) (e t ga gb : Nat) : Dev :=
  let d1 := (d.qStage e t ga gb).regEffect e t Reg.SHQ_HANDLE (wd (fld (d.gr e (gb + 1)) 31 16))
  ((d1.shqCmd e 3).unstage e d qStaged).qResult e ga gb

def Dev.qwd (d : Dev) (e t ga : Nat) : Dev :=
  let d1 := d.regEffect e t Reg.SHQ_HANDLE (wd (fld (d.gr e ga) 15 0))
  let d2 := (d1.shqCmd e 2).unstage e d [Reg.SHQ_HANDLE]
  if d2.frozen e then d2 else d2.result e ga (d2.rdM e Reg.SHQ_RESULT)

def execQput (t e : Nat) (ga gb : BitVec 5) (s : State) : Host.Outcome State Fault Refusal :=
  s.instr t e (fun (d : Dev) => d.withEven e [ga.toNat, gb.toNat] (fun (d : Dev) => d.qput e t ga.toNat gb.toNat))
def execQwd (t e : Nat) (ga : BitVec 5) (s : State) : Host.Outcome State Fault Refusal :=
  s.instr t e (fun (d : Dev) => d.qwd e t ga.toNat)
def execQrep (t e : Nat) (ga gb : BitVec 5) (s : State) : Host.Outcome State Fault Refusal :=
  s.instr t e (fun (d : Dev) => d.withEven e [ga.toNat, gb.toNat] (fun (d : Dev) => d.qrep e t ga.toNat gb.toNat))

/-! ## The Latch: its registers lie outside the fixed windows, so an engine needs a grant for them (R393, R418) -/

/-- The effect `k` of a primitive that writes the registers `ws` and reads LAT_RESULT. -/
def Dev.latAccess (d : Dev) (e : Nat) (ws : List Nat) (k : Dev → Dev) : Dev :=
  match ws.find? (fun a => !d.mayWrite e a 4) with
  | some a => d.violate e a true
  | none => if d.mayRead e Reg.LAT_RESULT then k d else d.violate e Reg.LAT_RESULT false

def Dev.latr (d : Dev) (e t ga gb : Nat) : Dev :=
  d.latAccess e [Reg.LAT_TGT_LO, Reg.LAT_TGT_LO + 4, Reg.LAT_PERIOD, Reg.LAT_CMD] (fun (d : Dev) =>
    let d1 := d.regEffect e t Reg.LAT_TGT_LO (d.gr e ga)
    let d2 := d1.regEffect e t (Reg.LAT_TGT_LO + 4) (d.gr e (ga + 1))
    let d3 := (d2.regEffect e t Reg.LAT_PERIOD (d.gr e gb)).latCmd e (2 ^ 30)
    d3.result e gb (d3.rdM e Reg.LAT_RESULT))

def Dev.latc (d : Dev) (e ga : Nat) : Dev :=
  d.latAccess e [Reg.LAT_CMD] (fun (d : Dev) =>
    let d1 := d.latCmd e (2 ^ 31 + fld (d.gr e ga) 2 0)
    d1.result e ga (d1.rdM e Reg.LAT_RESULT))

def execLatr (t e : Nat) (ga gb : BitVec 5) (s : State) : Host.Outcome State Fault Refusal :=
  s.instr t e (fun (d : Dev) => d.withEven e [ga.toNat, gb.toNat] (fun (d : Dev) => d.latr e t ga.toNat gb.toNat))
def execLatc (t e : Nat) (ga : BitVec 5) (s : State) : Host.Outcome State Fault Refusal :=
  s.instr t e (fun (d : Dev) => d.latc e ga.toNat)

/-! ## Frames, interrupts, sleep -/

def execFdone (t e : Nat) (s : State) : Host.Outcome State Fault Refusal := s.instr t e (fun (d : Dev) => (d.frmDone e).wait e)
def execWait (t e : Nat) (s : State) : Host.Outcome State Fault Refusal := s.instr t e (fun (d : Dev) => d.wait e)
def execIen (t e : Nat) (s : State) : Host.Outcome State Fault Refusal := s.instr t e (fun (d : Dev) => (d.setIe e true).nextPc e)
def execIdis (t e : Nat) (s : State) : Host.Outcome State Fault Refusal := s.instr t e (fun (d : Dev) => (d.setIe e false).nextPc e)

/-- IRET: to EPC, HANDLER 0, IE 1. -/
def Dev.iret (d : Dev) (e : Nat) : Dev := ((d.setHandler e false).setIe e true).setPc e (d.rdM e Reg.EPC).toNat

def execIret (t e : Nat) (s : State) : Host.Outcome State Fault Refusal := s.instr t e (fun (d : Dev) => d.iret e)

/-- SYNC: every access of the model is complete when its command is, so only the program counter moves. -/
def execSync (t e : Nat) (s : State) : Host.Outcome State Fault Refusal := s.instr t e (fun (d : Dev) => d.nextPc e)

/-- BRK: a halted cluster issues nothing, so an issued BRK is a fault (R408, R426). -/
def execBrk (t e : Nat) (s : State) : Host.Outcome State Fault Refusal := s.instr t e (fun (d : Dev) => d.fault e 6 (d.pcOf e))

/-- An interrupt is taken. -/
def execInterruptEntry (t e : Nat) (s : State) : Host.Outcome State Fault Refusal :=
  let d := s.dev.advance t
  s.put (if d.runs e && d.irqTaken e then (d.ungate e).irqEntry e else d)

end Sys2Proof.Machine
end

