-- ==== Sys2Proof/Machine/DictWrite.lean ====
section
/-! DEFINITION. What a dictionary write does, object by object: the owning chapter's own checks and effects where it gives them, and
the plain write for every other object (R361, R365, R371, R377 to R383 and the chapters' object tables). -/
namespace Sys2Proof.Machine

/-! ## Shapes of a write -/

/-- A plain write, then what follows from it. -/
def Dev.plainThen (d : Dev) (key idx sub off : Nat) (data : List Byte) (f : Dev → Dev) : WRes :=
  let p := d.plainWrite key idx sub off data
  if p.1 = 0 then (f p.2).yes else d.no p.1

/-- A plain write that a state forbids. -/
def Dev.plainBut (d : Dev) (key idx sub off : Nat) (data : List Byte) (bar : Bool) : WRes :=
  let p := d.plainWrite key idx sub off data
  if p.1 ≠ 0 then d.no p.1 else if bar then d.no 0x0401 else p.2.yes

/-- A plain write of a value that must also meet a condition. -/
def Dev.plainIf (d : Dev) (key idx sub off : Nat) (data : List Byte) (ok : Bool) : WRes :=
  if ok then d.plainWrite key idx sub off data else d.no 0x0301

/-- After a write that changes what node configure carries, the controlled nodes get it (R331). -/
def Dev.thenNodes (d : Dev) (w : WRes) : WRes := if w.1 = 0 then (w.2.nodesFollow d).yes else w

/-- A command or an effect behind the general range and the bar in Field. -/
def Dev.checked (d : Dev) (idx sub off : Nat) (data : List Byte) (own : Dev → WRes) : WRes :=
  let code := (d.plainWrite 0 idx sub off data).1
  if code ≠ 0 then d.no code else own d

/-! ## Chapters -/

/-- Field time (R44, R47, R62 to R65, R71 to R74). -/
def Dev.writeTimeObj (d : Dev) (idx sub off : Nat) (data : List Byte) : WRes :=
  let v := leNat data
  if idx = 0x3001 then (if sub = 1 then d.writeEpoch v else d.fieldTimeSet v)
  else if idx = 0x3002 ∧ sub = 2 then d.plainThen 0 idx sub off data Dev.sourceLost
  else if idx = 0x3004 then (if sub = 1 then d.writeWall v else d.writeLeap v)
  else if idx = 0x3008 ∧ sub = 1 then d.latchWrite v false
  else if idx = 0x3008 ∧ sub = 2 then d.latchWrite v true
  else if idx = 0x3008 ∧ sub = 4 then d.latchCancelWrite v
  else d.plainWrite 0 idx sub off data

/-- GnssEnable is GB_CTRL.ENABLE in Ready and Field (R97); a head that it takes its supply from loses its link (R77). -/
def Dev.gnssFollow (d : Dev) : Dev :=
  let up : Bool := decide (d.pstate = .ready) || d.inField
  let d := if up then d.setBit Reg.GB_CTRL 0 (decide (d.ob Obj.GnssEnable = 1)) else d
  ((List.range 4).foldl (fun (d : Dev) n => d.headDrop d.now n) d).gbDomain

/-- Heads and baseband follow the enables (R97). -/
def Dev.headsFollow (d : Dev) (t : Nat) : Dev :=
  let d := d.headSupplies
  ((List.range 4).foldl (fun (d : Dev) n => d.headDrop t n) d).gbDomain

def Dev.writeGnssObj (d : Dev) (t idx sub off : Nat) (data : List Byte) : WRes :=
  if idx = 0x3100 ∧ sub = 1 then d.plainThen 0 idx sub off data Dev.gnssFollow
  else if (idx = 0x3100 ∧ (sub = 2 ∨ sub = 3)) ∨ (idx = 0x3110 ∧ sub = 1) then
    d.plainThen 0 idx sub off data (fun (d : Dev) => d.headsFollow t)
  else d.plainWrite 0 idx sub off data

def Dev.writePoseObj (d : Dev) (idx sub off : Nat) (data : List Byte) : WRes :=
  if idx = 0x3201 ∧ sub ≤ 3 then d.writeOrigin (sub - 1) (leNat data) else d.plainWrite 0 idx sub off data

/-- Endpoints (R119 to R131, R144). -/
def Dev.writeEpObj (d : Dev) (r : Req) (idx sub off : Nat) (data : List Byte) : WRes :=
  let v := leNat data
  if idx = 0x4000 then d.writeEndpointConfig off data
  else if idx = 0x4001 ∧ sub = 7 then d.epCommand r v
  else if idx = 0x4002 ∧ sub = 5 then d.remapCommand r v
  else if idx = 0x4010 ∧ sub = 3 then d.rangeCommand v
  else if idx = 0x4010 then d.plainThen 0 idx sub off data (fun (d : Dev) => d.setOb Obj.RangeState 1)
  else d.plainWrite (d.stageKey r) idx sub off data

/-- The word of the register that an object mirrors. -/
def mirrorReg (idx sub : Nat) : Nat :=
  match objRow idx sub with
  | some r => (match r.mirror with | some m => m.addr r idx sub | none => 0)
  | none => 0

/-- SolEnable: refused for 1 without a CoilResistanceRef; 0 releases the channel (R212). -/
def Dev.writeSolEnable (d : Dev) (n off : Nat) (data : List Byte) : WRes :=
  let was := d.bit (Reg.SOL_CTRL n) 31
  let on := decide (leNat data = 1)
  let p := d.plainBut 0 0x4120 (n + 1) off data (on && d.rref n == 0)
  if p.1 ≠ 0 then p
  else
    let d := p.2.fixTemp n
    (if was && !on then d.solStop n else d).yes

/-- Solenoids and boost converters (R200, R207, R212, R221). -/
def Dev.writeSolObj (d : Dev) (idx sub off : Nat) (data : List Byte) : WRes :=
  let v := leNat data
  let n := sub - 1
  if idx = 0x4100 then
    (if 9 ≤ sub then d.checked idx sub off data (fun (d : Dev) => (d.capClear (sub - 9)).yes)
     else
       let i := (sub - 1) % 2
       d.plainThen 0 idx sub off data (fun (x : Dev) => x.boostSet i (d.bit (Reg.SOL_DIE_CTRL i) 0)))
  else if idx = 0x4101 then d.plainThen 0 idx sub off data (fun (d : Dev) => ((d.thermBoth sub).thermDie 0).thermDie 1)
  else if idx = 0x4120 then d.writeSolEnable n off data
  else if idx = 0x4122 then
    let p := d.plainBut 0 idx sub off data (v == 0 && d.bit (Reg.SOL_CTRL n) 31)
    if p.1 = 0 then (p.2.thermChan n).yes else p
  else if idx = 0x4127 then d.checked idx sub off data (fun (d : Dev) =>
    if !d.solClearable n then d.no 0x0401 else (if d.solFault n then d.solClear n else d).yes)
  else if idx = 0x4129 then d.testPulse n v
  else d.plainWrite 0 idx sub off data

/-- Objects of a Louvre module that change only while it is disabled (R224). -/
def lvFixed (idx : Nat) : Bool := [0x5101, 0x5102, 0x5103, 0x5104, 0x5107, 0x5108, 0x510A].contains idx

/-- The module of a Louvre object: delays and times have two subindices a module. -/
def lvModOf (idx sub : Nat) : Nat := if idx = 0x5107 ∨ idx = 0x5108 ∨ idx = 0x510C then (sub - 1) / 2 else sub - 1

/-- A Louvre object whose value its module's state refuses, beside the range (R223, R224, R228). -/
def Dev.lvBars (d : Dev) (idx n v : Nat) : Bool :=
  (lvFixed idx && d.bit (Reg.LV_CTRL n) 31)
    || (idx == 0x5103 && !d.routesOk n (wd v))
    || ((idx == 0x510B || idx == 0x510C) && decide (d.f (Reg.LV_CTRL n) 6 0 < 64))

/-- A value that would make a reserved configuration: a period limit that passes the other one, a cluster whose domain is powered down, or
no cluster for a module that a slot commands (R224, R240, R251). -/
def Dev.lvCrossed (d : Dev) (idx n v : Nat) : Bool :=
  (idx == 0x5101 && decide (v < 64) && !d.clusterOn v) || (idx == 0x5101 && v == 127 && d.hgCommands n) || (idx == 0x5105 && decide (d.objVal 0 0x5106 (n + 1) < v)) || (idx == 0x5106 && decide (v < d.objVal 0 0x5105 (n + 1)))

/-- Louvre modules (R223 to R231, R240). -/
def Dev.writeLvObj (d : Dev) (idx sub off : Nat) (data : List Byte) : WRes :=
  let v := leNat data
  let n := lvModOf idx sub
  if idx = 0x5100 then d.checked idx sub off data (fun (d : Dev) => (if v = 1 then d.lvEnableWrite n else d.lvOff n 1).yes)
  else if idx = 0x5110 then d.checked idx sub off data (fun (d : Dev) =>
    if d.inField && decide (v = 1) then d.no 0x0401 else (d.lvTest n v).yes)
  else if idx = 0x5111 then d.checked idx sub off data (fun (d : Dev) => (d.lvResync n).yes)
  else if d.lvCrossed idx n v then d.no 0x0301
  else
    let p := if idx == 0x5103 && !routeCodesOk (wd v) then d.no 0x0301 else d.plainBut 0 idx sub off data (d.lvBars idx n v)
    if p.1 = 0 ∧ (idx = 0x510B ∨ idx = 0x510C) then (p.2.lvCommit n).yes
    else if p.1 = 0 ∧ idx = 0x5101 then (p.2.lvFollow n).yes
    else if p.1 = 0 ∧ idx = 0x5103 then (p.2.routesFollow n (routeCodes (d.rd (Reg.LV_ROUTE n)))).yes
    else p

/-- A Hinge slot's object (R253 to R259, R263). -/
def Dev.writeSlotObj (d : Dev) (g idx sub off : Nat) (data : List Byte) : WRes :=
  let v := leNat data
  let on : Bool := d.hgCtrl g 31 31 == 1
  if sub = 1 then d.checked idx sub off data (fun (d : Dev) =>
    if v = 0 then (d.hgDisable g 1).yes
    else if on then d.yes else d.hgEnableObj g)
  else if sub = 6 then
    let p := d.plainIf 0 idx sub off data (d.groupRoom g v)
    if p.1 = 0 ∧ on then d.no 0x0401 else p
  else if (sub = 7 ∧ d.hgDestBad g v (d.hgRoute g 28 24)) ∨ (sub = 8 ∧ d.hgDestBad g (d.hgRoute g 31 29) v) then d.no 0x0301
  else if 2 ≤ sub ∧ sub ≤ 0xD then d.plainBut 0 idx sub off data on
  else if sub = 0x19 then d.plainBut 0 idx sub off data (on && v != d.hgCtrl g 29 29)
  else if sub = 0x18 then d.plainBut 0 idx sub off data (d.hgTargeted g)
  else if sub = 0x2C then d.checked idx sub off data (fun (d : Dev) => d.hgCommitObj g)
  else
    match objRow idx sub with
    | some row =>
      if row.ty = .f32 then d.plainIf 0 idx sub off data (f32Finite v && d.hgAccepts g (mirrorReg idx sub % 0x80) (wd v))
      else d.plainWrite 0 idx sub off data
    | none => d.no 0x0102

/-- Hinge engines (R253 to R263). -/
def Dev.writeHgObj (d : Dev) (idx sub off : Nat) (data : List Byte) : WRes :=
  if idx = 0x5000 then d.checked idx sub off data (fun (d : Dev) =>
    if leNat data = 0 then (d.hgDisableAll (sub - 1)).yes else d.plainWrite 0 idx sub off data)
  else if idx < 0x5030 then d.writeSlotObj (idx - 0x5010) idx sub off data
  else d.plainWrite 0 idx sub off data

/-- LsEnable and LsLamp: a period starts where the channel begins to pulse (R269). -/
def Dev.writeLsCtrl (d : Dev) (n idx off : Nat) (data : List Byte) : WRes :=
  let lamp (d : Dev) : Nat := d.f (Reg.LS_CTRL n) 30 29
  let was := pulses (lamp d) (d.lsOf n).level
  let bad : Bool := idx == 0x4201 && leNat data != 0 && (d.routedBy 1 n).isSome
  let p := d.plainBut 0 idx (n + 1) off data bad
  if p.1 ≠ 0 then p
  else ((if pulses (lamp p.2) (p.2.lsOf n).level && !was then p.2.lsPeriod n else p.2).lsConds n).yes

/-- DioMode of a taken channel or a pair's member stays (R118, R273). -/
def Dev.writeDioMode (d : Dev) (n off : Nat) (data : List Byte) : WRes :=
  let cur := d.dioMode n
  let p := d.plainBut 0 0x4210 (n + 1) off data (leNat data != cur && (d.taken 2 n || cur == 3))
  if p.1 = 0 then (p.2.dioModeNew n cur).yes else p

/-- Watchdogs, fail-safe states, safety pairs, the all-close line (R277 to R287). -/
def Dev.writeSafetyObj (d : Dev) (r : Req) (idx sub off : Nat) (data : List Byte) : WRes :=
  let v := leNat data
  let i := sub - 1
  if idx = 0x4220 then d.timeoutWrite i v
  else if idx = 0x4221 then d.ownerWrite i v
  else if idx = 0x4222 then d.checked idx sub off data (fun (d : Dev) =>
    if v = 1 then d.holdSet r i else (d.setHold i false 0 (d.levelOf r)).yes)
  else if idx = 0x4225 then d.failsafeWrite i 0 v
  else if idx = 0x4226 then d.failsafeWrite i 1 v
  else if idx = 0x4227 then d.failsafeWrite i 2 v
  else if idx = 0x4230 then d.checked idx sub off data (fun (d : Dev) => if v = 1 then d.pairEnable i else d.pairDisable i)
  else if idx = 0x4235 then d.checked idx sub off data (fun (d : Dev) => d.pairAck i)
  else if idx = 0x4240 then d.checked idx sub off data Dev.aclAck
  else d.plainBut 0 idx sub off data (decide (0x4231 ≤ idx) && decide (idx ≤ 0x4233) && d.inField)

/-- Load switches and digital channels (R265 to R275). -/
def Dev.writeLoadObj (d : Dev) (r : Req) (idx sub off : Nat) (data : List Byte) : WRes :=
  let v := leNat data
  let n := sub - 1
  if idx = 0x4200 ∨ idx = 0x4201 then d.writeLsCtrl n idx off data
  else if idx = 0x4202 then d.checked idx sub off data (fun (d : Dev) =>
    if d.taken 1 n then d.no 0x0401 else (d.lsDirect n v).yes)
  else if idx = 0x4205 then d.checked idx sub off data (fun (d : Dev) =>
    if d.lsAsksOff n then (d.lsClear n).yes else d.no 0x0401)
  else if idx = 0x4210 then d.writeDioMode n off data
  else if idx = 0x4214 then d.checked idx sub off data (fun (d : Dev) =>
    if d.taken 2 n then d.no 0x0401 else (d.dioDirect n v).yes)
  else if idx = 0x4256 then d.checked idx sub off data (fun (d : Dev) => (d.supplySet n (decide (v = 1))).yes)
  else d.writeSafetyObj r idx sub off data

def Dev.writeSillObj (d : Dev) (idx sub off : Nat) (data : List Byte) : WRes :=
  let n := sub - 1
  if idx = 0x4300 then d.checked idx sub off data (fun (d : Dev) =>
    if d.inField then d.no 0x0401 else (d.sillEnable n (decide (leNat data = 1))).yes)
  else if idx = 0x4305 then d.checked idx sub off data (fun (d : Dev) => (d.reenumerate n).yes)
  else d.plainWrite 0 idx sub off data

/-- The UDP port objects: the four of 0x1130 and TargetPort (R354). -/
def udpPortObjs : List Nat := [Obj.DictUdpPort, Obj.PoseInPort, Obj.AsAppliedPort, Obj.LedgerUdpPort, Obj.TargetPort]

/-- The value that an object has once the writes accepted for it are in force (R365). -/
def Dev.comingOb (d : Dev) (k : Nat) : Nat :=
  match (d.dict.journal.filter (fun j => objKey 0 j.idx j.sub == k)).getLast? with
  | some j => j.newVal
  | none => d.ob k

/-- A port number that another port object holds, or is about to, is refused, and every one in Field (R354, R365). -/
def Dev.writePort (d : Dev) (idx sub off : Nat) (data : List Byte) : WRes :=
  let others := udpPortObjs.filter (fun k => k != objKey 0 idx sub)
  d.plainBut 0 idx sub off data (d.inField || others.any (fun k => d.comingOb k == leNat data))

/-- Host-port settings, whose accepted writes take effect after their response (R365, R377). -/
def hostPortObj (idx sub : Nat) : Bool :=
  [0x1110, 0x1111, 0x1120, 0x1121, 0x1122].contains idx || (idx == 0x1130 && [1, 2, 3, 5].contains sub) || (idx == 0x6020 && sub == 1)

/-- Frames, policy, panes, targets, ledger (R147 to R169, R195). -/
def Dev.writeShutterObj (d : Dev) (r : Req) (idx sub off : Nat) (data : List Byte) : WRes :=
  let v := leNat data
  if idx = 0x6000 then d.writeFrameLength v
  else if idx = 0x6003 ∧ sub = 1 then d.writeCellSize v
  else if idx = 0x6003 ∧ sub = 7 then d.paneCommand r v
  else if idx = 0x6003 ∧ sub = 8 then d.writePaneMode r v
  else if idx = 0x6003 ∧ sub = 9 then d.paneDataWrite r off data
  else if idx = 0x6020 ∧ sub = 1 then d.writePort idx sub off data
  else if idx = 0x6020 ∧ sub = 2 then d.plainThen 0 idx sub off data Dev.judgeSources
  else if idx = 0x6100 ∧ sub = 2 then d.plainThen 0 idx sub off data Dev.fixQueues
  else if idx = 0x6102 ∧ sub = 0xD then d.ledReplay v
  else d.plainWrite (d.stageKey r) idx sub off data

/-- Recorder and metering (R476, R481 to R488, R490). -/
def Dev.writeRecObj (d : Dev) (r : Req) (idx sub off : Nat) (data : List Byte) : WRes :=
  let v := leNat data
  if idx = 0x7002 ∧ sub = 2 then d.writeHistConfig off data
  else if idx = 0x7002 ∧ sub = 4 then d.recorderClear r v
  else if idx = 0x7100 ∧ sub = 4 then d.accountsClear r v
  else if idx = 0x7102 ∧ sub = 2 then d.writePeriodEnd v
  else d.plainWrite (d.stageKey r) idx sub off data

/-- RestoreDefaults (R381). -/
def Dev.writeRestore (d : Dev) (r : Req) (v : Nat) : WRes :=
  if v ≠ 1 then d.no 0x0301
  else if d.inField || !d.shq.queue.isEmpty then d.no 0x0401
  else
    let d := d.event 1 0x7019 [.w r.client, .h (d.levelOf r)]
    Dev.yes { d with dict := { d.dict with defaultsNext := true } }

/-- PackageNumber (R383): a member's number passes through 0. A change ends the membership and any clash of the old number (R31, R33). -/
def Dev.writeNumber (d : Dev) (v : Nat) : WRes :=
  let old := d.ob Obj.PackageNumber
  if 10000 < v then (d.reach 7).no 0x0301
  else if d.inField || (old != 0 && v != 0) then d.no 0x0401
  else if v = old then d.yes
  else
    let before := d
    let d := (d.setOb Obj.PackageNumber v).event 1 0x701B [.h old, .h v]
    let changed : Dev := { d with
      tmst := { d.tmst with refHeld := false }
      ib := if v = 0 then d.ib else { d.ib with dupNumber := false } }
    before.thenNodes changed.yes

/-- Identity (R381 to R384). -/
def Dev.writeIdObj (d : Dev) (r : Req) (idx sub off : Nat) (data : List Byte) : WRes :=
  if idx = 0x1002 ∧ sub = 1 then d.writeNumber (leNat data)
  else if idx = 0x1005 ∧ sub = 2 then d.writeRestore r (leNat data)
  else d.plainWrite (d.stageKey r) idx sub off data

/-- A unicast IPv4 address: not 0/8, not loopback, not multicast or above (R365). -/
def ipUnicast (v : Nat) : Bool :=
  let a := v / 0x1000000
  decide (1 ≤ a) && decide (a < 224) && a != 127

/-- A contiguous mask: ones above zeros. -/
def maskContiguous (v : Nat) : Bool := (List.range 33).any (fun k => v == 2 ^ 32 - 2 ^ k)

/-- Transom and host ports (R349, R354, R365). -/
def Dev.writeHostObj (d : Dev) (idx sub off : Nat) (data : List Byte) : WRes :=
  let v := leNat data
  if idx = 0x1100 ∧ sub = 3 then d.writeHostStop v
  else if idx = 0x1100 ∧ sub = 5 then d.plainThen 0 idx sub off data Dev.stopUpdate
  else if idx = 0x1120 then d.plainIf 0 idx sub off data (ipUnicast v)
  else if idx = 0x1121 then d.plainIf 0 idx sub off data (maskContiguous v)
  else if idx = 0x1130 ∧ sub = 6 then d.plainIf 0 idx sub off data (decide (224 ≤ v / 0x1000000) && decide (v / 0x1000000 < 240))
  else if idx = 0x1130 ∧ sub ≠ 4 then d.writePort idx sub off data
  else d.plainWrite 0 idx sub off data

/-- WindowTable takes sender identities of packages and nodes, and 0 for a window that nobody has (R317, R342). -/
def Dev.writeWindows (d : Dev) (p off : Nat) (data : List Byte) : WRes :=
  let r := d.plainWrite 0 0x1304 (p + 1) off data
  if r.1 = 0 ∧ (List.range 64).any (fun j => let w := r.2.windowOwner p j; w != 0 && !packageIdent w && !nodeIdent w) then d.no 0x0301
  else r

/-- Buses: a RoundLength and OpenLength that leave no window are refused (R321, R342). -/
def Dev.writeBusObj (d : Dev) (idx sub off : Nat) (data : List Byte) : WRes :=
  if idx = 0x1303 then
    let p := d.plainWrite 0 idx sub off data
    if p.1 = 0 ∧ p.2.windowCount < 1 then d.no 0x0301 else d.thenNodes p
  else if idx = 0x1304 then d.thenNodes (d.writeWindows (sub - 1) off data)
  else if idx = 0x1306 then d.writeSilence (leNat data)
  else d.thenNodes (d.plainWrite 0 idx sub off data)

/-- A pair that is set anew knows nothing of its partner yet (R448): DEDUCED. -/
def Dev.pairAnew (d was : Dev) : Dev :=
  if [Obj.PairRole, Obj.PairPartner, Obj.PairBus].all (fun k => d.ob k == was.ob k) then d
  else { d with pair := { d.pair with
    partner := [], partnerState := 2, heardInterval := d.intervalOf d.now, lost := false, heard := false, got := [], matches_ := 0 } }

/-- The states that PowerStateRequest names (R446). -/
def askedState (v : Nat) : Option PState :=
  match v with
  | 1 => some .parked
  | 2 => some .standby
  | 3 => some .ready
  | 4 => some .field
  | _ => none

/-- Power, windows, keys, sessions, starts (R421 to R436, R444 to R461, R492 to R505). -/
def Dev.writePowerObj (d : Dev) (r : Req) (idx sub off : Nat) (data : List Byte) : WRes :=
  let v := leNat data
  if idx = 0x2000 then (match askedState v with | some p => d.powerRequest p | none => d.no 0x0301)
  else if idx = 0x2003 then d.writeClusters off data
  else if idx = 0x2100 then d.writeRelease v
  else if idx = 0x2101 then d.writeExtra sub off data
  else if idx = 0x2102 then (if sub = 1 then d.writeHalt r v else d.writeResume v)
  else if idx = 0x2112 then d.wholeDom 68 off data (if sub = 1 then d.keyProgram data else d.keyRevoke data)
  else if idx = 0x2120 ∧ sub = 2 then d.wholeDom 36 off data (d.sessResponse r data)
  else if idx = 0x2120 ∧ sub = 5 then d.writeSessEnd r v
  else if idx = 0x2121 then d.wholeDom 32 off data (d.writeSecret sub data)
  else if idx = 0x2202 then (if v = 1 ∨ v = 2 then d.askReset v else d.no 0x0301)
  else if idx = 0x2010 then d.thenNodes (d.plainThen 0 idx sub off data (fun (x : Dev) => x.pairAnew d))
  else if idx = 0x2204 ∧ sub = 2 then d.updateData off data
  else d.thenNodes (d.plainWrite 0 idx sub off data)

/-- The owner's part of a write, by the index ranges of R367. -/
def Dev.ownWrite (d : Dev) (t : Nat) (r : Req) (idx sub off : Nat) (data : List Byte) : WRes :=
  match idx / 0x100 with
  | 0x10 => d.writeIdObj r idx sub off data
  | 0x11 => d.writeHostObj idx sub off data
  | 0x13 => d.writeBusObj idx sub off data
  | 0x20 => d.writePowerObj r idx sub off data
  | 0x21 => d.writePowerObj r idx sub off data
  | 0x22 => d.writePowerObj r idx sub off data
  | 0x30 => d.writeTimeObj idx sub off data
  | 0x31 => d.writeGnssObj t idx sub off data
  | 0x32 => d.writePoseObj idx sub off data
  | 0x40 => d.writeEpObj r idx sub off data
  | 0x41 => d.writeSolObj idx sub off data
  | 0x42 => d.writeLoadObj r idx sub off data
  | 0x43 => d.writeSillObj idx sub off data
  | 0x50 => d.writeHgObj idx sub off data
  | 0x51 => d.writeLvObj idx sub off data
  | 0x60 => d.writeShutterObj r idx sub off data
  | 0x61 => d.writeShutterObj r idx sub off data
  | 0x70 => d.writeRecObj r idx sub off data
  | 0x71 => d.writeRecObj r idx sub off data
  | _ => d.plainWrite 0 idx sub off data

/-! ## The label of a job account (R483, R490) -/

/-- The store offset of the selected account's label: 64 bytes each, its length first. -/
def Dev.labelOff (d : Dev) (r : Req) : Nat := 64 * d.obC (d.stageKey r) Obj.AccountSelect

/-- The label of the selected account. -/
def Dev.labelRead (d : Dev) (r : Req) : List Byte :=
  let o := d.labelOff r
  d.dom Obj.AccountLabel (o + 1) (leNat (d.dom Obj.AccountLabel o 1))

/-- The bytes that a label of this text is held as. -/
def labelBytes (data : List Byte) : List Byte := (leBytes data.length 1 ++ data ++ List.replicate 32 0).take 33

/-- AccountLabel goes to the selected account. -/
def Dev.labelWrite (d : Dev) (r : Req) (data : List Byte) : Dev :=
  let o := d.labelOff r
  if utf8Ok data 0 0 then
    ((d.setDom Obj.AccountLabel o (labelBytes data)).journalWrite d r 0x7100 2 o (labelBytes data)).holdRequest r 2 0x7100 2 0 data
  else d.answer r 2 0x7100 2 0 0x0301 data [] false

/-! ## Requests -/

/-- Objects of the policy image (R367, R411). -/
def fwIndex (idx : Nat) : Bool := decide (0xA000 ≤ idx) && decide (idx < 0xB000)

/-- Whether data is a value of a firmware-defined object's type (R370, R371). -/
def fwTyped (o : FwObj) (data : List Byte) : Bool :=
  match o.ty with
  | .f32 => f32Finite (leNat data)
  | .bf24 => bitsOf (leNat data) 31 30 == 0
  | .str => utf8Ok data 0 0
  | _ => true

/-- A write that goes to DictEngine. -/
def Dev.fwWrite (d : Dev) (r : Req) (idx sub off : Nat) (data : List Byte) : Dev :=
  match d.fwObj idx sub with
  | none => d.answer r 2 idx sub off 0x0102 data [] false
  | some o =>
    if !fwTyped o data then d.answer r 2 idx sub off 0x0301 data [] false
    else if o.ty = .dom ∧ !domRangeOk o.size off data.length then d.answer r 2 idx sub off 0x0301 data [] false
    else d.fwAsk r 2 idx sub off data

/-- A write that has passed the general checks, and that compaction does not delay. -/
def Dev.performWrite (d : Dev) (t : Nat) (r : Req) (idx sub off : Nat) (data : List Byte) : Dev :=
  if fwIndex idx then d.fwWrite r idx sub off data
  else if idx = 0x7100 ∧ sub = 2 then d.labelWrite r data
  else
    let res := d.ownWrite t r idx sub off data
    if res.1 ≠ 0 then res.2.answer r 2 idx sub off res.1 data [] false
    else if hostPortObj idx sub then
      let queued := (res.2.journalWrite d r idx sub off data).dict.journal
      ({ d with dict := { d.dict with journal := queued } } : Dev).holdRequest r 2 idx sub off data
    else if d.journalled idx sub then (res.2.journalWrite d r idx sub off data).holdRequest r 2 idx sub off data
    else (res.2.answer r 2 idx sub off 0 data [] false).resetAct

/-- A write request of any object (R356, R361, R380). -/
def Dev.dictWrite (d : Dev) (t : Nat) (r : Req) (idx sub off : Nat) (data : List Byte) : Dev :=
  if idx = 0x2204 ∧ sub = 1 ∧ off = 0 ∧ data.length = 1 then d.updateCommand r (leNat data)
  else
    d.withRequest r 2 idx sub off data (fun (d : Dev) =>
      let code := d.generalCode r true idx sub off data
      if code ≠ 0 then d.answer r 2 idx sub off code data [] false
      else if d.journalled idx sub && d.dict.compacting then
        let w : Waiting := { req := r, op := 2, idx := idx, sub := sub, off := off, data := data, since := d.now }
        let d : Dev := { d with dict := { d.dict with deferred := d.dict.deferred ++ [w] } }
        d.answerPending r 2 idx sub off data
      else d.performWrite t r idx sub off data)

end Sys2Proof.Machine
end

