-- ==== Sys2Proof/Machine/DictView.lean ====
section
/-! DEFINITION. What a dictionary read gives: the value of the register an object mirrors, the value that the device computes, or the
store (R356, R368, R372, R382 to R386 and the chapters' object tables). -/
namespace Sys2Proof.Machine

/-! ## Identity -/

/-- The active image's slot. -/
def Dev.activeSlot (d : Dev) : Nat := d.ob Obj.ActiveImage - 1

/-- A number of the active image's header; 0 before one has been accepted. -/
def Dev.activeHeader (d : Dev) (off n : Nat) : Nat := if d.ob Obj.ActiveImage = 0 then 0 else d.img d.activeSlot off n

/-- IsoName (R385). -/
def Dev.isoName (d : Dev) : Nat :=
  Config.serialNumber % 0x200000 + d.ob Obj.IsoManufacturerCode * 2 ^ 21 + d.ob Obj.IsoEcuInstance * 2 ^ 32
    + d.ob Obj.IsoFunctionInstance * 2 ^ 35 + d.ob Obj.IsoFunction * 2 ^ 40 + d.ob Obj.IsoDeviceClass * 2 ^ 49
    + d.ob Obj.IsoDeviceClassInstance * 2 ^ 56 + d.ob Obj.IsoIndustryGroup * 2 ^ 60 + 2 ^ 63

/-! ## The dictionary describes itself (R386) -/

def accCode : Acc → Nat
  | .ro => 0
  | .rw => 1
  | .wo => 2
  | .const => 3

/-- Whether an object is staged per session (R376). -/
def objStaged (idx sub : Nat) : Bool :=
  match objRow idx sub with
  | some r => r.staged
  | none => false

/-- DescribeResult of an object. -/
def Dev.describe (d : Dev) (idx sub : Nat) : Nat :=
  match d.objInfo idx sub with
  | none => 0
  | some i =>
    i.ty.code + 256 * accCode i.acc + 1024 * i.level + 4096 * b2n (d.persistent idx sub) + 8192 * b2n (objStaged idx sub)
      + 16384 * b2n i.restricted + 32768

/-- DescribeSize: bytes of the object; for STR and DOM the maximum. -/
def Dev.describeSize (d : Dev) (idx sub : Nat) : Nat :=
  match d.objInfo idx sub with
  | none => 0
  | some i => if i.ty.bytes = 0 then i.size else i.ty.bytes

/-! ## Computed values, chapter by chapter -/

/-- The next firing of a Latch slot, 0 where it is free (R70). -/
def Dev.latchNext (d : Dev) (i : Nat) : Nat :=
  match d.latch.slots.getD i none with
  | some x => x.target
  | none => 0

/-- The instant of the last firing. -/
def Dev.latchLast (d : Dev) : Nat :=
  match d.latch.history with
  | p :: _ => p.2
  | [] => 0

def Dev.timeView (d : Dev) (idx sub : Nat) : Option Nat :=
  if idx = 0x3000 then some d.now
  else if idx = 0x3004 ∧ sub = 1 then some d.wallNat
  else if idx = 0x3005 ∧ sub = 1 then some d.opSeconds
  else if idx = 0x3005 ∧ sub = 2 then some d.porch.powerCycles
  else if idx = 0x3005 ∧ sub = 3 then some d.porch.ticks
  else if idx = 0x3006 ∧ sub = 1 then some d.tmst.master
  else if idx = 0x3008 ∧ sub = 6 then some d.latchLast
  else if idx = 0x3008 ∧ 0x10 ≤ sub then some (d.latchNext (sub - 0x10))
  else none

def Dev.senseView (d : Dev) (idx sub : Nat) : Option Nat :=
  let n := sub - 1
  if idx = 0x3101 then some (d.headState n)
  else if idx = 0x3200 ∧ sub = 3 then some d.poseState
  else if idx = 0x3220 then some (d.fiFrequency n)
  else if idx = 0x3222 then some (d.fiState n)
  else if idx = 0x3230 then some (d.imuState n)
  else none

/-- The endpoint that LookupId names, as its owner, slot and record; for an ID in FREE the default placement of R127, and 0 (R144). -/
def Dev.lookup (d : Dev) (key sub : Nat) : Nat :=
  let id := d.obC key Obj.LookupId
  match d.ownerOf id with
  | none => if sub = 2 then id / 256 else if sub = 3 then id % 256 else 0
  | some (e, s) =>
    match sub with
    | 2 => e
    | 3 => s
    | 4 => d.epEpoch e s
    | _ => d.epState e s + 128 * b2n (d.remapOf id).isSome

/-- The endpoint bound to LookupOutput, 0xFFFF_FFFF for none. -/
def Dev.lookupOutput (d : Dev) : Nat :=
  let o := d.ob Obj.LookupOutput
  match d.boundTo (bitsOf o 31 29) (bitsOf o 17 0) with
  | some id => id
  | none => 0xFFFFFFFF

/-- The version of the selected pane; 0 for one that is absent. -/
def Dev.paneVersionOf (d : Dev) (key : Nat) : Nat :=
  match d.pane (sx 16 (d.obC key Obj.PaneX)) (sx 16 (d.obC key Obj.PaneY)) with
  | some p => p.version
  | none => 0

def Dev.shutterView (d : Dev) (r : Req) (idx sub : Nat) : Option Nat :=
  if idx = 0x4003 ∧ 2 ≤ sub ∧ sub ≤ 5 then some (d.lookup (d.stageKey r) sub)
  else if idx = 0x4003 ∧ sub = 7 then some d.lookupOutput
  else if idx = 0x6000 ∧ sub = 2 then some (d.frame.number % 2 ^ 32)
  else if idx = 0x6003 ∧ sub = 0xA then some (d.paneVersionOf (d.stageKey r))
  else none

/-- BoostState: 0 off, 1 charging, 2 ready, 3 boost fault, 4 capacitor fault (R221). -/
def Dev.boostState (d : Dev) (i : Nat) : Nat :=
  let s := d.rd (Reg.SOL_DIE_STATUS i)
  if fbit s 4 then 4 else if fbit s 3 then 3 else if fbit s 0 then 2 else if fbit s 1 then 1 else 0

/-- LvState: 0 disabled, 1 running, 2 frozen, 3 timed out, 4 forced (R240). Of the states that hold at once a running module shows forced
before frozen, and one that does not run shows nothing of its forced channels (DESIGN CHOICE). -/
def Dev.lvState (d : Dev) (n : Nat) : Nat :=
  let s := d.lvStatus n
  if !d.lvRunning n then (if fbit s 3 then 3 else 0)
  else if fbit s 4 then 4 else if fbit s 2 then 2 else 1

/-- LvSuppressed: pulses omitted since the module's reset. -/
def Dev.lvSuppressed (d : Dev) (n : Nat) : Nat :=
  let x := d.lvRun n d.fine (d.lvMod n)
  x.pair0.supp + x.pair1.supp

/-- SlotState: 0 off, 1 running, 2 invalid, 3 saturated, 4 losing (R263). -/
def Dev.slotState (d : Dev) (g : Nat) : Nat :=
  let s := d.rd (hgReg Reg.HG_SSTATUS g)
  if !fbit s 0 then 0
  else if !fbit s 3 then 2
  else if d.hgGroup g != 0 && !fbit s 7 then 4
  else if fbit s 5 then 3
  else 1

/-- AclState of both dies: PERMIT as both read it, CLOSE and DISCREPANCY as either reads it (R285). -/
def Dev.aclState (d : Dev) : Nat :=
  let a := d.rd (Reg.ACL_STATUS 0)
  let b := d.rd (Reg.ACL_STATUS 1)
  b2n (fbit a 0 && fbit b 0) + 2 * b2n (fbit a 1 && fbit b 1) + 4 * b2n (fbit a 2 || fbit b 2) + 8 * b2n (fbit a 3 || fbit b 3)

def Dev.loadView (d : Dev) (idx sub : Nat) : Option Nat :=
  let n := sub - 1
  if idx = 0x4100 ∧ (sub = 5 ∨ sub = 6) then some (d.boostState (sub - 5))
  else if idx = 0x4126 then some (128 * d.f (Reg.SOL_STATUS n) 30 30 + d.f (Reg.SOL_STATUS n) 27 24)
  else if idx = 0x510D then some (d.lvState n)
  else if idx = 0x510F then some (d.lvSuppressed n)
  else if 0x5010 ≤ idx ∧ idx < 0x5030 ∧ sub = 0x27 then some (d.slotState (idx - 0x5010))
  else if idx = 0x4206 then some (lsRating n)
  else if idx = 0x4215 then some (fld (d.dioStatus n) 23 23 + 2 * fld (d.dioStatus n) 22 20)
  else if idx = 0x4240 ∧ sub = 1 then some d.aclState
  else if idx = 0x4240 ∧ sub = 4 then some (d.closeCauses + 0x8000 * b2n d.closed)
  else if idx = 0x4254 then some (unsx 32 (aiScaled (d.aiMode n) (d.f (Reg.AI_VAL n) 15 0)))
  else none

/-- IbState: 0 off, 1 error active, 2 error passive, 3 bus off (R342). -/
def Dev.ibStateOf (d : Dev) (p : Nat) : Nat :=
  if !d.bit (Reg.IB_CTRL p) 31 then 0 else 1 + min 2 (d.f (Reg.IB_STATUS p) 3 2)

def Dev.busView (d : Dev) (idx sub : Nat) : Option Nat :=
  let p := sub - 1
  if idx = 0x1302 then some (d.ibStateOf p)
  else if idx = 0x130E then some (d.freeObjects p)
  else if idx = 0x1340 ∧ sub = 3 then some d.partnerState
  else if idx = 0x1150 then some d.keyholeState
  else none

def Dev.idView (d : Dev) (key idx sub : Nat) : Option Nat :=
  let di := d.obC key Obj.DescribeIndex
  let ds := d.obC key Obj.DescribeSubindex
  match idx * 256 + sub with
  | 0x100003 => some Config.hardwareIssue
  | 0x100004 => some Config.serialNumber
  | 0x100005 => some Config.manufactureDay
  | 0x100103 => some d.activeSlot
  | 0x100105 => some (d.activeHeader 48 4)
  | 0x100106 => some (d.activeHeader 6 1)
  | 0x100203 => some (b2n d.member)
  | 0x100408 => some d.isoName
  | 0x100503 => some (d.dict.entries * 100 / 8192)
  | 0x100603 => some (d.describe di ds)
  | 0x100604 => some (d.describeSize di ds)
  | _ => none

def Dev.powerView (d : Dev) (r : Req) (idx sub : Nat) : Option Nat :=
  match idx with
  | 0x2000 => if sub = 1 then some (stateCode d.pstate) else none
  | 0x2001 => if 5 ≤ sub then some (d.feedClass (sub - 5)) else none
  | 0x2004 => if sub ≤ 4 then some (unsx 16 (sx 8 (d.f Reg.PWR_TEMP (8 * sub - 1) (8 * sub - 8)))) else none
  | 0x2010 => if sub = 8 then some d.pairCheck else if sub = 0xC then some (d.pair.cleanUs / 1000) else none
  | 0x2110 => some (d.keyState (sub - 1))
  | 0x2120 => if sub = 3 ∨ sub = 4 then some (d.obC (clientOf r) (objKey 0 idx sub)) else none
  | 0x2201 => if sub = 1 then some (if d.pstate = .doorstop then 3 else d.startState) else none
  | 0x2203 => some (d.bootSlot (sub - 1))
  | _ => none

/-- CapacityReached: the power-cycle field, the queues and the accounts by what they hold, the others as noted (R519). -/
def Dev.capacityReached (d : Dev) : Nat :=
  d.ob Obj.CapacityReached ||| (b2n (decide (65535 < d.porch.powerCycles)) + 4 * b2n (d.ob Obj.QueueFullCount != 0)
    + 32 * b2n (decide (4096 ≤ d.accountsInUse)))

def Dev.recView (d : Dev) (idx sub : Nat) : Option Nat :=
  match idx * 256 + sub with
  | 0x700002 => some ((d.area 1).nextSeq * 7 % 2 ^ 32)
  | 0x700003 => some (oldestEvent (d.area 1) % 2 ^ 32)
  | 0x700004 => some d.rcd.staged.length
  | 0x700103 => some (d.rcd.frNext % 2 ^ 32)
  | 0x710206 => some (oldestPeriod (d.area 5).pages (d.rd Reg.MTR_PERIOD).toNat)
  | 0x7F0104 => some d.accountsInUse
  | 0x7F0105 => some (d.ob Obj.LedgerSources)
  | 0x7F0106 => some (65535 - d.porch.powerCycles)
  | 0x7F0107 => some d.capacityReached
  | _ => none

/-- A value that the device computes. -/
def Dev.computed (d : Dev) (r : Req) (idx sub : Nat) : Option Nat :=
  match idx / 0x1000 with
  | 1 => if idx < 0x1100 then d.idView (d.stageKey r) idx sub else d.busView idx sub
  | 2 => d.powerView r idx sub
  | 3 => if idx < 0x3100 then d.timeView idx sub else d.senseView idx sub
  | 4 => if idx < 0x4100 then d.shutterView r idx sub else d.loadView idx sub
  | 5 => d.loadView idx sub
  | 6 => d.shutterView r idx sub
  | 7 => d.recView idx sub
  | _ => none

/-- The value of a mirrored field as a register read shows it. -/
def Dev.fieldView (d : Dev) (row : ObjRow) (m : Mirror) (idx sub : Nat) : Nat :=
  let v := fld (d.regView 0 (m.addr row idx sub)) m.hi m.lo
  if row.ty.signed then unsx (8 * row.ty.bytes) (sx (m.hi + 1 - m.lo) v * m.mul) else v * m.mul

/-- The value of an object of a fixed size. -/
def Dev.valueView (d : Dev) (r : Req) (row : ObjRow) (idx sub : Nat) : Nat :=
  match d.computed r idx sub with
  | some v => v
  | none =>
    match row.mirror with
    | some m => d.fieldView row m idx sub
    | none => d.objVal (d.stageKey r) idx sub

/-! ## STR objects -/

/-- The bytes before the first 0. -/
def untilZero : List Byte → List Byte
  | [] => []
  | b :: bs => if b = 0 then [] else b :: untilZero bs

/-- DeviceName. -/
def deviceName : List Byte := [0x5A, 0x56, 0x37, 0x34, 0x30, 0x30]

def Dev.strView (d : Dev) (r : Req) (idx sub : Nat) : List Byte :=
  let k := objKey 0 idx sub
  if k = Obj.DeviceName then deviceName
  else if k = Obj.PolicyName then (if d.ob Obj.ActiveImage = 0 then [] else untilZero (d.imgBytes d.activeSlot 16 32))
  else if k = Obj.AccountLabel then d.labelRead r
  else d.dom k 0 (d.objVal 0 idx sub)

/-! ## DOM objects -/

/-- `n` bytes from `off` of a run of records of `w` bytes each. -/
def chunks (w off n : Nat) (rec : Nat → List Byte) : List Byte :=
  (((List.range ((off % w + n + w - 1) / w)).flatMap (fun i => rec (off / w + i))).drop (off % w)).take n

/-- A list as exactly `n` bytes. -/
def padTo (n : Nat) (b : List Byte) : List Byte := (b ++ List.replicate n 0).take n

/-- Position `i` of EventLog: the record whose EventSeq is `i` modulo the capacity (R473, R490). -/
def Dev.eventAt (d : Dev) (i : Nat) : List Byte :=
  match (d.area 1).pages.find? (fun p => p.seq % 196608 == i / 7) with
  | some p => if i % 7 < p.count then padTo 32 (p.data.drop (32 * (i % 7))) else List.replicate 32 0
  | none => List.replicate 32 0

/-- Position `i` of the forerunner ring (R474). -/
def Dev.forerunnerAt (d : Dev) (i : Nat) : List Byte :=
  match (d.area 2).pages.find? (fun p => p.pos == i / 14) with
  | some p => if i % 14 < p.count then padTo 16 (p.data.drop (16 * (i % 14))) else List.replicate 16 0
  | none => List.replicate 16 0

/-- Page `i` of the archive; one that is not written reads erased, and one whose program was cut short as R467 says. -/
def Dev.archiveAt (d : Dev) (i : Nat) : List Byte :=
  match (d.area 5).pages.find? (fun p => p.pos == i) with
  | some p => p.toBytes
  | none =>
    match (d.area 5).torn.find? (fun x => x.page.pos == i) with
    | some x => x.bytes d.fresh
    | none => List.replicate 256 0xFF

/-- Entry `i` of the Deadbolt log: the freeze whose number is `i` modulo 64 (R425). -/
def Dev.deadboltAt (d : Dev) (i : Nat) : List Byte :=
  let age := ((d.rd Reg.DB_COUNT).toNat + 127 - i % 64) % 64
  match d.sec.log[age]? with
  | some x => leBytes x.ft 8 ++ leBytes x.master 2 ++ leBytes x.cause 1 ++ leBytes x.flags 1 ++ leBytes x.addr 4 ++ leBytes x.epc 4
      ++ leBytes x.releaseFt 8 ++ List.replicate 4 0
  | none => List.replicate 32 0

/-- The eight windows of an engine (R436). -/
def Dev.windowBytes (d : Dev) (m : Nat) : List Byte :=
  (List.range 8).flatMap (fun w => leBytes (d.rdM m (Reg.WIN_BASE w)).toNat 4 ++ leBytes (d.rdM m (Reg.WIN_LIM w)).toNat 4)

/-- The descriptor of a histogram (R475, R476): the fixed ones read back, with a source code that the spec does not state. -/
def Dev.descriptorAt (d : Dev) (h : Nat) : List Byte :=
  if 64 ≤ h then d.dom Obj.HistogramConfig (16 * h) 16
  else
    let n := if h < 8 then d.f (Reg.SIN_CTRL h) 9 0 else 0
    match fixedHist h n with
    | some (set, lower, width) =>
      leBytes (Config.histSource h).toNat 2 ++ leBytes set 1 ++ leBytes 1 1 ++ leBytes (unsx 32 lower) 4 ++ leBytes (unsx 32 width) 4
        ++ List.replicate 4 0
    | none => List.replicate 16 0

/-- The entries of the selected account (R483). -/
def Dev.accountAt (d : Dev) (sel l : Nat) : List Byte :=
  let key := 4 * sel + l
  match d.mtr.accts.find? (fun p => p.1 == key) with
  | some p => p.2.toBytes key
  | none => leBytes (sel + 4096 * l) 2 ++ List.replicate 30 0

/-- The header of the current period (R483). -/
def Dev.periodState (d : Dev) : List Byte :=
  periodHeader d d.periodEnd 0 (d.mtr.accts.filter (fun p => p.2.used)).length

/-- Bytes of the selected pane; none where it is absent (R155). -/
def Dev.paneView (d : Dev) (key off n : Nat) : Option (List Byte) :=
  match d.pane (sx 16 (d.obC key Obj.PaneX)) (sx 16 (d.obC key Obj.PaneY)) with
  | some p => some ((List.range n).map (fun i => BitVec.ofNat 8 (d.paneByte p (off + i))))
  | none => none

/-- The bytes of a DOM object within its size; none where its state refuses the read. -/
def Dev.domView (d : Dev) (r : Req) (idx sub off n : Nat) : Option (List Byte) :=
  match idx * 256 + sub with
  | 0x400001 => some (d.readRecords off n)
  | 0x400002 => some (d.readRecords off n)
  | 0x600309 => d.paneView (d.stageKey r) off n
  | 0x200301 => some (chunks 4 off n (fun i => leBytes (d.rd (Reg.PWR_DOM i)).toNat 4))
  | 0x210003 => some (chunks 32 off n d.deadboltAt)
  | 0x210101 => some (chunks 64 off n d.windowBytes)
  | 0x700001 => some (chunks 32 off n d.eventAt)
  | 0x700102 => some (chunks 16 off n d.forerunnerAt)
  | 0x700201 => some (chunks 160 off n (fun h => (d.histo h).toBytes h))
  | 0x700202 => some (chunks 16 off n d.descriptorAt)
  | 0x710003 => some (chunks 32 off n (d.accountAt (d.obC (d.stageKey r) Obj.AccountSelect)))
  | 0x710105 => some (chunks 8 off n (fun l => leBytes (d.rd64 (Reg.MTR_UNALLOC_LO l)) 8))
  | 0x710204 => some ((d.periodState.drop off).take n)
  | 0x710205 => some (chunks 256 off n d.archiveAt)
  | _ =>
    if idx = 0x2111 then some (((padTo 32 (sha256 (d.keyBytes (sub - 1)))).drop off).take n)
    else some (d.dom (objKey 0 idx sub) off n)

/-! ## Reads -/

/-- The most data of one PDU (R356). -/
def maxData : Transport → Nat
  | .hc0 => 4096 | .hc1 => 4096 | .he0 => 1024 | .he1 => 1024 | .hg0 => 1024 | .keyhole => 4096 | .firmware => 1024

/-- The owner's answer to a read: code, device, bytes and MORE. -/
abbrev RRes := Nat × Dev × List Byte × Bool

/-- A DOM read of `want` bytes (R372). -/
def Dev.domRead (d : Dev) (r : Req) (size idx sub off want : Nat) : RRes :=
  if size ≤ off then (0x0301, d, [], false)
  else
    let n := min (min want (maxData r.transport)) (size - off)
    match d.domView r idx sub off n with
    | some b => (0, if (d.area 5).torn.isEmpty then d else d.bump, b, decide (off + n < size))
    | none => (0x0401, d, [], false)

/-- An object of the device. -/
def Dev.objRead (d : Dev) (r : Req) (row : ObjRow) (idx sub off : Nat) (data : List Byte) : RRes :=
  match row.ty with
  | .dom =>
    if idx = 0x2120 then
      let x := d.challenge' r
      let n := min (leNat data) 16
      if 16 ≤ off then (0x0301, d, [], false) else (0, x.2, (x.1.drop off).take n, decide (off + n < 16))
    else d.domRead r row.size idx sub off (leNat data)
  | .str => (0, d, d.strView r idx sub, false)
  | ty =>
    let v := d.valueView r row idx sub
    let opened : Bool := match row.mirror with | some m => openReg (m.addr row idx sub) | none => false
    (0, if opened then d.bump else d, leBytes v ty.bytes, false)

/-- The highest subindex of an index, the image's objects among them (R368). -/
def Dev.maxSub (d : Dev) (idx : Nat) : Nat :=
  (d.dict.fwObjs.filter (fun o => o.idx == idx)).foldl (fun a o => max a o.sub) (objMaxSub idx)

/-- A firmware-defined object: read from the image's storage where it is DIRECT_READ, else asked of DictEngine (R412, R413). -/
def Dev.fwRead (d : Dev) (r : Req) (o : FwObj) (off : Nat) (data : List Byte) : Dev :=
  if o.ty = .dom ∧ o.size ≤ off then d.answer r 1 o.idx o.sub off 0x0301 data [] false
  else if bitOf o.flags 1 then
    let all := d.fwDirect o
    if o.ty = .dom then
      let part := (all.drop off).take (min (leNat data) (maxData r.transport))
      d.answer r 1 o.idx o.sub off 0 data part (decide (off + part.length < o.size))
    else d.answer r 1 o.idx o.sub off 0 data all false
  else d.fwAsk r 1 o.idx o.sub off data

/-- A read that has passed the general checks. -/
def Dev.performRead (d : Dev) (r : Req) (idx sub off : Nat) (data : List Byte) : Dev :=
  match objRow idx sub with
  | some row =>
    let res := d.objRead r row idx sub off data
    res.2.1.answer r 1 idx sub off res.1 data res.2.2.1 res.2.2.2
  | none =>
    match d.fwObj idx sub with
    | some o => d.fwRead r o off data
    | none => d.answer r 1 idx sub off 0 data (leBytes (d.maxSub idx) 1) false

/-- A read request (R356, R361). -/
def Dev.dictRead (d : Dev) (r : Req) (idx sub off : Nat) (data : List Byte) : Dev :=
  d.withRequest r 1 idx sub off data (fun (d : Dev) =>
    let code := d.generalCode r false idx sub off data
    if code ≠ 0 then d.answer r 1 idx sub off code data [] false else d.performRead r idx sub off data)

end Sys2Proof.Machine
end

