-- ==== Sys2Proof/Machine/DictAll.lean ====
section
/-! DEFINITION. The dictionary's own commands: requests and their transports, cancels, Status 2, the journal, compaction, and what
expires (R354 to R358, R376, R379 to R383). -/
namespace Sys2Proof.Machine

/-! ## Requests -/

/-- Requests that the server still works on (R356). -/
def Dev.working (d : Dev) : List Waiting :=
  (match d.dict.fw with | some w => if w.op = 3 then [] else [w] | none => [])
    ++ d.dict.fwQueue ++ d.dict.deferred ++ d.dict.held ++ d.dict.crossing
    ++ d.dict.journal.map (fun j =>
      ({ req := j.req, op := 2, idx := j.idx, sub := j.sub, off := j.off, data := j.newBytes, since := d.now } : Waiting))
    ++ (match d.start.upReq with
      | some r => [({ req := r, op := 2, idx := 0x2204, sub := 1, off := 0, data := [], since := d.now } : Waiting)]
      | none => [])

/-- A waiting request is the one that `r` names. -/
def Waiting.named (w : Waiting) (r : Req) : Bool :=
  decide (w.req.transport = r.transport) && w.req.client == r.client && w.req.tid == r.tid

/-- A request that is no read or write, and that the general checks refuse (R361). -/
def Dev.turnAway (d : Dev) (r : Req) (idx sub off code : Nat) : Dev := (d.incOb Obj.DictAborts).sendHere r 1 code idx sub off false []

/-- A cancel (R356, R361, R364): a request that has not begun leaves its queue; one that has completes. -/
def Dev.cancel (d : Dev) (r : Req) (idx sub off : Nat) : Dev :=
  if !d.hostOn then d
  else
    let code := d.askCode r .cancel idx sub off []
    let d := d.touch r
    if code ≠ 0 then d.turnAway r idx sub off code
    else
      let hit : Bool := d.dict.fwQueue.any (fun w => w.named r) || d.dict.deferred.any (fun w => w.named r)
        || d.dict.crossing.any (fun w => w.named r)
      let d : Dev := if hit then
          { d with dict := { d.dict with
            fwQueue := d.dict.fwQueue.filter (fun w => !w.named r)
            deferred := d.dict.deferred.filter (fun w => !w.named r)
            crossing := d.dict.crossing.filter (fun w => !w.named r)
            kept := d.dict.kept.filter (fun k => !(k.client == clientOf r && k.tid == r.tid && k.status == 2)) } }
        else d
      (d.incOb Obj.DictRequests).sendHere r 0 0 idx sub off false []

/-- A request by its Op; another Op is malformed, which the checks before that one may not even see (R361). -/
def Dev.pdu (d : Dev) (t : Nat) (r : Req) (op idx sub off : Nat) (data : List Byte) : Dev :=
  match op with
  | 1 => d.dictRead r idx sub off data
  | 2 => d.dictWrite t r idx sub off data
  | 3 => d.cancel r idx sub off
  | _ => if d.hostOn then (d.touch r).turnAway r idx sub off (d.askCode r .other idx sub off data) else d

/-- A whole request PDU of a client (R356). One without its header, or with more data than the transport takes, is malformed. -/
def Dev.pduBytes (d : Dev) (t : Nat) (tr : Transport) (client : Nat) (b : List Byte) : Dev :=
  let r : Req := { transport := tr, client := client, token := leAt b 8 4, tid := leAt b 2 2 }
  if b.length < 16 ∨ 16 + maxData tr < b.length then
    (if d.hostOn then d.turnAway r (leAt b 4 2) (byteAt b 6) 0 0x0302 else d)
  else d.pdu t r (byteAt b 0) (leAt b 4 2) (byteAt b 6) (leAt b 12 4) (b.drop 16)

/-- A request that waited for a lane is executed. -/
def Dev.crossRequest (d : Dev) (t : Nat) (w : Waiting) : Dev :=
  let d : Dev := { d with dict := { d.dict with
    kept := d.dict.kept.filter (fun k => !(k.client == clientOf w.req && k.tid == w.req.tid && k.status == 2)) } }
  d.pdu t w.req w.op w.idx w.sub w.off w.data

/-- A lane is up: what waited for one crosses, ledger datagrams reach the field half, and the requests are executed in their order
(R345). -/
def Dev.lanesServe (d : Dev) (t : Nat) : Dev :=
  if !d.anyLane then d
  else
    let waiting := d.dict.crossing
    let ledger := d.tr.held.filter (fun m => m.toField && m.kind == 6)
    let d : Dev := { d.crossHeld with dict := { d.dict with crossing := [] } }
    let d := ledger.foldl (fun (d : Dev) m => d.ledArrive m.port m.payload) d
    waiting.foldl (fun (d : Dev) w => d.crossRequest t w) d

/-! ## Host Ethernet ports (R354, R358) -/

/-- A port's own address. -/
def Dev.hostIp (d : Dev) (p : Nat) : Nat := d.objVal 0 0x1120 (p + 1)

/-- A datagram that a port takes: to its own address, to LedgerGroup, or to all of its subnet (broadcast: PRESUMED, as IPv4 has it). -/
def Dev.takesIp (d : Dev) (p dst : Nat) : Bool :=
  let mask := d.objVal 0 0x1121 (p + 1)
  dst == d.hostIp p || dst == d.ob Obj.LedgerGroup || dst == 0xFFFFFFFF || dst == (d.hostIp p &&& mask) + (0xFFFFFFFF - mask)

def ethTransport (p : Nat) : Transport := if p = 0 then .he0 else if p = 1 then .he1 else .hg0

/-- A client on UDP: its address and port (R356). -/
def udpClient (src port : Nat) : Nat := src * 65536 + port

/-- A datagram by its UDP port. A port that is not configured drops it, as HE0 and HE1 drop one to TargetPort, which is HG0's (R163,
R354). -/
def Dev.datagram (d : Dev) (t p src srcPort port : Nat) (b : List Byte) : Dev :=
  if port = d.ob Obj.DictUdpPort then
    (if b.length < 16 then d.addOb Obj.HostNoPort 1 else d.pduBytes t (ethTransport p) (udpClient src srcPort) b)
  else if port = d.ob Obj.PoseInPort then d.poseDatagram b
  else if port = d.ob Obj.LedgerUdpPort then d.ledHost (4 + p) b
  else if port = d.ob Obj.TargetPort ∧ p = 2 then d.targetDatagram b
  else if port = d.ob Obj.AsAppliedPort then d
  else d.addOb Obj.HostNoPort 1

/-- What comes in on a host Ethernet port: datagrams to the port, echo and address requests answered (R354). -/
def Dev.hostIn (d : Dev) (t p : Nat) (x : HostIn) : Dev :=
  if !d.hostOn || decide (3 ≤ p) then d
  else
    match x with
    | .udp src dst srcPort port b => if d.takesIp p dst then d.datagram t p src srcPort port b else d
    | .echo src dst ident seq b => if dst = d.hostIp p then d.emit .eth p 0 (src :: ident :: seq :: natsOf b) else d
    | .arp sender target => if target = d.hostIp p then d.emit .eth p 1 [sender, target] else d

/-! ## Transfers on CAN (R357) -/

def canTransport (port : Nat) : Transport := if port = 0 then .hc0 else .hc1

/-- The transfer of a client on a port. -/
def Dev.xferOf (d : Dev) (port client : Nat) : Option CanXfer :=
  d.dict.xfers.find? (fun x => x.port == port && x.client == client)

def Dev.dropXfer (d : Dev) (port client : Nat) : Dev :=
  { d with dict := { d.dict with xfers := d.dict.xfers.filter (fun x => !(x.port == port && x.client == client)) } }

/-- A transfer ends in an abort. -/
def Dev.abortXfer (d : Dev) (port client code : Nat) (b : List Byte) : Dev :=
  let r : Req := { transport := canTransport port, client := client, token := leAt b 8 4, tid := leAt b 2 2 }
  d.turnAway r (leAt b 4 2) (byteAt b 6) 0 code

/-- The acknowledge of a first frame: BlockSize 0, separation 0. -/
def Dev.ackXfer (d : Dev) (port client : Nat) : Dev := d.emitAll [d.canOut port client [0xC0, 0xD7, 0, 0]]

/-- The PDU so far is whole: it is executed; else the transfer waits for more. -/
def Dev.growXfer (d : Dev) (t : Nat) (x : CanXfer) : Dev :=
  let d := d.dropXfer x.port x.client
  if x.total ≤ x.data.length then d.pduBytes t (canTransport x.port) x.client (x.data.take x.total)
  else { d with dict := { d.dict with xfers := d.dict.xfers ++ [x] } }

/-- A first frame. -/
def Dev.firstFrame (d : Dev) (t port client : Nat) (b : List Byte) : Dev :=
  let total := leAt b 2 4
  let busy := (d.dict.xfers.filter (fun x => x.port == port && x.client != client)).length
  if 4112 < total then d.abortXfer port client 0x0302 (b.drop 6)
  else if 4 ≤ busy then d.abortXfer port client 0x0601 (b.drop 6)
  else
    let x : CanXfer := { port := port, client := client, total := total, data := b.drop 6, nextSeq := 1, lastAt := d.now }
    (d.ackXfer port client).growXfer t x

/-- A consecutive frame: out of sequence it abandons the transfer. -/
def Dev.laterFrame (d : Dev) (t port client seq : Nat) (b : List Byte) : Dev :=
  match d.xferOf port client with
  | none => d
  | some x =>
    if seq ≠ x.nextSeq then (d.dropXfer port client).abortXfer port client 0x0302 x.data
    else d.growXfer t { x with data := x.data ++ b.drop 2, nextSeq := (seq + 1) % 64, lastAt := d.now }

/-- The next `n` consecutive frames of a response, 1 to 63 and then 0 onwards. -/
def Dev.txFrames (d : Dev) (x : CanTx) : Nat → List Out × CanTx
  | 0 => ([], x)
  | n + 1 =>
    let room := d.canRoom x.port - 2
    let o := d.canOut x.port x.client (leBytes (0x80 + x.seq) 1 ++ [0xD7] ++ x.rest.take room)
    let r := d.txFrames { x with rest := x.rest.drop room, seq := (x.seq + 1) % 64 } n
    (o :: r.1, r.2)

/-- An acknowledge: the client's oldest response goes on, BlockSize frames of it or all. -/
def Dev.ackFrame (d : Dev) (port client block : Nat) : Dev :=
  match d.dict.txs.find? (fun x => x.port == port && x.client == client) with
  | none => d
  | some x =>
    let room := d.canRoom port - 2
    let left := (x.rest.length + room - 1) / room
    let y := d.txFrames x (if block = 0 then left else min block left)
    let after : CanTx := { y.2 with lastAt := d.now }
    let txs := d.dict.txs.flatMap (fun z => if z == x then (if after.rest.isEmpty then [] else [after]) else [z])
    ({ d with dict := { d.dict with txs := txs } } : Dev).emitAll y.1

/-- Transfers whose next frame is late are abandoned (R357). -/
def Dev.lateXfers (d : Dev) : Dev :=
  let late (at_ : Nat) : Bool := decide (at_ + d.ob Obj.TransferTimeout * 1000000 < d.now)
  let old := (d.dict.xfers.filter (fun x => late x.lastAt)).map (fun x => (x.port, x.client, leAt x.data 2 2))
    ++ (d.dict.txs.filter (fun x => late x.lastAt)).map (fun x => (x.port, x.client, x.tid))
  let d : Dev := { d with dict := { d.dict with
    xfers := d.dict.xfers.filter (fun x => !late x.lastAt), txs := d.dict.txs.filter (fun x => !late x.lastAt) } }
  old.foldl (fun (d : Dev) x => (d.incOb Obj.TransfersTimedOut).event 4 0x7014 [.h x.1, .w x.2.1, .h x.2.2]) d

/-- A frame of the dictionary transport by its byte 0. -/
def Dev.transferFrame (d : Dev) (t port client : Nat) (b : List Byte) : Dev :=
  if byteAt b 0 = 0x00 then
    (if d.canRoom port = 8 then d
     else
      let n := byteAt b 2
      if n = 0 ∨ 61 < n ∨ b.length < n + 3 then d.abortXfer port client 0x0302 (b.drop 3)
      else d.pduBytes t (canTransport port) client ((b.drop 3).take n))
  else if byteAt b 0 = 0x40 then d.firstFrame t port client b
  else if byteAt b 0 / 64 = 2 then d.laterFrame t port client (byteAt b 0 % 64) b
  else if byteAt b 0 = 0xC0 then d.ackFrame port client (byteAt b 2)
  else d

/-- A frame on HC0 or HC1: one of the dictionary transport to this package, or one for host firmware (R353, R357). -/
def Dev.canFrame (d : Dev) (t port id : Nat) (b : List Byte) : Dev :=
  let d := d.lateXfers
  let client := id % 256
  if !d.hostOn || decide (2 ≤ port) || d.objVal 0 0x1110 (port + 1) == 0 || decide (d.canRoom port < b.length) then d
  else if id ≠ 0x18EF0000 + 256 * d.objVal 0 0x1111 (port + 1) + client ∨ byteAt b 1 ≠ 0xD7 then
    d.emit .hostFw port id (natsOf b)
  else d.transferFrame t port client b

/-! ## Status 2 -/

/-- Whether a waiting request's next Status 2 is due: 50 ms after its last answer or its arrival; 40 ms after DictEngine was asked
(R356, R413). -/
def Dev.pendingDue (d : Dev) (w : Waiting) (k : Kept) : Bool :=
  decide (k.at_ + 50000000 ≤ d.now)
    || (decide (d.dict.fw = some w) && decide (k.at_ ≤ w.since) && decide (w.since + 40000000 ≤ d.now))

/-- Answers one waiting request Status 2 where that is due. -/
def Dev.pendingAnswer (d : Dev) (w : Waiting) : Dev :=
  match d.dict.kept.find? (fun k => k.client == clientOf w.req && k.tid == w.req.tid && k.status == 2) with
  | none => d
  | some k =>
    if d.pendingDue w k then
      (d.keepResponse w.req k.content 2 0 [] false).sendHere w.req 2 0 w.idx w.sub w.off false []
    else d

/-! ## The journal (R379, R380) -/

/-- Entries of a half of 2 MiB, one to a page. -/
def halfPages : Nat := 8192

/-- The value of a committed entry is the stored one. -/
def Dev.journalStore (d : Dev) (j : Journal) : Dev :=
  let key := objKey 0 j.idx j.sub
  { d with
    nv := (key, j.newVal) :: d.nv.filter (fun p => p.1 != key)
    nvDom := SMap.setList (fun _ => (0 : Byte)) d.nvDom (domKey key j.off) j.newBytes }

/-- Later writes of the object of a failed one, over the value `v` or the bytes that it has again: each now follows what is before it. -/
def Dev.journalRedo (d : Dev) (key v : Nat) : List Journal → Dev × List Journal
  | [] => (d, [])
  | j :: rest =>
    if objKey 0 j.idx j.sub ≠ key then
      let x := d.journalRedo key v rest
      (x.1, j :: x.2)
    else
      let old := d.dom key j.off j.newBytes.length
      let x := (d.setDom key j.off j.newBytes).journalRedo key j.newVal rest
      (x.1, { j with oldVal := v, oldBytes := if j.newBytes.isEmpty then [] else old } :: x.2)

/-- The data that gives an object its old value back. -/
def Dev.oldData (d : Dev) (j : Journal) : List Byte :=
  match objRow j.idx j.sub with
  | some o =>
    if o.ty = .dom then j.oldBytes
    else if o.ty = .str then d.dom (objKey 0 j.idx j.sub) 0 j.oldVal
    else leBytes j.oldVal o.ty.bytes
  | none => []

/-- The object keeps its old value (R379): where a later write of it waits, that one's value stays in force over the old one; else the
old value is written back, with what follows from it. A host-port setting had not taken effect; a firmware-defined object gets its old
value as a restore. -/
def Dev.journalUndo (d : Dev) (t : Nat) (j : Journal) : Dev :=
  let key := objKey 0 j.idx j.sub
  let again := d.dict.journal.any (fun x => objKey 0 x.idx x.sub == key)
  if fwIndex j.idx then
    (if again then d else Dev.fwNext { d with dict := { d.dict with restores := d.dict.restores ++ [(j.idx, j.sub, j.oldVal)] } })
  else if again then
    let x := (d.setDom key j.off j.oldBytes).journalRedo key j.oldVal d.dict.journal
    { x.1 with dict := { x.1.dict with journal := x.2 } }
  else if hostPortObj j.idx j.sub then d
  else
    let d := d.setDom key j.off j.oldBytes
    let res := d.ownWrite t j.req j.idx j.sub j.off (d.oldData j)
    if res.1 = 0 then res.2 else d.setObjVal 0 j.idx j.sub j.oldVal

/-- The answer to a journalled write, kept under the content that its request had (R356). -/
def Dev.answerJournal (d : Dev) (j : Journal) (code : Nat) : Dev :=
  let content := match d.dict.kept.find? (fun k => k.client == clientOf j.req && k.tid == j.req.tid) with
    | some k => k.content
    | none => reqContent 2 j.idx j.sub j.off j.req.token j.newBytes
  let d := if code = 0 then d.incOb Obj.DictRequests else d.incOb Obj.DictAborts
  let status := if code = 0 then 0 else 1
  (d.keepResponse j.req content status code [] false).sendResponse j.req status code j.idx j.sub (content.getD 3 j.off) false []

/-- Compaction begins when the active half is 75 % full. -/
def Dev.compactStart (d : Dev) : Dev :=
  if halfPages * 3 ≤ d.dict.entries * 4 then { d with dict := { d.dict with compacting := true } } else d

/-- A host-port setting takes effect after its response (R365). -/
def Dev.hostPortTakes (d : Dev) (j : Journal) : Dev := if hostPortObj j.idx j.sub then d.setObjVal 0 j.idx j.sub j.newVal else d

/-- The oldest entry's page is committed, or its program fails; the request is answered. -/
def Dev.journalCommit (d : Dev) (t : Nat) (ok : Bool) : Dev :=
  match d.dict.journal with
  | [] => d
  | j :: rest =>
    let d : Dev := { d with dict := { d.dict with journal := rest } }
    if ok then
      let d := (d.journalStore j).incOb Obj.ConfigWriteCount
      let d : Dev := { d with dict := { d.dict with entries := d.dict.entries + 1 } }
      (d.compactStart.answerJournal j 0).hostPortTakes j
    else
      let d := ((d.journalUndo t j).incOb Obj.ConfigWriteFailures).event 1 0x7018 [.h j.idx, .h j.sub]
      d.answerJournal j 0x0701

/-- Compaction completes: the other half is active, and the writes that waited are executed in their order. -/
def Dev.compactDone (d : Dev) (t : Nat) : Dev :=
  if !d.dict.compacting then d
  else
    let half := 1 - d.dict.half
    let n := d.nv.length
    let waiting := d.dict.deferred
    let d : Dev := { d with dict := { d.dict with half := half, entries := n, compacting := false, deferred := [] } }
    let d := d.event 1 0x701A [.w n, .h half]
    waiting.foldl (fun (d : Dev) w => d.performWrite t w.req w.idx w.sub w.off w.data) d

/-! ## Meanings -/

def execDictRead (t : Nat) (r : Req) (idx sub off : Nat) (data : List Byte) (s : State) : Host.Outcome State Fault Refusal :=
  s.put ((s.dev.advance t).dictRead r idx sub off data)

/-- A command that waits is a write of the same object, complete in the same fabric cycle, from a lower transport (R388). -/
def lowerWrite (t tr idx sub : Nat) : Instr → Bool
  | .dictWrite t2 r2 idx2 sub2 _ _ => cycleOf t2 == cycleOf t && idx2 == idx && sub2 == sub && decide (transportNum r2.transport < tr)
  | _ => false

/-- The held writes of an object whose turn has come, lowest transport first. -/
def Dev.serveHeld (d : Dev) (t idx sub : Nat) (waiting : List Instr) : Dev :=
  (List.range 7).foldl (fun (d : Dev) tr =>
    if waiting.any (lowerWrite t tr idx sub) then d
    else
      let mine (w : Waiting) : Bool := w.idx == idx && w.sub == sub && transportNum w.req.transport == tr
      let due := d.dict.held.filter mine
      let d : Dev := { d with dict := { d.dict with held := d.dict.held.filter (fun w => !mine w) } }
      due.foldl (fun (d : Dev) w => d.dictWrite t w.req w.idx w.sub w.off w.data) d) d

/-- An acknowledgement at whose tick a channel becomes active is refused (R291). -/
def Dev.ackTooSoon (d : Dev) (waiting : List Instr) (t idx sub : Nat) (data : List Byte) : Bool :=
  leNat data == 1 && ((idx == 0x4235 && d.activeWaits waiting t (sub - 1)) || (idx == 0x4240 && sub == 2 && permitWaits waiting t))

/-- A write request, which lets one of a lower transport that completes in its fabric cycle go first (R388). -/
def Dev.writeHere (d : Dev) (waiting : List Instr) (t : Nat) (r : Req) (idx sub off : Nat) (data : List Byte) : Dev :=
  if d.ackTooSoon waiting t idx sub data then d.dictWriteWith r idx sub off data (fun d => d.no 0x0401)
  else if waiting.any (lowerWrite t (transportNum r.transport) idx sub) then
    let w : Waiting := { req := r, op := 2, idx := idx, sub := sub, off := off, data := data, since := d.now }
    { d with dict := { d.dict with held := d.dict.held ++ [w] } }
  else (d.dictWrite t r idx sub off data).serveHeld t idx sub waiting

def execDictCancel (t : Nat) (r : Req) (idx sub : Nat) (s : State) : Host.Outcome State Fault Refusal :=
  s.put ((s.dev.advance t).cancel r idx sub 0)

def execDictPendingStatus (t : Nat) (s : State) : Host.Outcome State Fault Refusal :=
  let d := s.dev.advance t
  s.put (if d.hostOn then d.working.foldl Dev.pendingAnswer d else d)

def execCanTransferFrame (t port id : Nat) (b : List Byte) (s : State) : Host.Outcome State Fault Refusal :=
  s.put ((s.dev.advance t).canFrame t port id b)

def execLaneRetrain (t lane : Nat) (locked : Bool) (s : State) : Host.Outcome State Fault Refusal :=
  s.put (((s.dev.advance t).retrain lane locked).lanesServe t)

def execCanTransferTimeout (t : Nat) (s : State) : Host.Outcome State Fault Refusal := s.put (s.dev.advance t).lateXfers

def execStagedValueExpire (t : Nat) (s : State) : Host.Outcome State Fault Refusal := s.put (s.dev.advance t).expireStaged

def execConfigJournalCommit (t : Nat) (ok : Bool) (s : State) : Host.Outcome State Fault Refusal :=
  s.put ((s.dev.advance t).journalCommit t ok)

def execConfigCompactionDone (t : Nat) (s : State) : Host.Outcome State Fault Refusal := s.put ((s.dev.advance t).compactDone t)

def execRestoreDefaults (t : Nat) (r : Req) (s : State) : Host.Outcome State Fault Refusal :=
  s.put ((s.dev.advance t).dictVal r 0x1005 2 1 1 (fun (d : Dev) => d.writeRestore r 1))

def execPackageNumberWrite (t : Nat) (r : Req) (v : Nat) (s : State) : Host.Outcome State Fault Refusal :=
  s.put ((s.dev.advance t).dictVal r 0x1002 1 2 v (fun (d : Dev) => d.writeNumber v))

def execUdpDatagramRx (t port : Nat) (x : HostIn) (s : State) : Host.Outcome State Fault Refusal :=
  s.put ((s.dev.advance t).hostIn t port x)

end Sys2Proof.Machine
end

