-- ==== Sys2Proof/Machine/SameCycle.lean ====
section
/-! DEFINITION. Commands of one fabric cycle whose order the tables of coinciding events give, whatever their order in the queue (R20,
R143, R193, R435, R520). -/
namespace Sys2Proof.Machine

/-! ## What comes within the cycle -/

/-- A command's instant and what it does, with no look at these tables; none where it has no field time of its own. -/
def timed (c : Instr) : Option (Nat × (State → Host.Outcome State Fault Refusal)) :=
  match c with
  | .registerWrite t m a w => some (t, execRegisterWrite t m a w)
  | .lowWordRead t m a => some (t, execLowWordRead t m a)
  | .dictRead t r idx sub off data => some (t, execDictRead t r idx sub off data)
  | .dictWrite t r idx sub off data => some (t, fun s => s.put ((s.dev.advance t).writeHere s.pending t r idx sub off data))
  | .dictCancel t r idx sub => some (t, execDictCancel t r idx sub)
  | .dictPendingStatus t => some (t, execDictPendingStatus t)
  | .canTransferFrame t port id bytes => some (t, execCanTransferFrame t port id bytes)
  | .canTransferTimeout t => some (t, execCanTransferTimeout t)
  | .stagedValueExpire t => some (t, execStagedValueExpire t)
  | .gnssSampleSubmit t m num => some (t, execGnssSampleSubmit t m num)
  | .gnssSourceInvalidate t m num => some (t, execGnssSourceInvalidate t m num)
  | .referenceMessageRx t bus sender capture txPrev round cls flags check => some (t, execReferenceMessageRx t bus sender capture txPrev round cls flags check)
  | .roundStart t => some (t, execRoundStart t)
  | .masterLossElection t => some (t, execMasterLossElection t)
  | .candidateChallenge t => some (t, execCandidateChallenge t)
  | .gnssSourceTimeout t => some (t, execGnssSourceTimeout t)
  | .ptpSourceTimeout t => some (t, execPtpSourceTimeout t)
  | .timeMessage t offset delay port cls => some (t, execTimeMessage t offset delay port cls)
  | .ptpMessageRx t port domain t1 t2 t3 t4 priority1 clockClass accuracy variance priority2 identity => some (t, execPtpMessageRx t port domain t1 t2 t3 t4 priority1 clockClass accuracy variance priority2 identity)
  | .ptpSyncSend t => some (t, execPtpSyncSend t)
  | .timeLanePps t => some (t, execTimeLanePps t)
  | .timeLaneWord t err => some (t, execTimeLaneWord t err)
  | .timeLaneTimeout t => some (t, execTimeLaneTimeout t)
  | .porchCalWindow t ppb => some (t, execPorchCalWindow t ppb)
  | .fieldTimeSet t r v => some (t, execFieldTimeSet t r v)
  | .systemEpochWrite t r v => some (t, execSystemEpochWrite t r v)
  | .wallClockWrite t r v => some (t, execWallClockWrite t r v)
  | .gpsUtcLeapWrite t r v => some (t, execGpsUtcLeapWrite t r v)
  | .latchRequest t via v periodic => some (t, execLatchRequest t via v periodic)
  | .latchCancel t via slot => some (t, execLatchCancel t via slot)
  | .latchFire t slot => some (t, fun s => s.put ((s.dev.advance t).latchFire slot))
  | .latchCopiesDone t => some (t, execLatchCopiesDone t)
  | .headStatusFrame t n place syms => some (t, execHeadStatusFrame t n place syms)
  | .headLinkTimeout t n => some (t, execHeadLinkTimeout t n)
  | .headSupplyTrip t n ma => some (t, execHeadSupplyTrip t n ma)
  | .headSupplyRetry t n => some (t, execHeadSupplyRetry t n)
  | .headControlRepeat t => some (t, execHeadControlRepeat t)
  | .integrationEnd t ch sums periods => some (t, execIntegrationEnd t ch sums periods)
  | .intAlign t m ch => some (t, execIntAlign t m ch)
  | .codeMemoryWrite t m w => some (t, execCodeMemoryWrite t m w)
  | .acqRequest t m => some (t, execAcqRequest t m)
  | .acqCaptureDone t samples => some (t, execAcqCaptureDone t samples)
  | .acqSearchDone t res => some (t, execAcqSearchDone t res)
  | .acqCancel t m => some (t, execAcqCancel t m)
  | .fiEdge t n rising => some (t, execFiEdge t n rising)
  | .fiTimeout t n => some (t, execFiTimeout t n)
  | .fiFifoPop t m n => some (t, execFiFifoPop t m n)
  | .imuDrdy t p rising => some (t, execImuDrdy t p rising)
  | .imuPeriodicTrigger t p => some (t, execImuPeriodicTrigger t p)
  | .imuTransferDone t p data => some (t, execImuTransferDone t p data)
  | .imuTimeout t p => some (t, execImuTimeout t p)
  | .poseCommit t m => some (t, execPoseCommit t m)
  | .fieldOriginWrite t r sub v => some (t, execFieldOriginWrite t r sub v)
  | .frameStart t => some (t, fun s => s.put ((s.dev.advance t).frameStart t))
  | .epBind t r => some (t, fun s => s.put ((s.dev.advance t).epCmdReq r 1))
  | .epUnbind t r => some (t, execEpUnbind t r)
  | .epEnable t via => some (t, execEpEnable t via)
  | .epDisable t via => some (t, execEpDisable t via)
  | .epSetAccount t r => some (t, execEpSetAccount t r)
  | .epSetLateWindow t via => some (t, execEpSetLateWindow t via)
  | .epClearFault t r => some (t, execEpClearFault t r)
  | .remapRequest t via => some (t, execRemapRequest t via)
  | .remapWithdraw t via => some (t, execRemapWithdraw t via)
  | .ownLookup t m => some (t, execOwnLookup t m)
  | .rangeVerifyStore t r => some (t, execRangeVerifyStore t r)
  | .rangeReload t r => some (t, execRangeReload t r)
  | .frameLengthWrite t r v => some (t, execFrameLengthWrite t r v)
  | .frmDone t m => some (t, execFrmDone t m)
  | .paneCreate t r => some (t, execPaneCreate t r)
  | .paneDelete t r => some (t, execPaneDelete t r)
  | .paneClearCoverage t r => some (t, execPaneClearCoverage t r)
  | .paneDataWrite t r off data => some (t, execPaneDataWrite t r off data)
  | .paneFetch t m => some (t, execPaneFetch t m)
  | .paneFetchDone t e tag => some (t, execPaneFetchDone t e tag)
  | .targetDatagram t b => some (t, execTargetDatagram t b)
  | .targetListIn t b => some (t, execTargetListIn t b)
  | .targetSourceTimeout t slot => some (t, execTargetSourceTimeout t slot)
  | .targetSourceRelease t slot => some (t, execTargetSourceRelease t slot)
  | .queueAction t m => some (t, execQueueAction t m)
  | .queueWithdraw t m => some (t, fun s => s.put ((s.dev.advance t).shqBy m 2))
  | .queueReplace t m => some (t, execQueueReplace t m)
  | .actionFire t id => some (t, fun s => s.put ((s.dev.advance t).remapSwitches.fire id false))
  | .scheduleUndeliverable t e handle => some (t, execScheduleUndeliverable t e handle)
  | .measurementWindowClose t id => some (t, execMeasurementWindowClose t id)
  | .aaRdWrite t m v => some (t, execAaRdWrite t m v)
  | .ledgerRunSubmit t m => some (t, fun s => s.put ((s.dev.advance t).ledBy m false))
  | .ledgerRecordRx t port sender b => some (t, execLedgerRecordRx t port sender b)
  | .ledgerResendRequest t src => some (t, execLedgerResendRequest t src)
  | .ledgerResendRx t port src first => some (t, execLedgerResendRx t port src first)
  | .ledgerGoneRx t sender src count first => some (t, execLedgerGoneRx t sender src count first)
  | .ledgerResendTimeout t src => some (t, execLedgerResendTimeout t src)
  | .ledgerReplay t r v => some (t, execLedgerReplay t r v)
  | .ledgerReplayDone t => some (t, execLedgerReplayDone t)
  | .solBoostEnd t n raw => some (t, execSolBoostEnd t n raw)
  | .solPeakEnd t n trace => some (t, execSolPeakEnd t n trace)
  | .solKneeReached t n raw => some (t, execSolKneeReached t n raw)
  | .solSlowRecoveryEnd t n trace => some (t, execSolSlowRecoveryEnd t n trace)
  | .solOpenLoadCheck t n raw => some (t, execSolOpenLoadCheck t n raw)
  | .solOvercurrent t n raw => some (t, execSolOvercurrent t n raw)
  | .solDriverOvertemp t n => some (t, execSolDriverOvertemp t n)
  | .solDriverCooled t n => some (t, execSolDriverCooled t n)
  | .solCoilCooldownEnd t n => some (t, execSolCoilCooldownEnd t n)
  | .solOpeningDetect t n trace => some (t, execSolOpeningDetect t n trace)
  | .solClosingDetect t n trace => some (t, execSolClosingDetect t n trace)
  | .solOpenWindowEnd t n => some (t, execSolOpenWindowEnd t n)
  | .solPulseStart t n => some (t, execSolPulseStart t n)
  | .solPulseOff t n => some (t, execSolPulseOff t n)
  | .solThermStale t n => some (t, execSolThermStale t n)
  | .solOffProbe t n found => some (t, execSolOffProbe t n found)
  | .solHoldLow t n trace => some (t, execSolHoldLow t n trace)
  | .solFeedUv t die mV => some (t, execSolFeedUv t die mV)
  | .solFeedRecover t die mV => some (t, execSolFeedRecover t die mV)
  | .solFaultClear t via n => some (t, execSolFaultClear t via n)
  | .solFcntClear t m n => some (t, execSolFcntClear t m n)
  | .solTestPulse t r n v => some (t, execSolTestPulse t r n v)
  | .boostReadyChange t die mV => some (t, execBoostReadyChange t die mV)
  | .boostFault t die mV => some (t, execBoostFault t die mV)
  | .boostRestart t die => some (t, execBoostRestart t die)
  | .boostChargeComplete t die charge => some (t, execBoostChargeComplete t die charge)
  | .boostOvervolt t die mV => some (t, execBoostOvervolt t die mV)
  | .boostOvervoltEnd t die mV => some (t, execBoostOvervoltEnd t die mV)
  | .boostCapClear t via die => some (t, execBoostCapClear t via die)
  | .senseReplicaRead t die tenths => some (t, execSenseReplicaRead t die tenths)
  | .senseOffsetTimeout t die => some (t, execSenseOffsetTimeout t die)
  | .lvPeriodStart t n => some (t, execLvPeriodStart t n)
  | .lvCompare t n j => some (t, execLvCompare t n j)
  | .lvCommit t m n => some (t, execLvCommit t m n)
  | .lvEnable t via n => some (t, execLvEnable t via n)
  | .lvDisable t via n => some (t, execLvDisable t via n)
  | .lvCmdTimeout t n => some (t, execLvCmdTimeout t n)
  | .lvSyncPulse t n => some (t, execLvSyncPulse t n)
  | .lvResync t via die => some (t, execLvResync t via die)
  | .lvChainTimeout t die => some (t, execLvChainTimeout t die)
  | .lvTest t via die v => some (t, execLvTest t via die v)
  | .hingeSample t g => some (t, execHingeSample t g)
  | .hingeCommit t via g => some (t, execHingeCommit t via g)
  | .hingeSlotEnable t via g => some (t, execHingeSlotEnable t via g)
  | .hingeSlotDisable t via g => some (t, execHingeSlotDisable t via g)
  | .hingeDisableAll t via die => some (t, execHingeDisableAll t via die)
  | .lsDirectCommand t via n v => some (t, execLsDirectCommand t via n v)
  | .dioDirectCommand t via n v => some (t, execDioDirectCommand t via n v)
  | .lsCurrentLimit t n limited => some (t, execLsCurrentLimit t n limited)
  | .lsThermalShutdown t n => some (t, execLsThermalShutdown t n)
  | .lsThermalRestore t n => some (t, execLsThermalRestore t n)
  | .lsFaultClear t via n => some (t, execLsFaultClear t via n)
  | .lsFeedUv t die mV => some (t, execLsFeedUv t die mV)
  | .lsFeedRecover t die mV => some (t, execLsFeedRecover t die mV)
  | .lsPwmPeriod t n mV => some (t, execLsPwmPeriod t n mV)
  | .lsDwellEnd t die mA => some (t, execLsDwellEnd t die mA)
  | .lsSenseScan t n mA => some (t, execLsSenseScan t n mA)
  | .lsOpenLoad t n => some (t, execLsOpenLoad t n)
  | .lsLeakage t n => some (t, execLsLeakage t n)
  | .dioInputChange t n r => some (t, execDioInputChange t n r)
  | .dioOutputProtect t n limited hot => some (t, execDioOutputProtect t n limited hot)
  | .dioGroupUv t g mV => some (t, execDioGroupUv t g mV)
  | .dioGroupRecover t g mV => some (t, execDioGroupRecover t g mV)
  | .dioReadbackMismatch t n r => some (t, execDioReadbackMismatch t n r)
  | .wdgKick t m die token => some (t, execWdgKick t m die token)
  | .wdgExpire t die => some (t, execWdgExpire t die)
  | .wdgHoldSet t r die => some (t, execWdgHoldSet t r die)
  | .wdgHoldClear t r die => some (t, execWdgHoldClear t r die)
  | .wdgTimeoutWrite t r die v => some (t, execWdgTimeoutWrite t r die v)
  | .wdgOwnerWrite t r die v => some (t, execWdgOwnerWrite t r die v)
  | .failsafeWrite t r die kind v => some (t, execFailsafeWrite t r die kind v)
  | .safetyInputChange t p a b => some (t, execSafetyInputChange t p a b)
  | .discrepancyLatch t p => some (t, execDiscrepancyLatch t p)
  | .sinAck t r p => some (t, execSinAck t r p)
  | .sinEnable t r p => some (t, execSinEnable t r p)
  | .sinDisable t r p => some (t, execSinDisable t r p)
  | .aclChannelChange t die chan ua => some (t, execAclChannelChange t die chan ua)
  | .aclDiscrepancyLatch t die => some (t, execAclDiscrepancyLatch t die)
  | .aclAck t r => some (t, execAclAck t r)
  | .allCloseRepeat t => some (t, execAllCloseRepeat t)
  | .sillCloseRepeat t => some (t, execSillCloseRepeat t)
  | .aiTriggeredConversion t n => some (t, execAiTriggeredConversion t n)
  | .aiConversionDone t n code => some (t, execAiConversionDone t n code)
  | .aiScanConversion t n => some (t, execAiScanConversion t n)
  | .aiStale t n => some (t, execAiStale t n)
  | .aiOverload t n => some (t, execAiOverload t n)
  | .aiShuntRetry t n => some (t, execAiShuntRetry t n)
  | .sensorSupplyTrip t die mA => some (t, execSensorSupplyTrip t die mA)
  | .sillEnable t via n => some (t, execSillEnable t via n)
  | .sillSymbolLock t n => some (t, execSillSymbolLock t n)
  | .sillIdentityRx t n sym b => some (t, execSillIdentityRx t n sym b)
  | .sillEnumComplete t n rts => some (t, execSillEnumComplete t n rts)
  | .sillTimeFrame t => some (t, execSillTimeFrame t)
  | .sillPoll t n => some (t, execSillPoll t n)
  | .sillStatusRx t n sym b => some (t, execSillStatusRx t n sym b)
  | .sillPollTimeout t n => some (t, execSillPollTimeout t n)
  | .sillLinkLoss t n sym => some (t, execSillLinkLoss t n sym)
  | .sillReenumTimer t n => some (t, execSillReenumTimer t n)
  | .sillReenumerate t via n => some (t, execSillReenumerate t via n)
  | .ibFrameRx t port start std remote ident data => some (t, execIbFrameRx t port start std remote ident data)
  | .nodeWindowsRestore t port node => some (t, execNodeWindowsRestore t port node)
  | .ibSilence t r v => some (t, execIbSilence t r v)
  | .ibSilenceRx t port sender v => some (t, execIbSilenceRx t port sender v)
  | .silenceEnd t => some (t, execSilenceEnd t)
  | .nodeReportRx t port node data => some (t, execNodeReportRx t port node data)
  | .nodeStatusRx t port node data => some (t, execNodeStatusRx t port node data)
  | .nodeTimeout t port node => some (t, execNodeTimeout t port node)
  | .nodeConfigurePeriodic t => some (t, execNodeConfigurePeriodic t)
  | .ibTxQueue t m port => some (t, execIbTxQueue t m port)
  | .ibFrameSend t port => some (t, execIbFrameSend t port)
  | .ibErrorState t port st tec rec => some (t, execIbErrorState t port st tec rec)
  | .transomFrameRx t lane toField b => some (t, execTransomFrameRx t lane toField b)
  | .laneDown t lane => some (t, execLaneDown t lane)
  | .laneRetrain t lane locked => some (t, execLaneRetrain t lane locked)
  | .hostStopWrite t r v => some (t, execHostStopWrite t r v)
  | .hostStopAssert t firmware => some (t, execHostStopAssert t firmware)
  | .hostStopRelease t firmware => some (t, execHostStopRelease t firmware)
  | .stopLaneLost t => some (t, execStopLaneLost t)
  | .stopLaneReturn t => some (t, execStopLaneReturn t)
  | .poseInDatagram t b => some (t, execPoseInDatagram t b)
  | .poseIn t => some (t, execPoseIn t)
  | .asAppliedOut t m => some (t, execAsAppliedOut t m)
  | .udpDatagramRx t port x => some (t, execUdpDatagramRx t port x)
  | .keyholeAttach t => some (t, execKeyholeAttach t)
  | .keyholeDetach t => some (t, execKeyholeDetach t)
  | .configJournalCommit t ok => some (t, execConfigJournalCommit t ok)
  | .configCompactionDone t => some (t, execConfigCompactionDone t)
  | .restoreDefaults t r => some (t, execRestoreDefaults t r)
  | .packageNumberWrite t r v => some (t, execPackageNumberWrite t r v)
  | .addR t e rd rs1 rs2 => some (t, execAddR t e rd rs1 rs2)
  | .subR t e rd rs1 rs2 => some (t, execSubR t e rd rs1 rs2)
  | .andR t e rd rs1 rs2 => some (t, execAndR t e rd rs1 rs2)
  | .orR t e rd rs1 rs2 => some (t, execOrR t e rd rs1 rs2)
  | .xorR t e rd rs1 rs2 => some (t, execXorR t e rd rs1 rs2)
  | .shl t e rd rs1 rs2 => some (t, execShl t e rd rs1 rs2)
  | .shr t e rd rs1 rs2 => some (t, execShr t e rd rs1 rs2)
  | .sar t e rd rs1 rs2 => some (t, execSar t e rd rs1 rs2)
  | .clt t e rd rs1 rs2 => some (t, execClt t e rd rs1 rs2)
  | .cltu t e rd rs1 rs2 => some (t, execCltu t e rd rs1 rs2)
  | .mul t e rd rs1 rs2 => some (t, execMul t e rd rs1 rs2)
  | .mulhi t e rd rs1 rs2 => some (t, execMulhi t e rd rs1 rs2)
  | .mulhiu t e rd rs1 rs2 => some (t, execMulhiu t e rd rs1 rs2)
  | .quo t e rd rs1 rs2 => some (t, execQuo t e rd rs1 rs2)
  | .quou t e rd rs1 rs2 => some (t, execQuou t e rd rs1 rs2)
  | .modR t e rd rs1 rs2 => some (t, execModR t e rd rs1 rs2)
  | .modu t e rd rs1 rs2 => some (t, execModu t e rd rs1 rs2)
  | .min t e rd rs1 rs2 => some (t, execMin t e rd rs1 rs2)
  | .max t e rd rs1 rs2 => some (t, execMax t e rd rs1 rs2)
  | .minu t e rd rs1 rs2 => some (t, execMinu t e rd rs1 rs2)
  | .maxu t e rd rs1 rs2 => some (t, execMaxu t e rd rs1 rs2)
  | .lzc t e rd rs1 => some (t, execLzc t e rd rs1)
  | .bitc t e rd rs1 => some (t, execBitc t e rd rs1)
  | .addk t e rd rs1 imm => some (t, execAddk t e rd rs1 imm)
  | .andk t e rd rs1 imm => some (t, execAndk t e rd rs1 imm)
  | .ork t e rd rs1 imm => some (t, execOrk t e rd rs1 imm)
  | .xork t e rd rs1 imm => some (t, execXork t e rd rs1 imm)
  | .cltk t e rd rs1 imm => some (t, execCltk t e rd rs1 imm)
  | .hik t e rd imm => some (t, execHik t e rd imm)
  | .shk t e rd rs1 imm => some (t, execShk t e rd rs1 imm)
  | .ldw t e rd rs1 imm => some (t, execLdw t e rd rs1 imm)
  | .ldh t e rd rs1 imm => some (t, execLdh t e rd rs1 imm)
  | .ldhu t e rd rs1 imm => some (t, execLdhu t e rd rs1 imm)
  | .ldb t e rd rs1 imm => some (t, execLdb t e rd rs1 imm)
  | .ldbu t e rd rs1 imm => some (t, execLdbu t e rd rs1 imm)
  | .stw t e rd rs1 imm => some (t, execStw t e rd rs1 imm)
  | .sth t e rd rs1 imm => some (t, execSth t e rd rs1 imm)
  | .stb t e rd rs1 imm => some (t, execStb t e rd rs1 imm)
  | .ldd t e rd rs1 imm => some (t, execLdd t e rd rs1 imm)
  | .std t e rd rs1 imm => some (t, execStd t e rd rs1 imm)
  | .breq t e rs1 rs2 off => some (t, execBreq t e rs1 rs2 off)
  | .brne t e rs1 rs2 off => some (t, execBrne t e rs1 rs2 off)
  | .brlt t e rs1 rs2 off => some (t, execBrlt t e rs1 rs2 off)
  | .brge t e rs1 rs2 off => some (t, execBrge t e rs1 rs2 off)
  | .brltu t e rs1 rs2 off => some (t, execBrltu t e rs1 rs2 off)
  | .brgeu t e rs1 rs2 off => some (t, execBrgeu t e rs1 rs2 off)
  | .go t e off => some (t, execGo t e off)
  | .call t e off => some (t, execCall t e off)
  | .gor t e rs1 imm => some (t, execGor t e rs1 imm)
  | .callr t e rd rs1 imm => some (t, execCallr t e rd rs1 imm)
  | .addD t e rd rs1 rs2 => some (t, execAddD t e rd rs1 rs2)
  | .subD t e rd rs1 rs2 => some (t, execSubD t e rd rs1 rs2)
  | .cltuD t e rd rs1 rs2 => some (t, execCltuD t e rd rs1 rs2)
  | .cltD t e rd rs1 rs2 => some (t, execCltD t e rd rs1 rs2)
  | .fadd t e rd rs1 rs2 => some (t, execFadd t e rd rs1 rs2)
  | .fsub t e rd rs1 rs2 => some (t, execFsub t e rd rs1 rs2)
  | .fmul t e rd rs1 rs2 => some (t, execFmul t e rd rs1 rs2)
  | .fdiv t e rd rs1 rs2 => some (t, execFdiv t e rd rs1 rs2)
  | .fsqrt t e rd rs1 => some (t, execFsqrt t e rd rs1)
  | .fmin t e rd rs1 rs2 => some (t, execFmin t e rd rs1 rs2)
  | .fmax t e rd rs1 rs2 => some (t, execFmax t e rd rs1 rs2)
  | .fclt t e rd rs1 rs2 => some (t, execFclt t e rd rs1 rs2)
  | .fceq t e rd rs1 rs2 => some (t, execFceq t e rd rs1 rs2)
  | .ffromi t e rd rs1 => some (t, execFfromi t e rd rs1)
  | .ftoi t e rd rs1 => some (t, execFtoi t e rd rs1)
  | .fsct t e rd rs1 => some (t, execFsct t e rd rs1)
  | .fang t e rd rs1 rs2 => some (t, execFang t e rd rs1 rs2)
  | .atadd t e rd rs1 rs2 => some (t, execAtadd t e rd rs1 rs2)
  | .atswp t e rd rs1 rs2 => some (t, execAtswp t e rd rs1 rs2)
  | .atmin t e rd rs1 rs2 => some (t, execAtmin t e rd rs1 rs2)
  | .atmax t e rd rs1 rs2 => some (t, execAtmax t e rd rs1 rs2)
  | .atcas t e rd rs1 rs2 => some (t, execAtcas t e rd rs1 rs2)
  | .vadd t e vd vs1 vs2 m => some (t, execVadd t e vd vs1 vs2 m)
  | .vsub t e vd vs1 vs2 m => some (t, execVsub t e vd vs1 vs2 m)
  | .vmul t e vd vs1 vs2 m => some (t, execVmul t e vd vs1 vs2 m)
  | .vmulhi t e vd vs1 vs2 m => some (t, execVmulhi t e vd vs1 vs2 m)
  | .vand t e vd vs1 vs2 m => some (t, execVand t e vd vs1 vs2 m)
  | .vor t e vd vs1 vs2 m => some (t, execVor t e vd vs1 vs2 m)
  | .vxor t e vd vs1 vs2 m => some (t, execVxor t e vd vs1 vs2 m)
  | .vshl t e vd vs1 vs2 m => some (t, execVshl t e vd vs1 vs2 m)
  | .vshr t e vd vs1 vs2 m => some (t, execVshr t e vd vs1 vs2 m)
  | .vsar t e vd vs1 vs2 m => some (t, execVsar t e vd vs1 vs2 m)
  | .vmin t e vd vs1 vs2 m => some (t, execVmin t e vd vs1 vs2 m)
  | .vmax t e vd vs1 vs2 m => some (t, execVmax t e vd vs1 vs2 m)
  | .vminu t e vd vs1 vs2 m => some (t, execVminu t e vd vs1 vs2 m)
  | .vmaxu t e vd vs1 vs2 m => some (t, execVmaxu t e vd vs1 vs2 m)
  | .vsel t e vd vs1 vs2 m => some (t, execVsel t e vd vs1 vs2 m)
  | .vfadd t e vd vs1 vs2 m => some (t, execVfadd t e vd vs1 vs2 m)
  | .vfsub t e vd vs1 vs2 m => some (t, execVfsub t e vd vs1 vs2 m)
  | .vfmul t e vd vs1 vs2 m => some (t, execVfmul t e vd vs1 vs2 m)
  | .vfma t e vd vs1 vs2 m => some (t, execVfma t e vd vs1 vs2 m)
  | .vfdiv t e vd vs1 vs2 m => some (t, execVfdiv t e vd vs1 vs2 m)
  | .vfsqrt t e vd vs1 m => some (t, execVfsqrt t e vd vs1 m)
  | .vfmin t e vd vs1 vs2 m => some (t, execVfmin t e vd vs1 vs2 m)
  | .vfmax t e vd vs1 vs2 m => some (t, execVfmax t e vd vs1 vs2 m)
  | .vffromi t e vd vs1 m => some (t, execVffromi t e vd vs1 m)
  | .vftoi t e vd vs1 m => some (t, execVftoi t e vd vs1 m)
  | .vfsct t e vd vs1 m => some (t, execVfsct t e vd vs1 m)
  | .vld t e vd base imm => some (t, execVld t e vd base imm)
  | .vst t e vd base imm => some (t, execVst t e vd base imm)
  | .vlds t e vd base aux imm => some (t, execVlds t e vd base aux imm)
  | .vsts t e vd base aux imm => some (t, execVsts t e vd base aux imm)
  | .vgath t e vd base aux imm => some (t, execVgath t e vd base aux imm)
  | .vceq t e g vs1 vs2 => some (t, execVceq t e g vs1 vs2)
  | .vclt t e g vs1 vs2 => some (t, execVclt t e g vs1 vs2)
  | .vcltu t e g vs1 vs2 => some (t, execVcltu t e g vs1 vs2)
  | .vfclt t e g vs1 vs2 => some (t, execVfclt t e g vs1 vs2)
  | .vfceq t e g vs1 vs2 => some (t, execVfceq t e g vs1 vs2)
  | .vbcast t e vd g => some (t, execVbcast t e vd g)
  | .vins t e vd g lane => some (t, execVins t e vd g lane)
  | .vext t e g vs1 lane => some (t, execVext t e g vs1 lane)
  | .vredadd t e g vs1 => some (t, execVredadd t e g vs1)
  | .vredmin t e g vs1 => some (t, execVredmin t e g vs1)
  | .vredmax t e g vs1 => some (t, execVredmax t e g vs1)
  | .vredminu t e g vs1 => some (t, execVredminu t e g vs1)
  | .vredmaxu t e g vs1 => some (t, execVredmaxu t e g vs1)
  | .qput t e ga gb => some (t, execQput t e ga gb)
  | .qwd t e ga => some (t, execQwd t e ga)
  | .qrep t e ga gb => some (t, execQrep t e ga gb)
  | .latr t e ga gb => some (t, execLatr t e ga gb)
  | .latc t e ga => some (t, execLatc t e ga)
  | .fdone t e => some (t, execFdone t e)
  | .wait t e => some (t, execWait t e)
  | .ien t e => some (t, execIen t e)
  | .idis t e => some (t, execIdis t e)
  | .iret t e => some (t, execIret t e)
  | .sync t e => some (t, execSync t e)
  | .brk t e => some (t, execBrk t e)
  | .interruptEntry t e => some (t, execInterruptEntry t e)
  | .engTimerMatch t e => some (t, execEngTimerMatch t e)
  | .engDoorbell t m mask => some (t, execEngDoorbell t m mask)
  | .dictRespWrite t m w => some (t, execDictRespWrite t m w)
  | .dictReady t m => some (t, execDictReady t m)
  | .firmwareObjectTimeout t => some (t, execFirmwareObjectTimeout t)
  | .deadboltRelease t r v => some (t, execDeadboltRelease t r v)
  | .clusterHalt t r v => some (t, execClusterHalt t r v)
  | .clusterResume t r v => some (t, execClusterResume t r v)
  | .keyProgram t r data => some (t, execKeyProgram t r data)
  | .keyRevoke t r data => some (t, execKeyRevoke t r data)
  | .sessionChallenge t r n => some (t, execSessionChallenge t r n)
  | .sessionResponse t r data => some (t, execSessionResponse t r data)
  | .sessionEnd t r v => some (t, execSessionEnd t r v)
  | .sessionIdleTimeout t token => some (t, execSessionIdleTimeout t token)
  | .sessionLifetimeExpire t token => some (t, execSessionLifetimeExpire t token)
  | .sessionSecretWrite t r level data => some (t, execSessionSecretWrite t r level data)
  | .windowExtraWrite t r sub off data => some (t, execWindowExtraWrite t r sub off data)
  | .feedClassChange t feed mv ma10 => some (t, execFeedClassChange t feed mv ma10)
  | .feedOverload t feed ma10 => some (t, execFeedOverload t feed ma10)
  | .powerFail t mv => some (t, execPowerFail t mv)
  | .holdupDeadline t => some (t, execHoldupDeadline t)
  | .holdupEnd t => some (t, execHoldupEnd t)
  | .powerFailEnd t => some (t, execPowerFailEnd t)
  | .holdupMeasure t cap => some (t, execHoldupMeasure t cap)
  | .clusterPowerRequest t r off data => some (t, fun s => s.put ((s.dev.advance t).clusterRequest r off data))
  | .fabricReady t region => some (t, execFabricReady t region)
  | .clusterPowerUpDone t c => some (t, execClusterPowerUpDone t c)
  | .clusterCodeLoaded t c => some (t, execClusterCodeLoaded t c)
  | .powerRequestParked t r => some (t, execPowerRequestParked t r)
  | .powerRequestStandby t r => some (t, execPowerRequestStandby t r)
  | .powerRequestReady t r => some (t, execPowerRequestReady t r)
  | .powerRequestField t r => some (t, execPowerRequestField t r)
  | .standbyEntered t => some (t, execStandbyEntered t)
  | .dieTempHigh t die temp => some (t, execDieTempHigh t die temp)
  | .dieTempStop t die temp => some (t, execDieTempStop t die temp)
  | .dieTempRecover t die temp => some (t, execDieTempRecover t die temp)
  | .dieSensorTimeout t die => some (t, execDieSensorTimeout t die)
  | .memoryScrub t uncorrectable => some (t, execMemoryScrub t uncorrectable)
  | .pairingFrameRx t port sender stream data => some (t, execPairingFrameRx t port sender stream data)
  | .pairPartnerLost t => some (t, execPairPartnerLost t)
  | .firmwareEvent t m code => some (t, execFirmwareEvent t m code)
  | .eventPageWrite t => some (t, execEventPageWrite t)
  | .norPageProgramDone t => some (t, execNorPageProgramDone t)
  | .norBlockEraseDone t => some (t, execNorBlockEraseDone t)
  | .histogramFeed t m v => some (t, execHistogramFeed t m v)
  | .histogramSnapshot t => some (t, execHistogramSnapshot t)
  | .histogramSafetyWrite t => some (t, execHistogramSafetyWrite t)
  | .recorderScanDone t => some (t, execRecorderScanDone t)
  | .recorderClear t r v => some (t, execRecorderClear t r v)
  | .periodClose t => some (t, execPeriodClose t)
  | .meterCheckpoint t => some (t, execMeterCheckpoint t)
  | .periodEndWrite t r v => some (t, execPeriodEndWrite t r v)
  | .accountsClear t r v => some (t, execAccountsClear t r v)
  | .packageReset t r => some (t, execPackageReset t r)
  | .packageResetClearLatch t r => some (t, execPackageResetClearLatch t r)
  | .resetButton t => some (t, execResetButton t)
  | .startReady t => some (t, execStartReady t)
  | .startInService t k m => some (t, execStartInService t k m)
  | .startFailed t k m => some (t, execStartFailed t k m)
  | .updateBegin t r slot => some (t, execUpdateBegin t r slot)
  | .updateEraseDone t => some (t, execUpdateEraseDone t)
  | .updateData t r off data => some (t, execUpdateData t r off data)
  | .updateVerify t r => some (t, execUpdateVerify t r)
  | .updateAbandon t r => some (t, execUpdateAbandon t r)
  | .dioReadbackChange t n r => some (t, execDioReadbackChange t n r)
  | .lvCarrierEdge t n p => some (t, execLvCarrierEdge t n p)
  | .lvOutputEdge t n k => some (t, execLvOutputEdge t n k)
  | .lvSyncRestart t n => some (t, execLvSyncRestart t n)
  | .lsPulseOff t n => some (t, execLsPulseOff t n)
  | .ibRxObjectRelease t port obj => some (t, execIbRxObjectRelease t port obj)
  | .hostLinkChange t port up => some (t, execHostLinkChange t port up)
  | .deviceAgentViolation t m addr write => some (t, execDeviceAgentViolation t m addr write)
  | .deviceHistogramSample t => some (t, execDeviceHistogramSample t)
  | .temperatureSensorIgnored t die temp => some (t, execTemperatureSensorIgnored t die temp)
  | .nodeLeadCommit t e handle => some (t, execNodeLeadCommit t e handle)
  | _ => none

/-- The devices that the waiting commands of the fabric cycle of `now` leave, run in their order from `d` on. -/
def soonFrom (now : Nat) (d : Dev) : List Instr → List Dev
  | [] => []
  | c :: cs =>
    match timed c with
    | none => soonFrom now d cs
    | some (t, k) =>
      if cycleOf t = cycleOf now then
        match k { dev := d, pending := cs } with
        | .next x => x.dev :: soonFrom now x.dev cs
        | .fault _ => soonFrom now d cs
        | .refused _ => soonFrom now d cs
      else soonFrom now d cs

/-- What the rest of this fabric cycle would make of the device as it is. -/
def State.soon (s : State) (d : Dev) : List Dev := soonFrom d.now d s.pending

/-- An engine is frozen within the cycle (R435). -/
def Dev.freezeAhead (d : Dev) (xs : List Dev) (e : Nat) : Bool := decide (e < engines) && !d.frozen e && xs.any (fun x => x.frozen e)

/-- The close state is entered within the cycle (R193). -/
def Dev.closeAhead (d : Dev) (xs : List Dev) : Bool := !d.closed && xs.any (fun x => x.closed)

/-- An endpoint is disabled within the cycle, through whatever door (R143). -/
def Dev.disableAhead (d : Dev) (xs : List Dev) (id : Nat) : Bool :=
  match d.ownerOf id with
  | none => false
  | some (e, s) => d.epState e s == epEnabled && xs.any (fun x => x.epState e s == epDisabled)

/-- A report within the cycle measures the endpoint's earlier action (R193). -/
def Dev.reportAhead (d : Dev) (xs : List Dev) (id : Nat) : Bool :=
  d.shq.acts.any (fun a => a.id == id &&
    xs.any (fun x => !x.shq.acts.contains a && x.recGet (d.placeOf a).1 (d.placeOf a).2 68 4 != d.recGet (d.placeOf a).1 (d.placeOf a).2 68 4))

/-- Why a remap's target cannot take it within the cycle: 2 frozen, 3 its cluster halted (R143). -/
def Dev.stopAhead (d : Dev) (xs : List Dev) (r : Remap) : Option Nat :=
  if d.freezeAhead xs r.engine then some 2
  else if !d.halted (clusterOf r.engine) && xs.any (fun x => x.halted (clusterOf r.engine)) then some 3
  else none

/-- Remaps whose switch has come and whose target stops within the cycle are abandoned (R143). -/
def Dev.abandonAhead (d : Dev) (xs : List Dev) : Dev :=
  if d.frozen 0x415 then d
  else
    (d.own.remaps.filter (fun r => decide (r.switchAt ≤ d.now))).foldl (fun (x : Dev) r =>
      match d.stopAhead xs r with
      | some cause => x.remapAbandon r cause
      | none => x) d

/-- The remaps that are accepted within the cycle. -/
def Dev.remapsAhead (d : Dev) (xs : List Dev) : List Remap :=
  (xs.flatMap (fun x => x.own.remaps)).filter (fun r => d.own.remaps.all (fun q => q.id != r.id))

/-- `k` on a device that counts the remaps of the rest of the cycle as accepted (R20, R143). -/
def Dev.behindRemaps (d : Dev) (xs : List Dev) (k : Dev → Dev) : Dev :=
  let rs := d.remapsAhead xs
  let x := k { d with own := { d.own with remaps := d.own.remaps ++ rs } }
  { x with own := { x.own with remaps := x.own.remaps.filter (fun r => !rs.contains r) } }

/-! ## Firing (R143, R193, R435) -/

/-- What fires at the earliest due tick of an endpoint is an on or a level whose owner is frozen within the cycle: the freeze discards it
with cause 4 (R421, R435). -/
def Dev.leftToFreeze (d : Dev) (xs : List Dev) (id : Nat) : Bool :=
  let qs := d.tickOf id (earliestFire (d.dueOf id))
  match decides qs with
  | some q => firedAction qs q != 0 && d.freezeAhead xs q.engine
  | none => false

/-- A firing beside what comes within its cycle: a freeze, a disable and the close state come first, and the endpoint's earlier action
still waits for a report of the cycle. -/
def Dev.fireAhead (d : Dev) (xs : List Dev) (id : Nat) : Dev :=
  let closing := d.closeAhead xs
  let d' := if d.disableAhead xs id then (d.setEnabled id false).2 else d
  if d.leftToFreeze xs id then d'
  else if d.reportAhead xs id then
    let x := Dev.fire { d' with shq := { d'.shq with acts := d'.shq.acts.filter (fun a => a.id != id) } } id closing
    { x with shq := { x.shq with acts := d'.shq.acts.filter (fun a => a.id == id) ++ x.shq.acts } }
  else d'.fire id closing

/-- Every firing that is due, in the order of acceptance. -/
def Dev.fireDue (d : Dev) (xs : List Dev) : Dev :=
  (d.shq.queue.filter (fun q => decide (q.fireFt ≤ d.now))).foldl (fun (d : Dev) q => d.fireAhead xs q.id) d

/-! ## Meanings -/

/-- A firing: a switch of its instant comes first (R143). -/
def execActionFire (t id : Nat) (s : State) : Host.Outcome State Fault Refusal :=
  let d := s.dev.advance t
  let xs := s.soon d
  s.put (((d.abandonAhead xs).remapSwitches).fireAhead xs id)

/-- A withdrawal, which a freeze of its own engine in the same fabric cycle forestalls (R435). -/
def execQueueWithdraw (t m : Nat) (s : State) : Host.Outcome State Fault Refusal :=
  let d := s.dev.advance t
  s.put (if d.freezeAhead (s.soon d) m then d else d.shqBy m 2)

/-- A Latch slot: switches and firings of its instant come before its copies (R143, R193). -/
def execLatchFire (t slot : Nat) (s : State) : Host.Outcome State Fault Refusal :=
  let d := s.dev.advance t
  let xs := s.soon d
  s.put (if d.latchDue slot then (((d.abandonAhead xs).remapSwitches).fireDue xs).latchFire slot else d)

/-- A frame start, at which remaps switch (R134). -/
def execFrameStart (t : Nat) (s : State) : Host.Outcome State Fault Refusal :=
  let d := s.dev.advance t
  s.put ((if d.frameDue && d.now == t then d.abandonAhead (s.soon d) else d).frameStart t)

/-- A run whose event a command of the same cycle overwrites in the ring finds it gone (R193). -/
def execLedgerRunSubmit (t m : Nat) (s : State) : Host.Outcome State Fault Refusal :=
  let d := s.dev.advance t
  s.put (d.ledBy m ((s.soon d).any (fun x => (x.aaEvent m (d.rdM m Reg.LED_EVENT).toNat).isNone)))

/-- A bind takes no slot that a remap of its cycle reserves (R143). -/
def execEpBind (t : Nat) (r : Req) (s : State) : Host.Outcome State Fault Refusal :=
  let d := s.dev.advance t
  s.put (d.behindRemaps (s.soon d) (fun d => d.epCmdReq r 1))

/-- A power-down of a cluster into which a remap of its cycle goes is refused (R20). -/
def execClusterPowerRequest (t : Nat) (r : Req) (off : Nat) (data : List Byte) (s : State) : Host.Outcome State Fault Refusal :=
  let d := s.dev.advance t
  s.put (d.behindRemaps (s.soon d) (fun d => d.clusterRequest r off data))

/-- A write request; one that binds, or that asks for cluster power, counts the remaps of its cycle as accepted (R20, R143). -/
def execDictWrite (t : Nat) (r : Req) (idx sub off : Nat) (data : List Byte) (s : State) : Host.Outcome State Fault Refusal :=
  let d := s.dev.advance t
  s.put (if (idx = 0x4001 ∧ sub = 7 ∧ leNat data = 1) ∨ (idx = 0x2003 ∧ sub = 2) then
      d.behindRemaps (s.soon d) (fun d => (d.dictWrite t r idx sub off data).serveHeld t idx sub s.pending)
    else d.writeHere s.pending t r idx sub off data)

end Sys2Proof.Machine
end

