-- ==== Sys2Proof/Machine/Dispatch.lean ====
section
/-! DEFINITION. What each command does: one arm per constructor, each a direct call of its meaning. -/
namespace Sys2Proof.Machine

def exec (i : Instr) (s : State) : Host.Outcome State Fault Refusal :=
  match i with
  | .registerWrite t m a w => Sys2Proof.Machine.execRegisterWrite t m a w s
  | .lowWordRead t m a => Sys2Proof.Machine.execLowWordRead t m a s
  | .dictRead t r idx sub off data => Sys2Proof.Machine.execDictRead t r idx sub off data s
  | .dictWrite t r idx sub off data => Sys2Proof.Machine.execDictWrite t r idx sub off data s
  | .dictCancel t r idx sub => Sys2Proof.Machine.execDictCancel t r idx sub s
  | .dictPendingStatus t => Sys2Proof.Machine.execDictPendingStatus t s
  | .canTransferFrame t port id bytes => Sys2Proof.Machine.execCanTransferFrame t port id bytes s
  | .canTransferTimeout t => Sys2Proof.Machine.execCanTransferTimeout t s
  | .stagedValueExpire t => Sys2Proof.Machine.execStagedValueExpire t s
  | .refOscRequest block => Sys2Proof.Machine.execRefOscRequest block s
  | .refOscStable => Sys2Proof.Machine.execRefOscStable s
  | .pllLock n => Sys2Proof.Machine.execPllLock n s
  | .refOscStop k => Sys2Proof.Machine.execRefOscStop k s
  | .gnssSampleSubmit t m num => Sys2Proof.Machine.execGnssSampleSubmit t m num s
  | .gnssSourceInvalidate t m num => Sys2Proof.Machine.execGnssSourceInvalidate t m num s
  | .referenceMessageRx t bus sender capture txPrev round cls flags check => Sys2Proof.Machine.execReferenceMessageRx t bus sender capture txPrev round cls flags check s
  | .roundStart t => Sys2Proof.Machine.execRoundStart t s
  | .masterLossElection t => Sys2Proof.Machine.execMasterLossElection t s
  | .candidateChallenge t => Sys2Proof.Machine.execCandidateChallenge t s
  | .gnssSourceTimeout t => Sys2Proof.Machine.execGnssSourceTimeout t s
  | .ptpSourceTimeout t => Sys2Proof.Machine.execPtpSourceTimeout t s
  | .timeMessage t offset delay port cls => Sys2Proof.Machine.execTimeMessage t offset delay port cls s
  | .ptpMessageRx t port domain t1 t2 t3 t4 priority1 clockClass accuracy variance priority2 identity => Sys2Proof.Machine.execPtpMessageRx t port domain t1 t2 t3 t4 priority1 clockClass accuracy variance priority2 identity s
  | .ptpSyncSend t => Sys2Proof.Machine.execPtpSyncSend t s
  | .timeLanePps t => Sys2Proof.Machine.execTimeLanePps t s
  | .timeLaneWord t err => Sys2Proof.Machine.execTimeLaneWord t err s
  | .timeLaneTimeout t => Sys2Proof.Machine.execTimeLaneTimeout t s
  | .porchCalWindow t ppb => Sys2Proof.Machine.execPorchCalWindow t ppb s
  | .porchCarryLoad k => Sys2Proof.Machine.execPorchCarryLoad k s
  | .fieldTimeSet t r v => Sys2Proof.Machine.execFieldTimeSet t r v s
  | .systemEpochWrite t r v => Sys2Proof.Machine.execSystemEpochWrite t r v s
  | .wallClockWrite t r v => Sys2Proof.Machine.execWallClockWrite t r v s
  | .gpsUtcLeapWrite t r v => Sys2Proof.Machine.execGpsUtcLeapWrite t r v s
  | .porchMirror k => Sys2Proof.Machine.execPorchMirror k s
  | .porchAlarm k n => Sys2Proof.Machine.execPorchAlarm k n s
  | .latchRequest t via v periodic => Sys2Proof.Machine.execLatchRequest t via v periodic s
  | .latchCancel t via slot => Sys2Proof.Machine.execLatchCancel t via slot s
  | .latchFire t slot => Sys2Proof.Machine.execLatchFire t slot s
  | .latchCopiesDone t => Sys2Proof.Machine.execLatchCopiesDone t s
  | .headStatusFrame t n place syms => Sys2Proof.Machine.execHeadStatusFrame t n place syms s
  | .headLinkTimeout t n => Sys2Proof.Machine.execHeadLinkTimeout t n s
  | .headSupplyTrip t n ma => Sys2Proof.Machine.execHeadSupplyTrip t n ma s
  | .headSupplyRetry t n => Sys2Proof.Machine.execHeadSupplyRetry t n s
  | .headControlRepeat t => Sys2Proof.Machine.execHeadControlRepeat t s
  | .integrationEnd t ch sums periods => Sys2Proof.Machine.execIntegrationEnd t ch sums periods s
  | .intAlign t m ch => Sys2Proof.Machine.execIntAlign t m ch s
  | .codeMemoryWrite t m w => Sys2Proof.Machine.execCodeMemoryWrite t m w s
  | .acqRequest t m => Sys2Proof.Machine.execAcqRequest t m s
  | .acqCaptureDone t samples => Sys2Proof.Machine.execAcqCaptureDone t samples s
  | .acqSearchDone t res => Sys2Proof.Machine.execAcqSearchDone t res s
  | .acqCancel t m => Sys2Proof.Machine.execAcqCancel t m s
  | .burstStart k => Sys2Proof.Machine.execBurstStart k s
  | .burstMeasurement k => Sys2Proof.Machine.execBurstMeasurement k s
  | .fiEdge t n rising => Sys2Proof.Machine.execFiEdge t n rising s
  | .fiTimeout t n => Sys2Proof.Machine.execFiTimeout t n s
  | .fiFifoPop t m n => Sys2Proof.Machine.execFiFifoPop t m n s
  | .imuDrdy t p rising => Sys2Proof.Machine.execImuDrdy t p rising s
  | .imuPeriodicTrigger t p => Sys2Proof.Machine.execImuPeriodicTrigger t p s
  | .imuTransferDone t p data => Sys2Proof.Machine.execImuTransferDone t p data s
  | .imuTimeout t p => Sys2Proof.Machine.execImuTimeout t p s
  | .poseCommit t m => Sys2Proof.Machine.execPoseCommit t m s
  | .fieldOriginWrite t r sub v => Sys2Proof.Machine.execFieldOriginWrite t r sub v s
  | .frameStart t => Sys2Proof.Machine.execFrameStart t s
  | .epBind t r => Sys2Proof.Machine.execEpBind t r s
  | .epUnbind t r => Sys2Proof.Machine.execEpUnbind t r s
  | .epEnable t via => Sys2Proof.Machine.execEpEnable t via s
  | .epDisable t via => Sys2Proof.Machine.execEpDisable t via s
  | .epSetAccount t r => Sys2Proof.Machine.execEpSetAccount t r s
  | .epSetLateWindow t via => Sys2Proof.Machine.execEpSetLateWindow t via s
  | .epClearFault t r => Sys2Proof.Machine.execEpClearFault t r s
  | .remapRequest t via => Sys2Proof.Machine.execRemapRequest t via s
  | .remapWithdraw t via => Sys2Proof.Machine.execRemapWithdraw t via s
  | .ownLookup t m => Sys2Proof.Machine.execOwnLookup t m s
  | .rangeVerifyStore t r => Sys2Proof.Machine.execRangeVerifyStore t r s
  | .rangeReload t r => Sys2Proof.Machine.execRangeReload t r s
  | .frameLengthWrite t r v => Sys2Proof.Machine.execFrameLengthWrite t r v s
  | .frmDone t m => Sys2Proof.Machine.execFrmDone t m s
  | .paneCreate t r => Sys2Proof.Machine.execPaneCreate t r s
  | .paneDelete t r => Sys2Proof.Machine.execPaneDelete t r s
  | .paneClearCoverage t r => Sys2Proof.Machine.execPaneClearCoverage t r s
  | .paneDataWrite t r off data => Sys2Proof.Machine.execPaneDataWrite t r off data s
  | .paneFetch t m => Sys2Proof.Machine.execPaneFetch t m s
  | .paneFetchDone t e tag => Sys2Proof.Machine.execPaneFetchDone t e tag s
  | .targetDatagram t b => Sys2Proof.Machine.execTargetDatagram t b s
  | .targetListIn t b => Sys2Proof.Machine.execTargetListIn t b s
  | .targetSourceTimeout t slot => Sys2Proof.Machine.execTargetSourceTimeout t slot s
  | .targetSourceRelease t slot => Sys2Proof.Machine.execTargetSourceRelease t slot s
  | .queueAction t m => Sys2Proof.Machine.execQueueAction t m s
  | .queueWithdraw t m => Sys2Proof.Machine.execQueueWithdraw t m s
  | .queueReplace t m => Sys2Proof.Machine.execQueueReplace t m s
  | .actionFire t id => Sys2Proof.Machine.execActionFire t id s
  | .scheduleUndeliverable t e handle => Sys2Proof.Machine.execScheduleUndeliverable t e handle s
  | .measurementWindowClose t id => Sys2Proof.Machine.execMeasurementWindowClose t id s
  | .aaRdWrite t m v => Sys2Proof.Machine.execAaRdWrite t m v s
  | .ledgerRunSubmit t m => Sys2Proof.Machine.execLedgerRunSubmit t m s
  | .ledgerRecordRx t port sender b => Sys2Proof.Machine.execLedgerRecordRx t port sender b s
  | .ledgerResendRequest t src => Sys2Proof.Machine.execLedgerResendRequest t src s
  | .ledgerResendRx t port src first => Sys2Proof.Machine.execLedgerResendRx t port src first s
  | .ledgerGoneRx t sender src count first => Sys2Proof.Machine.execLedgerGoneRx t sender src count first s
  | .ledgerResendTimeout t src => Sys2Proof.Machine.execLedgerResendTimeout t src s
  | .ledgerReplay t r v => Sys2Proof.Machine.execLedgerReplay t r v s
  | .ledgerReplayDone t => Sys2Proof.Machine.execLedgerReplayDone t s
  | .solBoostEnd t n raw => Sys2Proof.Machine.execSolBoostEnd t n raw s
  | .solPeakEnd t n trace => Sys2Proof.Machine.execSolPeakEnd t n trace s
  | .solKneeReached t n raw => Sys2Proof.Machine.execSolKneeReached t n raw s
  | .solSlowRecoveryEnd t n trace => Sys2Proof.Machine.execSolSlowRecoveryEnd t n trace s
  | .solOpenLoadCheck t n raw => Sys2Proof.Machine.execSolOpenLoadCheck t n raw s
  | .solOvercurrent t n raw => Sys2Proof.Machine.execSolOvercurrent t n raw s
  | .solDriverOvertemp t n => Sys2Proof.Machine.execSolDriverOvertemp t n s
  | .solDriverCooled t n => Sys2Proof.Machine.execSolDriverCooled t n s
  | .solCoilCooldownEnd t n => Sys2Proof.Machine.execSolCoilCooldownEnd t n s
  | .solOpeningDetect t n trace => Sys2Proof.Machine.execSolOpeningDetect t n trace s
  | .solClosingDetect t n trace => Sys2Proof.Machine.execSolClosingDetect t n trace s
  | .solOpenWindowEnd t n => Sys2Proof.Machine.execSolOpenWindowEnd t n s
  | .solPulseStart t n => Sys2Proof.Machine.execSolPulseStart t n s
  | .solPulseOff t n => Sys2Proof.Machine.execSolPulseOff t n s
  | .solThermStale t n => Sys2Proof.Machine.execSolThermStale t n s
  | .solOffProbe t n found => Sys2Proof.Machine.execSolOffProbe t n found s
  | .solHoldLow t n trace => Sys2Proof.Machine.execSolHoldLow t n trace s
  | .solFeedUv t die mV => Sys2Proof.Machine.execSolFeedUv t die mV s
  | .solFeedRecover t die mV => Sys2Proof.Machine.execSolFeedRecover t die mV s
  | .solFaultClear t via n => Sys2Proof.Machine.execSolFaultClear t via n s
  | .solFcntClear t m n => Sys2Proof.Machine.execSolFcntClear t m n s
  | .solTestPulse t r n v => Sys2Proof.Machine.execSolTestPulse t r n v s
  | .boostReadyChange t die mV => Sys2Proof.Machine.execBoostReadyChange t die mV s
  | .boostFault t die mV => Sys2Proof.Machine.execBoostFault t die mV s
  | .boostRestart t die => Sys2Proof.Machine.execBoostRestart t die s
  | .boostChargeComplete t die charge => Sys2Proof.Machine.execBoostChargeComplete t die charge s
  | .boostOvervolt t die mV => Sys2Proof.Machine.execBoostOvervolt t die mV s
  | .boostOvervoltEnd t die mV => Sys2Proof.Machine.execBoostOvervoltEnd t die mV s
  | .boostCapClear t via die => Sys2Proof.Machine.execBoostCapClear t via die s
  | .senseReplicaRead t die tenths => Sys2Proof.Machine.execSenseReplicaRead t die tenths s
  | .senseOffsetTimeout t die => Sys2Proof.Machine.execSenseOffsetTimeout t die s
  | .lvPeriodStart t n => Sys2Proof.Machine.execLvPeriodStart t n s
  | .lvCompare t n j => Sys2Proof.Machine.execLvCompare t n j s
  | .lvCommit t m n => Sys2Proof.Machine.execLvCommit t m n s
  | .lvEnable t via n => Sys2Proof.Machine.execLvEnable t via n s
  | .lvDisable t via n => Sys2Proof.Machine.execLvDisable t via n s
  | .lvCmdTimeout t n => Sys2Proof.Machine.execLvCmdTimeout t n s
  | .lvSyncPulse t n => Sys2Proof.Machine.execLvSyncPulse t n s
  | .lvResync t via die => Sys2Proof.Machine.execLvResync t via die s
  | .lvChainTimeout t die => Sys2Proof.Machine.execLvChainTimeout t die s
  | .lvTest t via die v => Sys2Proof.Machine.execLvTest t via die v s
  | .hingeSample t g => Sys2Proof.Machine.execHingeSample t g s
  | .hingeCommit t via g => Sys2Proof.Machine.execHingeCommit t via g s
  | .hingeSlotEnable t via g => Sys2Proof.Machine.execHingeSlotEnable t via g s
  | .hingeSlotDisable t via g => Sys2Proof.Machine.execHingeSlotDisable t via g s
  | .hingeDisableAll t via die => Sys2Proof.Machine.execHingeDisableAll t via die s
  | .lsDirectCommand t via n v => Sys2Proof.Machine.execLsDirectCommand t via n v s
  | .dioDirectCommand t via n v => Sys2Proof.Machine.execDioDirectCommand t via n v s
  | .lsCurrentLimit t n limited => Sys2Proof.Machine.execLsCurrentLimit t n limited s
  | .lsThermalShutdown t n => Sys2Proof.Machine.execLsThermalShutdown t n s
  | .lsThermalRestore t n => Sys2Proof.Machine.execLsThermalRestore t n s
  | .lsFaultClear t via n => Sys2Proof.Machine.execLsFaultClear t via n s
  | .lsFeedUv t die mV => Sys2Proof.Machine.execLsFeedUv t die mV s
  | .lsFeedRecover t die mV => Sys2Proof.Machine.execLsFeedRecover t die mV s
  | .lsPwmPeriod t n mV => Sys2Proof.Machine.execLsPwmPeriod t n mV s
  | .lsDwellEnd t die mA => Sys2Proof.Machine.execLsDwellEnd t die mA s
  | .lsSenseScan t n mA => Sys2Proof.Machine.execLsSenseScan t n mA s
  | .lsOpenLoad t n => Sys2Proof.Machine.execLsOpenLoad t n s
  | .lsLeakage t n => Sys2Proof.Machine.execLsLeakage t n s
  | .dioInputChange t n r => Sys2Proof.Machine.execDioInputChange t n r s
  | .dioOutputProtect t n limited hot => Sys2Proof.Machine.execDioOutputProtect t n limited hot s
  | .dioGroupUv t g mV => Sys2Proof.Machine.execDioGroupUv t g mV s
  | .dioGroupRecover t g mV => Sys2Proof.Machine.execDioGroupRecover t g mV s
  | .dioReadbackMismatch t n r => Sys2Proof.Machine.execDioReadbackMismatch t n r s
  | .wdgKick t m die token => Sys2Proof.Machine.execWdgKick t m die token s
  | .wdgExpire t die => Sys2Proof.Machine.execWdgExpire t die s
  | .wdgHoldSet t r die => Sys2Proof.Machine.execWdgHoldSet t r die s
  | .wdgHoldClear t r die => Sys2Proof.Machine.execWdgHoldClear t r die s
  | .wdgTimeoutWrite t r die v => Sys2Proof.Machine.execWdgTimeoutWrite t r die v s
  | .wdgOwnerWrite t r die v => Sys2Proof.Machine.execWdgOwnerWrite t r die v s
  | .failsafeWrite t r die kind v => Sys2Proof.Machine.execFailsafeWrite t r die kind v s
  | .safetyInputChange t p a b => Sys2Proof.Machine.execSafetyInputChange t p a b s
  | .discrepancyLatch t p => Sys2Proof.Machine.execDiscrepancyLatch t p s
  | .sinAck t r p => Sys2Proof.Machine.execSinAck t r p s
  | .sinEnable t r p => Sys2Proof.Machine.execSinEnable t r p s
  | .sinDisable t r p => Sys2Proof.Machine.execSinDisable t r p s
  | .aclChannelChange t die chan ua => Sys2Proof.Machine.execAclChannelChange t die chan ua s
  | .aclDiscrepancyLatch t die => Sys2Proof.Machine.execAclDiscrepancyLatch t die s
  | .aclAck t r => Sys2Proof.Machine.execAclAck t r s
  | .allCloseRepeat t => Sys2Proof.Machine.execAllCloseRepeat t s
  | .sillCloseRepeat t => Sys2Proof.Machine.execSillCloseRepeat t s
  | .aiTriggeredConversion t n => Sys2Proof.Machine.execAiTriggeredConversion t n s
  | .aiConversionDone t n code => Sys2Proof.Machine.execAiConversionDone t n code s
  | .aiScanConversion t n => Sys2Proof.Machine.execAiScanConversion t n s
  | .aiStale t n => Sys2Proof.Machine.execAiStale t n s
  | .aiOverload t n => Sys2Proof.Machine.execAiOverload t n s
  | .aiShuntRetry t n => Sys2Proof.Machine.execAiShuntRetry t n s
  | .sensorSupplyTrip t die mA => Sys2Proof.Machine.execSensorSupplyTrip t die mA s
  | .sillEnable t via n => Sys2Proof.Machine.execSillEnable t via n s
  | .sillSymbolLock t n => Sys2Proof.Machine.execSillSymbolLock t n s
  | .sillIdentityRx t n sym b => Sys2Proof.Machine.execSillIdentityRx t n sym b s
  | .sillEnumComplete t n rts => Sys2Proof.Machine.execSillEnumComplete t n rts s
  | .sillTimeFrame t => Sys2Proof.Machine.execSillTimeFrame t s
  | .sillPoll t n => Sys2Proof.Machine.execSillPoll t n s
  | .sillStatusRx t n sym b => Sys2Proof.Machine.execSillStatusRx t n sym b s
  | .sillPollTimeout t n => Sys2Proof.Machine.execSillPollTimeout t n s
  | .sillLinkLoss t n sym => Sys2Proof.Machine.execSillLinkLoss t n sym s
  | .sillReenumTimer t n => Sys2Proof.Machine.execSillReenumTimer t n s
  | .sillReenumerate t via n => Sys2Proof.Machine.execSillReenumerate t via n s
  | .ibFrameRx t port start std remote ident data => Sys2Proof.Machine.execIbFrameRx t port start std remote ident data s
  | .nodeWindowsRestore t port node => Sys2Proof.Machine.execNodeWindowsRestore t port node s
  | .ibSilence t r v => Sys2Proof.Machine.execIbSilence t r v s
  | .ibSilenceRx t port sender v => Sys2Proof.Machine.execIbSilenceRx t port sender v s
  | .silenceEnd t => Sys2Proof.Machine.execSilenceEnd t s
  | .nodeReportRx t port node data => Sys2Proof.Machine.execNodeReportRx t port node data s
  | .nodeStatusRx t port node data => Sys2Proof.Machine.execNodeStatusRx t port node data s
  | .nodeTimeout t port node => Sys2Proof.Machine.execNodeTimeout t port node s
  | .nodeConfigurePeriodic t => Sys2Proof.Machine.execNodeConfigurePeriodic t s
  | .ibTxQueue t m port => Sys2Proof.Machine.execIbTxQueue t m port s
  | .ibFrameSend t port => Sys2Proof.Machine.execIbFrameSend t port s
  | .ibErrorState t port st tec rec => Sys2Proof.Machine.execIbErrorState t port st tec rec s
  | .rendezvousBeacon k => Sys2Proof.Machine.execRendezvousBeacon k s
  | .rendezvousBeaconRx k port who data => Sys2Proof.Machine.execRendezvousBeaconRx k port who data s
  | .rendezvousPartnerLost k port who => Sys2Proof.Machine.execRendezvousPartnerLost k port who s
  | .rendezvousWakeRetry k port who => Sys2Proof.Machine.execRendezvousWakeRetry k port who s
  | .ibWakePattern k port => Sys2Proof.Machine.execIbWakePattern k port s
  | .transomFrameRx t lane toField b => Sys2Proof.Machine.execTransomFrameRx t lane toField b s
  | .laneDown t lane => Sys2Proof.Machine.execLaneDown t lane s
  | .laneRetrain t lane locked => Sys2Proof.Machine.execLaneRetrain t lane locked s
  | .hostStopWrite t r v => Sys2Proof.Machine.execHostStopWrite t r v s
  | .hostStopAssert t firmware => Sys2Proof.Machine.execHostStopAssert t firmware s
  | .hostStopRelease t firmware => Sys2Proof.Machine.execHostStopRelease t firmware s
  | .stopLaneLost t => Sys2Proof.Machine.execStopLaneLost t s
  | .stopLaneReturn t => Sys2Proof.Machine.execStopLaneReturn t s
  | .poseInDatagram t b => Sys2Proof.Machine.execPoseInDatagram t b s
  | .poseIn t => Sys2Proof.Machine.execPoseIn t s
  | .asAppliedOut t m => Sys2Proof.Machine.execAsAppliedOut t m s
  | .udpDatagramRx t port x => Sys2Proof.Machine.execUdpDatagramRx t port x s
  | .keyholeAttach t => Sys2Proof.Machine.execKeyholeAttach t s
  | .keyholeDetach t => Sys2Proof.Machine.execKeyholeDetach t s
  | .configJournalCommit t ok => Sys2Proof.Machine.execConfigJournalCommit t ok s
  | .configCompactionDone t => Sys2Proof.Machine.execConfigCompactionDone t s
  | .restoreDefaults t r => Sys2Proof.Machine.execRestoreDefaults t r s
  | .packageNumberWrite t r v => Sys2Proof.Machine.execPackageNumberWrite t r v s
  | .addR t e rd rs1 rs2 => Sys2Proof.Machine.execAddR t e rd rs1 rs2 s
  | .subR t e rd rs1 rs2 => Sys2Proof.Machine.execSubR t e rd rs1 rs2 s
  | .andR t e rd rs1 rs2 => Sys2Proof.Machine.execAndR t e rd rs1 rs2 s
  | .orR t e rd rs1 rs2 => Sys2Proof.Machine.execOrR t e rd rs1 rs2 s
  | .xorR t e rd rs1 rs2 => Sys2Proof.Machine.execXorR t e rd rs1 rs2 s
  | .shl t e rd rs1 rs2 => Sys2Proof.Machine.execShl t e rd rs1 rs2 s
  | .shr t e rd rs1 rs2 => Sys2Proof.Machine.execShr t e rd rs1 rs2 s
  | .sar t e rd rs1 rs2 => Sys2Proof.Machine.execSar t e rd rs1 rs2 s
  | .clt t e rd rs1 rs2 => Sys2Proof.Machine.execClt t e rd rs1 rs2 s
  | .cltu t e rd rs1 rs2 => Sys2Proof.Machine.execCltu t e rd rs1 rs2 s
  | .mul t e rd rs1 rs2 => Sys2Proof.Machine.execMul t e rd rs1 rs2 s
  | .mulhi t e rd rs1 rs2 => Sys2Proof.Machine.execMulhi t e rd rs1 rs2 s
  | .mulhiu t e rd rs1 rs2 => Sys2Proof.Machine.execMulhiu t e rd rs1 rs2 s
  | .quo t e rd rs1 rs2 => Sys2Proof.Machine.execQuo t e rd rs1 rs2 s
  | .quou t e rd rs1 rs2 => Sys2Proof.Machine.execQuou t e rd rs1 rs2 s
  | .modR t e rd rs1 rs2 => Sys2Proof.Machine.execModR t e rd rs1 rs2 s
  | .modu t e rd rs1 rs2 => Sys2Proof.Machine.execModu t e rd rs1 rs2 s
  | .min t e rd rs1 rs2 => Sys2Proof.Machine.execMin t e rd rs1 rs2 s
  | .max t e rd rs1 rs2 => Sys2Proof.Machine.execMax t e rd rs1 rs2 s
  | .minu t e rd rs1 rs2 => Sys2Proof.Machine.execMinu t e rd rs1 rs2 s
  | .maxu t e rd rs1 rs2 => Sys2Proof.Machine.execMaxu t e rd rs1 rs2 s
  | .lzc t e rd rs1 => Sys2Proof.Machine.execLzc t e rd rs1 s
  | .bitc t e rd rs1 => Sys2Proof.Machine.execBitc t e rd rs1 s
  | .addk t e rd rs1 imm => Sys2Proof.Machine.execAddk t e rd rs1 imm s
  | .andk t e rd rs1 imm => Sys2Proof.Machine.execAndk t e rd rs1 imm s
  | .ork t e rd rs1 imm => Sys2Proof.Machine.execOrk t e rd rs1 imm s
  | .xork t e rd rs1 imm => Sys2Proof.Machine.execXork t e rd rs1 imm s
  | .cltk t e rd rs1 imm => Sys2Proof.Machine.execCltk t e rd rs1 imm s
  | .hik t e rd imm => Sys2Proof.Machine.execHik t e rd imm s
  | .shk t e rd rs1 imm => Sys2Proof.Machine.execShk t e rd rs1 imm s
  | .ldw t e rd rs1 imm => Sys2Proof.Machine.execLdw t e rd rs1 imm s
  | .ldh t e rd rs1 imm => Sys2Proof.Machine.execLdh t e rd rs1 imm s
  | .ldhu t e rd rs1 imm => Sys2Proof.Machine.execLdhu t e rd rs1 imm s
  | .ldb t e rd rs1 imm => Sys2Proof.Machine.execLdb t e rd rs1 imm s
  | .ldbu t e rd rs1 imm => Sys2Proof.Machine.execLdbu t e rd rs1 imm s
  | .stw t e rd rs1 imm => Sys2Proof.Machine.execStw t e rd rs1 imm s
  | .sth t e rd rs1 imm => Sys2Proof.Machine.execSth t e rd rs1 imm s
  | .stb t e rd rs1 imm => Sys2Proof.Machine.execStb t e rd rs1 imm s
  | .ldd t e rd rs1 imm => Sys2Proof.Machine.execLdd t e rd rs1 imm s
  | .std t e rd rs1 imm => Sys2Proof.Machine.execStd t e rd rs1 imm s
  | .breq t e rs1 rs2 off => Sys2Proof.Machine.execBreq t e rs1 rs2 off s
  | .brne t e rs1 rs2 off => Sys2Proof.Machine.execBrne t e rs1 rs2 off s
  | .brlt t e rs1 rs2 off => Sys2Proof.Machine.execBrlt t e rs1 rs2 off s
  | .brge t e rs1 rs2 off => Sys2Proof.Machine.execBrge t e rs1 rs2 off s
  | .brltu t e rs1 rs2 off => Sys2Proof.Machine.execBrltu t e rs1 rs2 off s
  | .brgeu t e rs1 rs2 off => Sys2Proof.Machine.execBrgeu t e rs1 rs2 off s
  | .go t e off => Sys2Proof.Machine.execGo t e off s
  | .call t e off => Sys2Proof.Machine.execCall t e off s
  | .gor t e rs1 imm => Sys2Proof.Machine.execGor t e rs1 imm s
  | .callr t e rd rs1 imm => Sys2Proof.Machine.execCallr t e rd rs1 imm s
  | .addD t e rd rs1 rs2 => Sys2Proof.Machine.execAddD t e rd rs1 rs2 s
  | .subD t e rd rs1 rs2 => Sys2Proof.Machine.execSubD t e rd rs1 rs2 s
  | .cltuD t e rd rs1 rs2 => Sys2Proof.Machine.execCltuD t e rd rs1 rs2 s
  | .cltD t e rd rs1 rs2 => Sys2Proof.Machine.execCltD t e rd rs1 rs2 s
  | .fadd t e rd rs1 rs2 => Sys2Proof.Machine.execFadd t e rd rs1 rs2 s
  | .fsub t e rd rs1 rs2 => Sys2Proof.Machine.execFsub t e rd rs1 rs2 s
  | .fmul t e rd rs1 rs2 => Sys2Proof.Machine.execFmul t e rd rs1 rs2 s
  | .fdiv t e rd rs1 rs2 => Sys2Proof.Machine.execFdiv t e rd rs1 rs2 s
  | .fsqrt t e rd rs1 => Sys2Proof.Machine.execFsqrt t e rd rs1 s
  | .fmin t e rd rs1 rs2 => Sys2Proof.Machine.execFmin t e rd rs1 rs2 s
  | .fmax t e rd rs1 rs2 => Sys2Proof.Machine.execFmax t e rd rs1 rs2 s
  | .fclt t e rd rs1 rs2 => Sys2Proof.Machine.execFclt t e rd rs1 rs2 s
  | .fceq t e rd rs1 rs2 => Sys2Proof.Machine.execFceq t e rd rs1 rs2 s
  | .ffromi t e rd rs1 => Sys2Proof.Machine.execFfromi t e rd rs1 s
  | .ftoi t e rd rs1 => Sys2Proof.Machine.execFtoi t e rd rs1 s
  | .fsct t e rd rs1 => Sys2Proof.Machine.execFsct t e rd rs1 s
  | .fang t e rd rs1 rs2 => Sys2Proof.Machine.execFang t e rd rs1 rs2 s
  | .atadd t e rd rs1 rs2 => Sys2Proof.Machine.execAtadd t e rd rs1 rs2 s
  | .atswp t e rd rs1 rs2 => Sys2Proof.Machine.execAtswp t e rd rs1 rs2 s
  | .atmin t e rd rs1 rs2 => Sys2Proof.Machine.execAtmin t e rd rs1 rs2 s
  | .atmax t e rd rs1 rs2 => Sys2Proof.Machine.execAtmax t e rd rs1 rs2 s
  | .atcas t e rd rs1 rs2 => Sys2Proof.Machine.execAtcas t e rd rs1 rs2 s
  | .vadd t e vd vs1 vs2 m => Sys2Proof.Machine.execVadd t e vd vs1 vs2 m s
  | .vsub t e vd vs1 vs2 m => Sys2Proof.Machine.execVsub t e vd vs1 vs2 m s
  | .vmul t e vd vs1 vs2 m => Sys2Proof.Machine.execVmul t e vd vs1 vs2 m s
  | .vmulhi t e vd vs1 vs2 m => Sys2Proof.Machine.execVmulhi t e vd vs1 vs2 m s
  | .vand t e vd vs1 vs2 m => Sys2Proof.Machine.execVand t e vd vs1 vs2 m s
  | .vor t e vd vs1 vs2 m => Sys2Proof.Machine.execVor t e vd vs1 vs2 m s
  | .vxor t e vd vs1 vs2 m => Sys2Proof.Machine.execVxor t e vd vs1 vs2 m s
  | .vshl t e vd vs1 vs2 m => Sys2Proof.Machine.execVshl t e vd vs1 vs2 m s
  | .vshr t e vd vs1 vs2 m => Sys2Proof.Machine.execVshr t e vd vs1 vs2 m s
  | .vsar t e vd vs1 vs2 m => Sys2Proof.Machine.execVsar t e vd vs1 vs2 m s
  | .vmin t e vd vs1 vs2 m => Sys2Proof.Machine.execVmin t e vd vs1 vs2 m s
  | .vmax t e vd vs1 vs2 m => Sys2Proof.Machine.execVmax t e vd vs1 vs2 m s
  | .vminu t e vd vs1 vs2 m => Sys2Proof.Machine.execVminu t e vd vs1 vs2 m s
  | .vmaxu t e vd vs1 vs2 m => Sys2Proof.Machine.execVmaxu t e vd vs1 vs2 m s
  | .vsel t e vd vs1 vs2 m => Sys2Proof.Machine.execVsel t e vd vs1 vs2 m s
  | .vfadd t e vd vs1 vs2 m => Sys2Proof.Machine.execVfadd t e vd vs1 vs2 m s
  | .vfsub t e vd vs1 vs2 m => Sys2Proof.Machine.execVfsub t e vd vs1 vs2 m s
  | .vfmul t e vd vs1 vs2 m => Sys2Proof.Machine.execVfmul t e vd vs1 vs2 m s
  | .vfma t e vd vs1 vs2 m => Sys2Proof.Machine.execVfma t e vd vs1 vs2 m s
  | .vfdiv t e vd vs1 vs2 m => Sys2Proof.Machine.execVfdiv t e vd vs1 vs2 m s
  | .vfsqrt t e vd vs1 m => Sys2Proof.Machine.execVfsqrt t e vd vs1 m s
  | .vfmin t e vd vs1 vs2 m => Sys2Proof.Machine.execVfmin t e vd vs1 vs2 m s
  | .vfmax t e vd vs1 vs2 m => Sys2Proof.Machine.execVfmax t e vd vs1 vs2 m s
  | .vffromi t e vd vs1 m => Sys2Proof.Machine.execVffromi t e vd vs1 m s
  | .vftoi t e vd vs1 m => Sys2Proof.Machine.execVftoi t e vd vs1 m s
  | .vfsct t e vd vs1 m => Sys2Proof.Machine.execVfsct t e vd vs1 m s
  | .vld t e vd base imm => Sys2Proof.Machine.execVld t e vd base imm s
  | .vst t e vd base imm => Sys2Proof.Machine.execVst t e vd base imm s
  | .vlds t e vd base aux imm => Sys2Proof.Machine.execVlds t e vd base aux imm s
  | .vsts t e vd base aux imm => Sys2Proof.Machine.execVsts t e vd base aux imm s
  | .vgath t e vd base aux imm => Sys2Proof.Machine.execVgath t e vd base aux imm s
  | .vceq t e g vs1 vs2 => Sys2Proof.Machine.execVceq t e g vs1 vs2 s
  | .vclt t e g vs1 vs2 => Sys2Proof.Machine.execVclt t e g vs1 vs2 s
  | .vcltu t e g vs1 vs2 => Sys2Proof.Machine.execVcltu t e g vs1 vs2 s
  | .vfclt t e g vs1 vs2 => Sys2Proof.Machine.execVfclt t e g vs1 vs2 s
  | .vfceq t e g vs1 vs2 => Sys2Proof.Machine.execVfceq t e g vs1 vs2 s
  | .vbcast t e vd g => Sys2Proof.Machine.execVbcast t e vd g s
  | .vins t e vd g lane => Sys2Proof.Machine.execVins t e vd g lane s
  | .vext t e g vs1 lane => Sys2Proof.Machine.execVext t e g vs1 lane s
  | .vredadd t e g vs1 => Sys2Proof.Machine.execVredadd t e g vs1 s
  | .vredmin t e g vs1 => Sys2Proof.Machine.execVredmin t e g vs1 s
  | .vredmax t e g vs1 => Sys2Proof.Machine.execVredmax t e g vs1 s
  | .vredminu t e g vs1 => Sys2Proof.Machine.execVredminu t e g vs1 s
  | .vredmaxu t e g vs1 => Sys2Proof.Machine.execVredmaxu t e g vs1 s
  | .qput t e ga gb => Sys2Proof.Machine.execQput t e ga gb s
  | .qwd t e ga => Sys2Proof.Machine.execQwd t e ga s
  | .qrep t e ga gb => Sys2Proof.Machine.execQrep t e ga gb s
  | .latr t e ga gb => Sys2Proof.Machine.execLatr t e ga gb s
  | .latc t e ga => Sys2Proof.Machine.execLatc t e ga s
  | .fdone t e => Sys2Proof.Machine.execFdone t e s
  | .wait t e => Sys2Proof.Machine.execWait t e s
  | .ien t e => Sys2Proof.Machine.execIen t e s
  | .idis t e => Sys2Proof.Machine.execIdis t e s
  | .iret t e => Sys2Proof.Machine.execIret t e s
  | .sync t e => Sys2Proof.Machine.execSync t e s
  | .brk t e => Sys2Proof.Machine.execBrk t e s
  | .interruptEntry t e => Sys2Proof.Machine.execInterruptEntry t e s
  | .engTimerMatch t e => Sys2Proof.Machine.execEngTimerMatch t e s
  | .engDoorbell t m mask => Sys2Proof.Machine.execEngDoorbell t m mask s
  | .dictRespWrite t m w => Sys2Proof.Machine.execDictRespWrite t m w s
  | .dictReady t m => Sys2Proof.Machine.execDictReady t m s
  | .firmwareObjectTimeout t => Sys2Proof.Machine.execFirmwareObjectTimeout t s
  | .deadboltRelease t r v => Sys2Proof.Machine.execDeadboltRelease t r v s
  | .clusterHalt t r v => Sys2Proof.Machine.execClusterHalt t r v s
  | .clusterResume t r v => Sys2Proof.Machine.execClusterResume t r v s
  | .keyProgram t r data => Sys2Proof.Machine.execKeyProgram t r data s
  | .keyRevoke t r data => Sys2Proof.Machine.execKeyRevoke t r data s
  | .sessionChallenge t r n => Sys2Proof.Machine.execSessionChallenge t r n s
  | .sessionResponse t r data => Sys2Proof.Machine.execSessionResponse t r data s
  | .sessionEnd t r v => Sys2Proof.Machine.execSessionEnd t r v s
  | .sessionIdleTimeout t token => Sys2Proof.Machine.execSessionIdleTimeout t token s
  | .sessionLifetimeExpire t token => Sys2Proof.Machine.execSessionLifetimeExpire t token s
  | .sessionSecretWrite t r level data => Sys2Proof.Machine.execSessionSecretWrite t r level data s
  | .windowExtraWrite t r sub off data => Sys2Proof.Machine.execWindowExtraWrite t r sub off data s
  | .feedClassChange t feed mv ma10 => Sys2Proof.Machine.execFeedClassChange t feed mv ma10 s
  | .feedOverload t feed ma10 => Sys2Proof.Machine.execFeedOverload t feed ma10 s
  | .powerFail t mv => Sys2Proof.Machine.execPowerFail t mv s
  | .holdupDeadline t => Sys2Proof.Machine.execHoldupDeadline t s
  | .holdupEnd t => Sys2Proof.Machine.execHoldupEnd t s
  | .powerFailEnd t => Sys2Proof.Machine.execPowerFailEnd t s
  | .holdupMeasure t cap => Sys2Proof.Machine.execHoldupMeasure t cap s
  | .clusterPowerRequest t r off data => Sys2Proof.Machine.execClusterPowerRequest t r off data s
  | .fabricReady t region => Sys2Proof.Machine.execFabricReady t region s
  | .clusterPowerUpDone t c => Sys2Proof.Machine.execClusterPowerUpDone t c s
  | .clusterCodeLoaded t c => Sys2Proof.Machine.execClusterCodeLoaded t c s
  | .powerRequestParked t r => Sys2Proof.Machine.execPowerRequestParked t r s
  | .powerRequestStandby t r => Sys2Proof.Machine.execPowerRequestStandby t r s
  | .powerRequestReady t r => Sys2Proof.Machine.execPowerRequestReady t r s
  | .powerRequestField t r => Sys2Proof.Machine.execPowerRequestField t r s
  | .standbyEntered t => Sys2Proof.Machine.execStandbyEntered t s
  | .parkedEntered k => Sys2Proof.Machine.execParkedEntered k s
  | .wakeSource k src => Sys2Proof.Machine.execWakeSource k src s
  | .hostWakeLine k => Sys2Proof.Machine.execHostWakeLine k s
  | .parkedWakeDone k => Sys2Proof.Machine.execParkedWakeDone k s
  | .dieTempHigh t die temp => Sys2Proof.Machine.execDieTempHigh t die temp s
  | .dieTempStop t die temp => Sys2Proof.Machine.execDieTempStop t die temp s
  | .dieTempRecover t die temp => Sys2Proof.Machine.execDieTempRecover t die temp s
  | .dieSensorTimeout t die => Sys2Proof.Machine.execDieSensorTimeout t die s
  | .memoryScrub t uncorrectable => Sys2Proof.Machine.execMemoryScrub t uncorrectable s
  | .pairingFrameRx t port sender stream data => Sys2Proof.Machine.execPairingFrameRx t port sender stream data s
  | .pairPartnerLost t => Sys2Proof.Machine.execPairPartnerLost t s
  | .firmwareEvent t m code => Sys2Proof.Machine.execFirmwareEvent t m code s
  | .eventPageWrite t => Sys2Proof.Machine.execEventPageWrite t s
  | .norPageProgramDone t => Sys2Proof.Machine.execNorPageProgramDone t s
  | .norBlockEraseDone t => Sys2Proof.Machine.execNorBlockEraseDone t s
  | .histogramFeed t m v => Sys2Proof.Machine.execHistogramFeed t m v s
  | .histogramSnapshot t => Sys2Proof.Machine.execHistogramSnapshot t s
  | .histogramSafetyWrite t => Sys2Proof.Machine.execHistogramSafetyWrite t s
  | .recorderScanDone t => Sys2Proof.Machine.execRecorderScanDone t s
  | .recorderClear t r v => Sys2Proof.Machine.execRecorderClear t r v s
  | .periodClose t => Sys2Proof.Machine.execPeriodClose t s
  | .meterCheckpoint t => Sys2Proof.Machine.execMeterCheckpoint t s
  | .periodEndWrite t r v => Sys2Proof.Machine.execPeriodEndWrite t r v s
  | .accountsClear t r v => Sys2Proof.Machine.execAccountsClear t r v s
  | .coldStart k feed mv ma10 => Sys2Proof.Machine.execColdStart k feed mv ma10 s
  | .packageReset t r => Sys2Proof.Machine.execPackageReset t r s
  | .packageResetClearLatch t r => Sys2Proof.Machine.execPackageResetClearLatch t r s
  | .resetButton t => Sys2Proof.Machine.execResetButton t s
  | .startPorchDone k mirror => Sys2Proof.Machine.execStartPorchDone k mirror s
  | .startPowerDieResetDone k => Sys2Proof.Machine.execStartPowerDieResetDone k s
  | .startConfigLoaded k dieOk halfOk => Sys2Proof.Machine.execStartConfigLoaded k dieOk halfOk s
  | .startImageChecked k => Sys2Proof.Machine.execStartImageChecked k s
  | .startEnginesLoaded k => Sys2Proof.Machine.execStartEnginesLoaded k s
  | .startReady t => Sys2Proof.Machine.execStartReady t s
  | .startInService t k m => Sys2Proof.Machine.execStartInService t k m s
  | .startFailed t k m => Sys2Proof.Machine.execStartFailed t k m s
  | .startAttemptTimeout k => Sys2Proof.Machine.execStartAttemptTimeout k s
  | .updateBegin t r slot => Sys2Proof.Machine.execUpdateBegin t r slot s
  | .updateEraseDone t => Sys2Proof.Machine.execUpdateEraseDone t s
  | .updateData t r off data => Sys2Proof.Machine.execUpdateData t r off data s
  | .updateVerify t r => Sys2Proof.Machine.execUpdateVerify t r s
  | .updateAbandon t r => Sys2Proof.Machine.execUpdateAbandon t r s
  | .dioReadbackChange t n r => Sys2Proof.Machine.execDioReadbackChange t n r s
  | .lvCarrierEdge t n p => Sys2Proof.Machine.execLvCarrierEdge t n p s
  | .lvOutputEdge t n k => Sys2Proof.Machine.execLvOutputEdge t n k s
  | .lvSyncRestart t n => Sys2Proof.Machine.execLvSyncRestart t n s
  | .lsPulseOff t n => Sys2Proof.Machine.execLsPulseOff t n s
  | .ibRxObjectRelease t port obj => Sys2Proof.Machine.execIbRxObjectRelease t port obj s
  | .hostLinkChange t port up => Sys2Proof.Machine.execHostLinkChange t port up s
  | .deviceAgentViolation t m addr write => Sys2Proof.Machine.execDeviceAgentViolation t m addr write s
  | .deviceHistogramSample t => Sys2Proof.Machine.execDeviceHistogramSample t s
  | .porchPairRefresh k => Sys2Proof.Machine.execPorchPairRefresh k s
  | .temperatureSensorIgnored t die temp => Sys2Proof.Machine.execTemperatureSensorIgnored t die temp s
  | .nodeLeadCommit t e handle => Sys2Proof.Machine.execNodeLeadCommit t e handle s

end Sys2Proof.Machine
end

