-- ==== Sys2Proof/Machine/Step.lean ====
section
/-! DEFINITION. One step: the command at the front of the queue, or one clock tick where none waits. -/
namespace Sys2Proof.Machine

/-- One tick of the clocks: a fabric cycle of 2.5 ns corrected by FT_RATE (R42, R43), with the part of a porch tick that it lasts (R39),
or, where the fabric clock stands, a porch tick. -/
def Dev.tick (d : Dev) : Dev :=
  if d.fabricOn then
    Dev.tickPart { d with time := { d.time with ft := ((d.time.ft : Int) + 10737418240 + swd (d.rd Reg.FT_RATE)).toNat } }
  else d.advanceTicks (d.porch.ticks + 1)

/-- The command in front is taken and its meaning runs on the rest of the queue; an empty queue lets the clock tick. -/
def step (s : State) : Host.Outcome State Fault Refusal :=
  match s.pending with
  | [] => s.put s.dev.tick
  | c :: rest => exec c { s with pending := rest }

/-- `s` with the command that a table word spells at the front of its queue; unchanged where the word spells none. -/
def State.withFetchWord (s : State) (nbits w : Nat) : State :=
  match decodeTableWord nbits w with
  | some c => { s with pending := c :: s.pending }
  | none => s

end Sys2Proof.Machine
end

