-- ==== Sys2Proof/Laws/Bits.lean ====
section
/-! SUPPORT. What bit fields do: a field read after it is written, and fields apart from it. -/
namespace Sys2Proof.Laws
open Sys2Proof.Machine

theorem wd_toNat (n : Nat) : (wd n).toNat = n % 2 ^ 32 := by simp [wd]

theorem wd_of_toNat (w : Word) : wd w.toNat = w := by simp [wd]

/-- A number without one of its fields: what lies above it and what lies below it. -/
theorem sub_bits (n lo w : Nat) :
    n - bitsOf n (lo + w - 1) lo * 2 ^ lo = n / 2 ^ (lo + w) * 2 ^ (lo + w) + n % 2 ^ lo ∨ w = 0 := by
  rcases Nat.eq_zero_or_pos w with h | h
  · exact .inr h
  · left
    have e : lo + w - 1 + 1 - lo = w := by omega
    unfold bitsOf
    rw [e]
    have h1 := Nat.div_add_mod n (2 ^ lo)
    have h2 := Nat.div_add_mod (n / 2 ^ lo) (2 ^ w)
    rw [Nat.div_div_eq_div_mul, ← pow_add] at h2
    have h3 : n = n / 2 ^ (lo + w) * 2 ^ (lo + w) + n / 2 ^ lo % 2 ^ w * 2 ^ lo + n % 2 ^ lo := by
      have : 2 ^ lo * (n / 2 ^ lo) = n / 2 ^ (lo + w) * 2 ^ (lo + w) + n / 2 ^ lo % 2 ^ w * 2 ^ lo := by
        conv_lhs => rw [← h2]
        rw [pow_add]
        ring
      omega
    omega

theorem putBits_eq (n lo w v : Nat) (h : 0 < w) :
    putBits n (lo + w - 1) lo v = n / 2 ^ (lo + w) * 2 ^ (lo + w) + v % 2 ^ w * 2 ^ lo + n % 2 ^ lo := by
  unfold putBits
  have e : lo + w - 1 + 1 - lo = w := by omega
  rw [e]
  rcases sub_bits n lo w with hs | hs
  · omega
  · omega

/-- What a field reads after it is written. -/
theorem bits_put_same (n lo w v : Nat) (h : 0 < w) : bitsOf (putBits n (lo + w - 1) lo v) (lo + w - 1) lo = v % 2 ^ w := by
  rw [putBits_eq n lo w v h]
  unfold bitsOf
  have e : lo + w - 1 + 1 - lo = w := by omega
  rw [e]
  have hb : n % 2 ^ lo < 2 ^ lo := Nat.mod_lt _ (by positivity)
  have : (n / 2 ^ (lo + w) * 2 ^ (lo + w) + v % 2 ^ w * 2 ^ lo + n % 2 ^ lo)
      = 2 ^ lo * (n / 2 ^ (lo + w) * 2 ^ w + v % 2 ^ w) + n % 2 ^ lo := by rw [pow_add]; ring
  rw [this, Nat.mul_add_div (by positivity), Nat.div_eq_of_lt hb, Nat.add_zero]
  rw [Nat.mul_comm, Nat.mul_add_mod, Nat.mod_mod]

/-- A field below one that is written keeps its value. -/
theorem bits_put_below (n lo w v hi2 lo2 : Nat) (h : 0 < w) (hlt : hi2 < lo) (hle : lo2 ≤ hi2) :
    bitsOf (putBits n (lo + w - 1) lo v) hi2 lo2 = bitsOf n hi2 lo2 := by
  rw [putBits_eq n lo w v h]
  unfold bitsOf
  have key : ∀ x, (x / 2 ^ lo2) % 2 ^ (hi2 + 1 - lo2) = x % 2 ^ lo / 2 ^ lo2 % 2 ^ (hi2 + 1 - lo2) := by
    intro x
    have e2 : lo = (hi2 + 1 - lo2) + lo2 + (lo - (hi2 + 1)) := by omega
    conv_rhs => rw [e2, pow_add, pow_add]
    rw [← Nat.mod_mul_right_div_self, ← Nat.mod_mul_right_div_self, Nat.mul_comm (2 ^ lo2)]
    rw [Nat.mod_mul_right_mod]
  rw [key, key n]
  congr 2
  rw [pow_add]
  have : n / (2 ^ lo * 2 ^ w) * (2 ^ lo * 2 ^ w) + v % 2 ^ w * 2 ^ lo + n % 2 ^ lo
      = 2 ^ lo * (n / (2 ^ lo * 2 ^ w) * 2 ^ w + v % 2 ^ w) + n % 2 ^ lo := by ring
  rw [this, Nat.mul_add_mod, Nat.mod_mod]

/-- A field above one that is written keeps its value. -/
theorem bits_put_above (n lo w v hi2 lo2 : Nat) (h : 0 < w) (hle : lo + w ≤ lo2) :
    bitsOf (putBits n (lo + w - 1) lo v) hi2 lo2 = bitsOf n hi2 lo2 := by
  rw [putBits_eq n lo w v h]
  unfold bitsOf
  congr 1
  have hb : v % 2 ^ w * 2 ^ lo + n % 2 ^ lo < 2 ^ (lo + w) := by
    have h1 : v % 2 ^ w < 2 ^ w := Nat.mod_lt _ (by positivity)
    have h2 : n % 2 ^ lo < 2 ^ lo := Nat.mod_lt _ (by positivity)
    have h3 : (v % 2 ^ w + 1) * 2 ^ lo ≤ 2 ^ w * 2 ^ lo := Nat.mul_le_mul_right _ h1
    rw [pow_add]
    nlinarith
  have e : lo2 = (lo + w) + (lo2 - (lo + w)) := by omega
  rw [e, pow_add 2 (lo + w), ← Nat.div_div_eq_div_mul, ← Nat.div_div_eq_div_mul, Nat.add_assoc, Nat.mul_comm,
    Nat.mul_add_div (by positivity), Nat.div_eq_of_lt hb, Nat.add_zero]

/-- The bound of a number with a field written. -/
theorem put_lt (n lo w v : Nat) (h : 0 < w) (hw : lo + w ≤ 32) (hn : n < 2 ^ 32) : putBits n (lo + w - 1) lo v < 2 ^ 32 := by
  rw [putBits_eq n lo w v h]
  have h1 : v % 2 ^ w < 2 ^ w := Nat.mod_lt _ (by positivity)
  have h2 : n % 2 ^ lo < 2 ^ lo := Nat.mod_lt _ (by positivity)
  have h3 : (v % 2 ^ w + 1) * 2 ^ lo ≤ 2 ^ w * 2 ^ lo := Nat.mul_le_mul_right _ h1
  have h4 : n / 2 ^ (lo + w) < 2 ^ (32 - (lo + w)) := by
    apply Nat.div_lt_of_lt_mul
    rw [← pow_add]
    have : lo + w + (32 - (lo + w)) = 32 := by omega
    rw [this]
    exact hn
  have h5 : (n / 2 ^ (lo + w) + 1) * 2 ^ (lo + w) ≤ 2 ^ (32 - (lo + w)) * 2 ^ (lo + w) := Nat.mul_le_mul_right _ h4
  have h6 : 2 ^ (32 - (lo + w)) * 2 ^ (lo + w) = 2 ^ 32 := by
    rw [← pow_add]
    congr 1
    omega
  have h7 : 2 ^ (lo + w) = 2 ^ w * 2 ^ lo := by rw [pow_add, Nat.mul_comm]
  nlinarith

theorem putFld_toNat (x : Word) (hi lo v : Nat) (h : lo ≤ hi) (h32 : hi < 32) :
    (putFld x hi lo v).toNat = putBits x.toNat hi lo v := by
  obtain ⟨w, hw, e⟩ : ∃ w, 0 < w ∧ hi = lo + w - 1 := ⟨hi + 1 - lo, by omega, by omega⟩
  subst e
  unfold putFld
  rw [wd_toNat, Nat.mod_eq_of_lt (put_lt _ _ _ _ hw (by omega) x.isLt)]

/-- A field of a word reads what was written into it. -/
theorem fld_put_same (x : Word) (hi lo v : Nat) (h : lo ≤ hi) (h32 : hi < 32) :
    fld (putFld x hi lo v) hi lo = v % 2 ^ (hi + 1 - lo) := by
  unfold fld
  rw [putFld_toNat x hi lo v h h32]
  obtain ⟨w, hw, e⟩ : ∃ w, 0 < w ∧ hi = lo + w - 1 := ⟨hi + 1 - lo, by omega, by omega⟩
  subst e
  rw [bits_put_same _ _ _ _ hw]
  congr 2
  omega

/-- Fields that do not meet keep their values. -/
theorem fld_put_apart (x : Word) (hi lo v hi2 lo2 : Nat) (h : lo ≤ hi) (h32 : hi < 32) (h2 : lo2 ≤ hi2)
    (ha : hi2 < lo ∨ hi < lo2) : fld (putFld x hi lo v) hi2 lo2 = fld x hi2 lo2 := by
  unfold fld
  rw [putFld_toNat x hi lo v h h32]
  obtain ⟨w, hw, e⟩ : ∃ w, 0 < w ∧ hi = lo + w - 1 := ⟨hi + 1 - lo, by omega, by omega⟩
  subst e
  rcases ha with ha | ha
  · exact bits_put_below _ _ _ _ _ _ hw ha h2
  · exact bits_put_above _ _ _ _ _ _ hw (by omega)

theorem fbit_eq_fld (x : Word) (i : Nat) : fbit x i = (fld x i i == 1) := by
  unfold fbit fld bitOf bitsOf
  simp

/-- A bit reads what was written into it. -/
theorem fbit_put_same (x : Word) (i : Nat) (b : Bool) (h : i < 32) : fbit (putBit x i b) i = b := by
  rw [fbit_eq_fld, putBit, fld_put_same _ _ _ _ (Nat.le_refl i) h]
  cases b <;> simp

/-- Another bit keeps its value. -/
theorem fbit_put_ne (x : Word) (i j : Nat) (b : Bool) (h : i < 32) (hj : j ≠ i) : fbit (putBit x i b) j = fbit x j := by
  rw [fbit_eq_fld, fbit_eq_fld, putBit, fld_put_apart _ _ _ _ _ _ (Nat.le_refl i) h (Nat.le_refl j) (by omega)]

/-- A bit outside a field that is written keeps its value. -/
theorem fbit_putFld_apart (x : Word) (hi lo v j : Nat) (h : lo ≤ hi) (h32 : hi < 32) (hj : j < lo ∨ hi < j) :
    fbit (putFld x hi lo v) j = fbit x j := by
  rw [fbit_eq_fld, fbit_eq_fld, fld_put_apart _ _ _ _ _ _ h h32 (Nat.le_refl j) (by omega)]

end Sys2Proof.Laws
end

