-- ==== Sys2Proof/Laws/Map.lean ====
section
/-! SUPPORT. What the map operations do: a read after a write, and that every write keeps the canonical form. -/
namespace Sys2Proof.Laws
open Sys2Proof.Machine

theorem get_ins_same {α : Type} (f : Nat → α) (m : SMap α) (k : Nat) (v : α) :
    SMap.get f (SMap.ins m k v) k = v := by
  induction m with
  | nil => simp [SMap.ins, SMap.get]
  | cons p m ih =>
    obtain ⟨a, w⟩ := p
    simp only [SMap.ins]
    split
    · simp [SMap.get]
    · split
      · simp [SMap.get]
      · rename_i _ h
        simp [SMap.get, h, ih]

theorem get_ins_ne {α : Type} (f : Nat → α) (m : SMap α) (k j : Nat) (v : α) (h : j ≠ k) :
    SMap.get f (SMap.ins m k v) j = SMap.get f m j := by
  induction m with
  | nil => simp [SMap.ins, SMap.get, h]
  | cons p m ih =>
    obtain ⟨a, w⟩ := p
    simp only [SMap.ins]
    split
    · simp [SMap.get, h]
    · split
      · rename_i _ hk
        subst hk
        simp [SMap.get, h]
      · simp [SMap.get, ih]

theorem get_del_same {α : Type} (f : Nat → α) (m : SMap α) (k : Nat) :
    SMap.get f (SMap.del m k) k = f k := by
  induction m with
  | nil => rfl
  | cons p m ih =>
    obtain ⟨a, w⟩ := p
    simp only [SMap.del]
    split
    · exact ih
    · rename_i h
      simp [SMap.get, h, ih]

theorem get_del_ne {α : Type} (f : Nat → α) (m : SMap α) (k j : Nat) (h : j ≠ k) :
    SMap.get f (SMap.del m k) j = SMap.get f m j := by
  induction m with
  | nil => rfl
  | cons p m ih =>
    obtain ⟨a, w⟩ := p
    simp only [SMap.del]
    split
    · rename_i hk
      subst hk
      simp [SMap.get, h, ih]
    · simp [SMap.get, ih]

/-- A read after a write to the same key gives the value written. -/
@[simp] theorem get_set_same {α : Type} [DecidableEq α] (f : Nat → α) (m : SMap α) (k : Nat) (v : α) :
    SMap.get f (SMap.set f m k v) k = v := by
  unfold SMap.set
  split
  · rename_i h
    rw [get_del_same, h]
  · exact get_ins_same f m k v

/-- A write leaves every other key alone. -/
theorem get_set_ne {α : Type} [DecidableEq α] (f : Nat → α) (m : SMap α) (k j : Nat) (v : α) (h : j ≠ k) :
    SMap.get f (SMap.set f m k v) j = SMap.get f m j := by
  unfold SMap.set
  split
  · exact get_del_ne f m k j h
  · exact get_ins_ne f m k j v h

theorem mem_del {α : Type} (m : SMap α) (k : Nat) (p : Nat × α) (h : p ∈ SMap.del m k) : p ∈ m := by
  induction m with
  | nil => simp [SMap.del] at h
  | cons q m ih =>
    obtain ⟨a, w⟩ := q
    simp only [SMap.del] at h
    split at h
    · exact List.mem_cons_of_mem _ (ih h)
    · rcases List.mem_cons.mp h with h | h
      · simp [h]
      · exact List.mem_cons_of_mem _ (ih h)

theorem mem_ins {α : Type} (m : SMap α) (k : Nat) (v : α) (p : Nat × α) (h : p ∈ SMap.ins m k v) :
    p = (k, v) ∨ p ∈ m := by
  induction m with
  | nil => simpa [SMap.ins] using h
  | cons q m ih =>
    obtain ⟨a, w⟩ := q
    simp only [SMap.ins] at h
    split at h
    · simpa using h
    · split at h
      · rcases List.mem_cons.mp h with h | h
        · exact .inl h
        · exact .inr (List.mem_cons_of_mem _ h)
      · rcases List.mem_cons.mp h with h | h
        · exact .inr (by simp [h])
        · rcases ih h with h | h
          · exact .inl h
          · exact .inr (List.mem_cons_of_mem _ h)

theorem del_sorted {α : Type} (m : SMap α) (k : Nat) (h : m.Pairwise (fun a b => a.1 < b.1)) :
    (SMap.del m k).Pairwise (fun a b => a.1 < b.1) := by
  induction m with
  | nil => exact h
  | cons q m ih =>
    obtain ⟨a, w⟩ := q
    rw [List.pairwise_cons] at h
    simp only [SMap.del]
    split
    · exact ih h.2
    · exact List.pairwise_cons.mpr ⟨fun p hp => h.1 p (mem_del m k p hp), ih h.2⟩

theorem ins_sorted {α : Type} (m : SMap α) (k : Nat) (v : α) (h : m.Pairwise (fun a b => a.1 < b.1)) :
    (SMap.ins m k v).Pairwise (fun a b => a.1 < b.1) := by
  induction m with
  | nil => simp [SMap.ins]
  | cons q m ih =>
    obtain ⟨a, w⟩ := q
    have hh := List.pairwise_cons.mp h
    simp only [SMap.ins]
    split
    · rename_i hk
      refine List.pairwise_cons.mpr ⟨fun p hp => ?_, h⟩
      rcases List.mem_cons.mp hp with hp | hp
      · simpa [hp] using hk
      · exact Nat.lt_trans hk (hh.1 p hp)
    · split
      · rename_i _ hk
        subst hk
        exact List.pairwise_cons.mpr ⟨fun p hp => hh.1 p hp, hh.2⟩
      · rename_i h1 h2
        refine List.pairwise_cons.mpr ⟨fun p hp => ?_, ih hh.2⟩
        rcases mem_ins m k v p hp with hp | hp
        · subst hp
          show a < k
          omega
        · exact hh.1 p hp

/-- Every write keeps the canonical form. -/
theorem set_wf {α : Type} [DecidableEq α] (f : Nat → α) (m : SMap α) (k : Nat) (v : α)
    (h : SMap.wf f m) : SMap.wf f (SMap.set f m k v) := by
  unfold SMap.set
  split
  · exact ⟨del_sorted m k h.1, fun p hp => h.2 p (mem_del m k p hp)⟩
  · rename_i hv
    refine ⟨ins_sorted m k v h.1, fun p hp => ?_⟩
    rcases mem_ins m k v p hp with hp | hp
    · subst hp
      exact hv
    · exact h.2 p hp

/-- Writing a list of values keeps the canonical form. -/
theorem setList_wf {α : Type} [DecidableEq α] (f : Nat → α) (vs : List α) (m : SMap α) (k : Nat)
    (h : SMap.wf f m) : SMap.wf f (SMap.setList f m k vs) := by
  induction vs generalizing m k with
  | nil => exact h
  | cons v vs ih => exact ih _ _ (set_wf f m k v h)

/-- Dropping entries keeps the canonical form. -/
theorem keep_wf {α : Type} [DecidableEq α] (f : Nat → α) (q : Nat → Bool) (m : SMap α)
    (h : SMap.wf f m) : SMap.wf f (SMap.keep q m) :=
  ⟨h.1.filter _, fun p hp => h.2 p (List.mem_filter.mp hp).1⟩

end Sys2Proof.Laws
end

