-- ==== Sys2Proof/Laws/State.lean ====
section
/-! SUPPORT. What the writes of the device leave alone: one lemma per field per write. -/
namespace Sys2Proof.Laws
open Sys2Proof.Machine

/-! `Dev.wr` -/

@[simp] theorem wr_objs (d : Dev) (a : Nat) (w : Word) : (d.wr a w).objs = d.objs := rfl
@[simp] theorem wr_mem (d : Dev) (a : Nat) (w : Word) : (d.wr a w).mem = d.mem := rfl
@[simp] theorem wr_domb (d : Dev) (a : Nat) (w : Word) : (d.wr a w).domb = d.domb := rfl
@[simp] theorem wr_nv (d : Dev) (a : Nat) (w : Word) : (d.wr a w).nv = d.nv := rfl
@[simp] theorem wr_nvDom (d : Dev) (a : Nat) (w : Word) : (d.wr a w).nvDom = d.nvDom := rfl
@[simp] theorem wr_out (d : Dev) (a : Nat) (w : Word) : (d.wr a w).out = d.out := rfl
@[simp] theorem wr_fresh (d : Dev) (a : Nat) (w : Word) : (d.wr a w).fresh = d.fresh := rfl
@[simp] theorem wr_pstate (d : Dev) (a : Nat) (w : Word) : (d.wr a w).pstate = d.pstate := rfl
@[simp] theorem wr_time (d : Dev) (a : Nat) (w : Word) : (d.wr a w).time = d.time := rfl
@[simp] theorem wr_tmst (d : Dev) (a : Nat) (w : Word) : (d.wr a w).tmst = d.tmst := rfl
@[simp] theorem wr_clk (d : Dev) (a : Nat) (w : Word) : (d.wr a w).clk = d.clk := rfl
@[simp] theorem wr_porch (d : Dev) (a : Nat) (w : Word) : (d.wr a w).porch = d.porch := rfl
@[simp] theorem wr_latch (d : Dev) (a : Nat) (w : Word) : (d.wr a w).latch = d.latch := rfl
@[simp] theorem wr_htime (d : Dev) (a : Nat) (w : Word) : (d.wr a w).htime = d.htime := rfl
@[simp] theorem wr_gnss (d : Dev) (a : Nat) (w : Word) : (d.wr a w).gnss = d.gnss := rfl
@[simp] theorem wr_pose (d : Dev) (a : Nat) (w : Word) : (d.wr a w).pose = d.pose := rfl
@[simp] theorem wr_own (d : Dev) (a : Nat) (w : Word) : (d.wr a w).own = d.own := rfl
@[simp] theorem wr_frame (d : Dev) (a : Nat) (w : Word) : (d.wr a w).frame = d.frame := rfl
@[simp] theorem wr_look (d : Dev) (a : Nat) (w : Word) : (d.wr a w).look = d.look := rfl
@[simp] theorem wr_shq (d : Dev) (a : Nat) (w : Word) : (d.wr a w).shq = d.shq := rfl
@[simp] theorem wr_led (d : Dev) (a : Nat) (w : Word) : (d.wr a w).led = d.led := rfl
@[simp] theorem wr_sol (d : Dev) (a : Nat) (w : Word) : (d.wr a w).sol = d.sol := rfl
@[simp] theorem wr_solDie (d : Dev) (a : Nat) (w : Word) : (d.wr a w).solDie = d.solDie := rfl
@[simp] theorem wr_lv (d : Dev) (a : Nat) (w : Word) : (d.wr a w).lv = d.lv := rfl
@[simp] theorem wr_lvChain (d : Dev) (a : Nat) (w : Word) : (d.wr a w).lvChain = d.lvChain := rfl
@[simp] theorem wr_trigLine (d : Dev) (a : Nat) (w : Word) : (d.wr a w).trigLine = d.trigLine := rfl
@[simp] theorem wr_hg (d : Dev) (a : Nat) (w : Word) : (d.wr a w).hg = d.hg := rfl
@[simp] theorem wr_hgWin (d : Dev) (a : Nat) (w : Word) : (d.wr a w).hgWin = d.hgWin := rfl
@[simp] theorem wr_hgWins (d : Dev) (a : Nat) (w : Word) : (d.wr a w).hgWins = d.hgWins := rfl
@[simp] theorem wr_hyst (d : Dev) (a : Nat) (w : Word) : (d.wr a w).hyst = d.hyst := rfl
@[simp] theorem wr_dioAsk (d : Dev) (a : Nat) (w : Word) : (d.wr a w).dioAsk = d.dioAsk := rfl
@[simp] theorem wr_dioIn (d : Dev) (a : Nat) (w : Word) : (d.wr a w).dioIn = d.dioIn := rfl
@[simp] theorem wr_groupLow (d : Dev) (a : Nat) (w : Word) : (d.wr a w).groupLow = d.groupLow := rfl
@[simp] theorem wr_ls (d : Dev) (a : Nat) (w : Word) : (d.wr a w).ls = d.ls := rfl
@[simp] theorem wr_dioOn (d : Dev) (a : Nat) (w : Word) : (d.wr a w).dioOn = d.dioOn := rfl
@[simp] theorem wr_loadDie (d : Dev) (a : Nat) (w : Word) : (d.wr a w).loadDie = d.loadDie := rfl
@[simp] theorem wr_ai (d : Dev) (a : Nat) (w : Word) : (d.wr a w).ai = d.ai := rfl
@[simp] theorem wr_pairAt (d : Dev) (a : Nat) (w : Word) : (d.wr a w).pairAt = d.pairAt := rfl
@[simp] theorem wr_sinTickAt (d : Dev) (a : Nat) (w : Word) : (d.wr a w).sinTickAt = d.sinTickAt := rfl
@[simp] theorem wr_disc (d : Dev) (a : Nat) (w : Word) : (d.wr a w).disc = d.disc := rfl
@[simp] theorem wr_sill (d : Dev) (a : Nat) (w : Word) : (d.wr a w).sill = d.sill := rfl
@[simp] theorem wr_ib (d : Dev) (a : Nat) (w : Word) : (d.wr a w).ib = d.ib := rfl
@[simp] theorem wr_tr (d : Dev) (a : Nat) (w : Word) : (d.wr a w).tr = d.tr := rfl
@[simp] theorem wr_dict (d : Dev) (a : Nat) (w : Word) : (d.wr a w).dict = d.dict := rfl
@[simp] theorem wr_eng (d : Dev) (a : Nat) (w : Word) : (d.wr a w).eng = d.eng := rfl
@[simp] theorem wr_greg (d : Dev) (a : Nat) (w : Word) : (d.wr a w).greg = d.greg := rfl
@[simp] theorem wr_vreg (d : Dev) (a : Nat) (w : Word) : (d.wr a w).vreg = d.vreg := rfl
@[simp] theorem wr_shadows (d : Dev) (a : Nat) (w : Word) : (d.wr a w).shadows = d.shadows := rfl
@[simp] theorem wr_lowHeld (d : Dev) (a : Nat) (w : Word) : (d.wr a w).lowHeld = d.lowHeld := rfl
@[simp] theorem wr_dieStopped (d : Dev) (a : Nat) (w : Word) : (d.wr a w).dieStopped = d.dieStopped := rfl
@[simp] theorem wr_sec (d : Dev) (a : Nat) (w : Word) : (d.wr a w).sec = d.sec := rfl
@[simp] theorem wr_dieClk (d : Dev) (a : Nat) (w : Word) : (d.wr a w).dieClk = d.dieClk := rfl
@[simp] theorem wr_pair (d : Dev) (a : Nat) (w : Word) : (d.wr a w).pair = d.pair := rfl
@[simp] theorem wr_pwr (d : Dev) (a : Nat) (w : Word) : (d.wr a w).pwr = d.pwr := rfl
@[simp] theorem wr_flash (d : Dev) (a : Nat) (w : Word) : (d.wr a w).flash = d.flash := rfl
@[simp] theorem wr_rcd (d : Dev) (a : Nat) (w : Word) : (d.wr a w).rcd = d.rcd := rfl
@[simp] theorem wr_mtr (d : Dev) (a : Nat) (w : Word) : (d.wr a w).mtr = d.mtr := rfl
@[simp] theorem wr_start (d : Dev) (a : Nat) (w : Word) : (d.wr a w).start = d.start := rfl

/-! `Dev.setF` -/

@[simp] theorem setF_objs (d : Dev) (a hi lo v : Nat) : (d.setF a hi lo v).objs = d.objs := rfl
@[simp] theorem setF_mem (d : Dev) (a hi lo v : Nat) : (d.setF a hi lo v).mem = d.mem := rfl
@[simp] theorem setF_domb (d : Dev) (a hi lo v : Nat) : (d.setF a hi lo v).domb = d.domb := rfl
@[simp] theorem setF_nv (d : Dev) (a hi lo v : Nat) : (d.setF a hi lo v).nv = d.nv := rfl
@[simp] theorem setF_nvDom (d : Dev) (a hi lo v : Nat) : (d.setF a hi lo v).nvDom = d.nvDom := rfl
@[simp] theorem setF_out (d : Dev) (a hi lo v : Nat) : (d.setF a hi lo v).out = d.out := rfl
@[simp] theorem setF_fresh (d : Dev) (a hi lo v : Nat) : (d.setF a hi lo v).fresh = d.fresh := rfl
@[simp] theorem setF_pstate (d : Dev) (a hi lo v : Nat) : (d.setF a hi lo v).pstate = d.pstate := rfl
@[simp] theorem setF_time (d : Dev) (a hi lo v : Nat) : (d.setF a hi lo v).time = d.time := rfl
@[simp] theorem setF_tmst (d : Dev) (a hi lo v : Nat) : (d.setF a hi lo v).tmst = d.tmst := rfl
@[simp] theorem setF_clk (d : Dev) (a hi lo v : Nat) : (d.setF a hi lo v).clk = d.clk := rfl
@[simp] theorem setF_porch (d : Dev) (a hi lo v : Nat) : (d.setF a hi lo v).porch = d.porch := rfl
@[simp] theorem setF_latch (d : Dev) (a hi lo v : Nat) : (d.setF a hi lo v).latch = d.latch := rfl
@[simp] theorem setF_htime (d : Dev) (a hi lo v : Nat) : (d.setF a hi lo v).htime = d.htime := rfl
@[simp] theorem setF_gnss (d : Dev) (a hi lo v : Nat) : (d.setF a hi lo v).gnss = d.gnss := rfl
@[simp] theorem setF_pose (d : Dev) (a hi lo v : Nat) : (d.setF a hi lo v).pose = d.pose := rfl
@[simp] theorem setF_own (d : Dev) (a hi lo v : Nat) : (d.setF a hi lo v).own = d.own := rfl
@[simp] theorem setF_frame (d : Dev) (a hi lo v : Nat) : (d.setF a hi lo v).frame = d.frame := rfl
@[simp] theorem setF_look (d : Dev) (a hi lo v : Nat) : (d.setF a hi lo v).look = d.look := rfl
@[simp] theorem setF_shq (d : Dev) (a hi lo v : Nat) : (d.setF a hi lo v).shq = d.shq := rfl
@[simp] theorem setF_led (d : Dev) (a hi lo v : Nat) : (d.setF a hi lo v).led = d.led := rfl
@[simp] theorem setF_sol (d : Dev) (a hi lo v : Nat) : (d.setF a hi lo v).sol = d.sol := rfl
@[simp] theorem setF_solDie (d : Dev) (a hi lo v : Nat) : (d.setF a hi lo v).solDie = d.solDie := rfl
@[simp] theorem setF_lv (d : Dev) (a hi lo v : Nat) : (d.setF a hi lo v).lv = d.lv := rfl
@[simp] theorem setF_lvChain (d : Dev) (a hi lo v : Nat) : (d.setF a hi lo v).lvChain = d.lvChain := rfl
@[simp] theorem setF_trigLine (d : Dev) (a hi lo v : Nat) : (d.setF a hi lo v).trigLine = d.trigLine := rfl
@[simp] theorem setF_hg (d : Dev) (a hi lo v : Nat) : (d.setF a hi lo v).hg = d.hg := rfl
@[simp] theorem setF_hgWin (d : Dev) (a hi lo v : Nat) : (d.setF a hi lo v).hgWin = d.hgWin := rfl
@[simp] theorem setF_hgWins (d : Dev) (a hi lo v : Nat) : (d.setF a hi lo v).hgWins = d.hgWins := rfl
@[simp] theorem setF_hyst (d : Dev) (a hi lo v : Nat) : (d.setF a hi lo v).hyst = d.hyst := rfl
@[simp] theorem setF_dioAsk (d : Dev) (a hi lo v : Nat) : (d.setF a hi lo v).dioAsk = d.dioAsk := rfl
@[simp] theorem setF_dioIn (d : Dev) (a hi lo v : Nat) : (d.setF a hi lo v).dioIn = d.dioIn := rfl
@[simp] theorem setF_groupLow (d : Dev) (a hi lo v : Nat) : (d.setF a hi lo v).groupLow = d.groupLow := rfl
@[simp] theorem setF_ls (d : Dev) (a hi lo v : Nat) : (d.setF a hi lo v).ls = d.ls := rfl
@[simp] theorem setF_dioOn (d : Dev) (a hi lo v : Nat) : (d.setF a hi lo v).dioOn = d.dioOn := rfl
@[simp] theorem setF_loadDie (d : Dev) (a hi lo v : Nat) : (d.setF a hi lo v).loadDie = d.loadDie := rfl
@[simp] theorem setF_ai (d : Dev) (a hi lo v : Nat) : (d.setF a hi lo v).ai = d.ai := rfl
@[simp] theorem setF_pairAt (d : Dev) (a hi lo v : Nat) : (d.setF a hi lo v).pairAt = d.pairAt := rfl
@[simp] theorem setF_sinTickAt (d : Dev) (a hi lo v : Nat) : (d.setF a hi lo v).sinTickAt = d.sinTickAt := rfl
@[simp] theorem setF_disc (d : Dev) (a hi lo v : Nat) : (d.setF a hi lo v).disc = d.disc := rfl
@[simp] theorem setF_sill (d : Dev) (a hi lo v : Nat) : (d.setF a hi lo v).sill = d.sill := rfl
@[simp] theorem setF_ib (d : Dev) (a hi lo v : Nat) : (d.setF a hi lo v).ib = d.ib := rfl
@[simp] theorem setF_tr (d : Dev) (a hi lo v : Nat) : (d.setF a hi lo v).tr = d.tr := rfl
@[simp] theorem setF_dict (d : Dev) (a hi lo v : Nat) : (d.setF a hi lo v).dict = d.dict := rfl
@[simp] theorem setF_eng (d : Dev) (a hi lo v : Nat) : (d.setF a hi lo v).eng = d.eng := rfl
@[simp] theorem setF_greg (d : Dev) (a hi lo v : Nat) : (d.setF a hi lo v).greg = d.greg := rfl
@[simp] theorem setF_vreg (d : Dev) (a hi lo v : Nat) : (d.setF a hi lo v).vreg = d.vreg := rfl
@[simp] theorem setF_shadows (d : Dev) (a hi lo v : Nat) : (d.setF a hi lo v).shadows = d.shadows := rfl
@[simp] theorem setF_lowHeld (d : Dev) (a hi lo v : Nat) : (d.setF a hi lo v).lowHeld = d.lowHeld := rfl
@[simp] theorem setF_dieStopped (d : Dev) (a hi lo v : Nat) : (d.setF a hi lo v).dieStopped = d.dieStopped := rfl
@[simp] theorem setF_sec (d : Dev) (a hi lo v : Nat) : (d.setF a hi lo v).sec = d.sec := rfl
@[simp] theorem setF_dieClk (d : Dev) (a hi lo v : Nat) : (d.setF a hi lo v).dieClk = d.dieClk := rfl
@[simp] theorem setF_pair (d : Dev) (a hi lo v : Nat) : (d.setF a hi lo v).pair = d.pair := rfl
@[simp] theorem setF_pwr (d : Dev) (a hi lo v : Nat) : (d.setF a hi lo v).pwr = d.pwr := rfl
@[simp] theorem setF_flash (d : Dev) (a hi lo v : Nat) : (d.setF a hi lo v).flash = d.flash := rfl
@[simp] theorem setF_rcd (d : Dev) (a hi lo v : Nat) : (d.setF a hi lo v).rcd = d.rcd := rfl
@[simp] theorem setF_mtr (d : Dev) (a hi lo v : Nat) : (d.setF a hi lo v).mtr = d.mtr := rfl
@[simp] theorem setF_start (d : Dev) (a hi lo v : Nat) : (d.setF a hi lo v).start = d.start := rfl

/-! `Dev.setBit` -/

@[simp] theorem setBit_objs (d : Dev) (a i : Nat) (b : Bool) : (d.setBit a i b).objs = d.objs := rfl
@[simp] theorem setBit_mem (d : Dev) (a i : Nat) (b : Bool) : (d.setBit a i b).mem = d.mem := rfl
@[simp] theorem setBit_domb (d : Dev) (a i : Nat) (b : Bool) : (d.setBit a i b).domb = d.domb := rfl
@[simp] theorem setBit_nv (d : Dev) (a i : Nat) (b : Bool) : (d.setBit a i b).nv = d.nv := rfl
@[simp] theorem setBit_nvDom (d : Dev) (a i : Nat) (b : Bool) : (d.setBit a i b).nvDom = d.nvDom := rfl
@[simp] theorem setBit_out (d : Dev) (a i : Nat) (b : Bool) : (d.setBit a i b).out = d.out := rfl
@[simp] theorem setBit_fresh (d : Dev) (a i : Nat) (b : Bool) : (d.setBit a i b).fresh = d.fresh := rfl
@[simp] theorem setBit_pstate (d : Dev) (a i : Nat) (b : Bool) : (d.setBit a i b).pstate = d.pstate := rfl
@[simp] theorem setBit_time (d : Dev) (a i : Nat) (b : Bool) : (d.setBit a i b).time = d.time := rfl
@[simp] theorem setBit_tmst (d : Dev) (a i : Nat) (b : Bool) : (d.setBit a i b).tmst = d.tmst := rfl
@[simp] theorem setBit_clk (d : Dev) (a i : Nat) (b : Bool) : (d.setBit a i b).clk = d.clk := rfl
@[simp] theorem setBit_porch (d : Dev) (a i : Nat) (b : Bool) : (d.setBit a i b).porch = d.porch := rfl
@[simp] theorem setBit_latch (d : Dev) (a i : Nat) (b : Bool) : (d.setBit a i b).latch = d.latch := rfl
@[simp] theorem setBit_htime (d : Dev) (a i : Nat) (b : Bool) : (d.setBit a i b).htime = d.htime := rfl
@[simp] theorem setBit_gnss (d : Dev) (a i : Nat) (b : Bool) : (d.setBit a i b).gnss = d.gnss := rfl
@[simp] theorem setBit_pose (d : Dev) (a i : Nat) (b : Bool) : (d.setBit a i b).pose = d.pose := rfl
@[simp] theorem setBit_own (d : Dev) (a i : Nat) (b : Bool) : (d.setBit a i b).own = d.own := rfl
@[simp] theorem setBit_frame (d : Dev) (a i : Nat) (b : Bool) : (d.setBit a i b).frame = d.frame := rfl
@[simp] theorem setBit_look (d : Dev) (a i : Nat) (b : Bool) : (d.setBit a i b).look = d.look := rfl
@[simp] theorem setBit_shq (d : Dev) (a i : Nat) (b : Bool) : (d.setBit a i b).shq = d.shq := rfl
@[simp] theorem setBit_led (d : Dev) (a i : Nat) (b : Bool) : (d.setBit a i b).led = d.led := rfl
@[simp] theorem setBit_sol (d : Dev) (a i : Nat) (b : Bool) : (d.setBit a i b).sol = d.sol := rfl
@[simp] theorem setBit_solDie (d : Dev) (a i : Nat) (b : Bool) : (d.setBit a i b).solDie = d.solDie := rfl
@[simp] theorem setBit_lv (d : Dev) (a i : Nat) (b : Bool) : (d.setBit a i b).lv = d.lv := rfl
@[simp] theorem setBit_lvChain (d : Dev) (a i : Nat) (b : Bool) : (d.setBit a i b).lvChain = d.lvChain := rfl
@[simp] theorem setBit_trigLine (d : Dev) (a i : Nat) (b : Bool) : (d.setBit a i b).trigLine = d.trigLine := rfl
@[simp] theorem setBit_hg (d : Dev) (a i : Nat) (b : Bool) : (d.setBit a i b).hg = d.hg := rfl
@[simp] theorem setBit_hgWin (d : Dev) (a i : Nat) (b : Bool) : (d.setBit a i b).hgWin = d.hgWin := rfl
@[simp] theorem setBit_hgWins (d : Dev) (a i : Nat) (b : Bool) : (d.setBit a i b).hgWins = d.hgWins := rfl
@[simp] theorem setBit_hyst (d : Dev) (a i : Nat) (b : Bool) : (d.setBit a i b).hyst = d.hyst := rfl
@[simp] theorem setBit_dioAsk (d : Dev) (a i : Nat) (b : Bool) : (d.setBit a i b).dioAsk = d.dioAsk := rfl
@[simp] theorem setBit_dioIn (d : Dev) (a i : Nat) (b : Bool) : (d.setBit a i b).dioIn = d.dioIn := rfl
@[simp] theorem setBit_groupLow (d : Dev) (a i : Nat) (b : Bool) : (d.setBit a i b).groupLow = d.groupLow := rfl
@[simp] theorem setBit_ls (d : Dev) (a i : Nat) (b : Bool) : (d.setBit a i b).ls = d.ls := rfl
@[simp] theorem setBit_dioOn (d : Dev) (a i : Nat) (b : Bool) : (d.setBit a i b).dioOn = d.dioOn := rfl
@[simp] theorem setBit_loadDie (d : Dev) (a i : Nat) (b : Bool) : (d.setBit a i b).loadDie = d.loadDie := rfl
@[simp] theorem setBit_ai (d : Dev) (a i : Nat) (b : Bool) : (d.setBit a i b).ai = d.ai := rfl
@[simp] theorem setBit_pairAt (d : Dev) (a i : Nat) (b : Bool) : (d.setBit a i b).pairAt = d.pairAt := rfl
@[simp] theorem setBit_sinTickAt (d : Dev) (a i : Nat) (b : Bool) : (d.setBit a i b).sinTickAt = d.sinTickAt := rfl
@[simp] theorem setBit_disc (d : Dev) (a i : Nat) (b : Bool) : (d.setBit a i b).disc = d.disc := rfl
@[simp] theorem setBit_sill (d : Dev) (a i : Nat) (b : Bool) : (d.setBit a i b).sill = d.sill := rfl
@[simp] theorem setBit_ib (d : Dev) (a i : Nat) (b : Bool) : (d.setBit a i b).ib = d.ib := rfl
@[simp] theorem setBit_tr (d : Dev) (a i : Nat) (b : Bool) : (d.setBit a i b).tr = d.tr := rfl
@[simp] theorem setBit_dict (d : Dev) (a i : Nat) (b : Bool) : (d.setBit a i b).dict = d.dict := rfl
@[simp] theorem setBit_eng (d : Dev) (a i : Nat) (b : Bool) : (d.setBit a i b).eng = d.eng := rfl
@[simp] theorem setBit_greg (d : Dev) (a i : Nat) (b : Bool) : (d.setBit a i b).greg = d.greg := rfl
@[simp] theorem setBit_vreg (d : Dev) (a i : Nat) (b : Bool) : (d.setBit a i b).vreg = d.vreg := rfl
@[simp] theorem setBit_shadows (d : Dev) (a i : Nat) (b : Bool) : (d.setBit a i b).shadows = d.shadows := rfl
@[simp] theorem setBit_lowHeld (d : Dev) (a i : Nat) (b : Bool) : (d.setBit a i b).lowHeld = d.lowHeld := rfl
@[simp] theorem setBit_dieStopped (d : Dev) (a i : Nat) (b : Bool) : (d.setBit a i b).dieStopped = d.dieStopped := rfl
@[simp] theorem setBit_sec (d : Dev) (a i : Nat) (b : Bool) : (d.setBit a i b).sec = d.sec := rfl
@[simp] theorem setBit_dieClk (d : Dev) (a i : Nat) (b : Bool) : (d.setBit a i b).dieClk = d.dieClk := rfl
@[simp] theorem setBit_pair (d : Dev) (a i : Nat) (b : Bool) : (d.setBit a i b).pair = d.pair := rfl
@[simp] theorem setBit_pwr (d : Dev) (a i : Nat) (b : Bool) : (d.setBit a i b).pwr = d.pwr := rfl
@[simp] theorem setBit_flash (d : Dev) (a i : Nat) (b : Bool) : (d.setBit a i b).flash = d.flash := rfl
@[simp] theorem setBit_rcd (d : Dev) (a i : Nat) (b : Bool) : (d.setBit a i b).rcd = d.rcd := rfl
@[simp] theorem setBit_mtr (d : Dev) (a i : Nat) (b : Bool) : (d.setBit a i b).mtr = d.mtr := rfl
@[simp] theorem setBit_start (d : Dev) (a i : Nat) (b : Bool) : (d.setBit a i b).start = d.start := rfl

/-! `Dev.setOb` -/

@[simp] theorem setOb_regs (d : Dev) (k v : Nat) : (d.setOb k v).regs = d.regs := rfl
@[simp] theorem setOb_mem (d : Dev) (k v : Nat) : (d.setOb k v).mem = d.mem := rfl
@[simp] theorem setOb_domb (d : Dev) (k v : Nat) : (d.setOb k v).domb = d.domb := rfl
@[simp] theorem setOb_nv (d : Dev) (k v : Nat) : (d.setOb k v).nv = d.nv := rfl
@[simp] theorem setOb_nvDom (d : Dev) (k v : Nat) : (d.setOb k v).nvDom = d.nvDom := rfl
@[simp] theorem setOb_out (d : Dev) (k v : Nat) : (d.setOb k v).out = d.out := rfl
@[simp] theorem setOb_fresh (d : Dev) (k v : Nat) : (d.setOb k v).fresh = d.fresh := rfl
@[simp] theorem setOb_pstate (d : Dev) (k v : Nat) : (d.setOb k v).pstate = d.pstate := rfl
@[simp] theorem setOb_time (d : Dev) (k v : Nat) : (d.setOb k v).time = d.time := rfl
@[simp] theorem setOb_tmst (d : Dev) (k v : Nat) : (d.setOb k v).tmst = d.tmst := rfl
@[simp] theorem setOb_clk (d : Dev) (k v : Nat) : (d.setOb k v).clk = d.clk := rfl
@[simp] theorem setOb_porch (d : Dev) (k v : Nat) : (d.setOb k v).porch = d.porch := rfl
@[simp] theorem setOb_latch (d : Dev) (k v : Nat) : (d.setOb k v).latch = d.latch := rfl
@[simp] theorem setOb_htime (d : Dev) (k v : Nat) : (d.setOb k v).htime = d.htime := rfl
@[simp] theorem setOb_gnss (d : Dev) (k v : Nat) : (d.setOb k v).gnss = d.gnss := rfl
@[simp] theorem setOb_pose (d : Dev) (k v : Nat) : (d.setOb k v).pose = d.pose := rfl
@[simp] theorem setOb_own (d : Dev) (k v : Nat) : (d.setOb k v).own = d.own := rfl
@[simp] theorem setOb_frame (d : Dev) (k v : Nat) : (d.setOb k v).frame = d.frame := rfl
@[simp] theorem setOb_look (d : Dev) (k v : Nat) : (d.setOb k v).look = d.look := rfl
@[simp] theorem setOb_shq (d : Dev) (k v : Nat) : (d.setOb k v).shq = d.shq := rfl
@[simp] theorem setOb_led (d : Dev) (k v : Nat) : (d.setOb k v).led = d.led := rfl
@[simp] theorem setOb_sol (d : Dev) (k v : Nat) : (d.setOb k v).sol = d.sol := rfl
@[simp] theorem setOb_solDie (d : Dev) (k v : Nat) : (d.setOb k v).solDie = d.solDie := rfl
@[simp] theorem setOb_lv (d : Dev) (k v : Nat) : (d.setOb k v).lv = d.lv := rfl
@[simp] theorem setOb_lvChain (d : Dev) (k v : Nat) : (d.setOb k v).lvChain = d.lvChain := rfl
@[simp] theorem setOb_trigLine (d : Dev) (k v : Nat) : (d.setOb k v).trigLine = d.trigLine := rfl
@[simp] theorem setOb_hg (d : Dev) (k v : Nat) : (d.setOb k v).hg = d.hg := rfl
@[simp] theorem setOb_hgWin (d : Dev) (k v : Nat) : (d.setOb k v).hgWin = d.hgWin := rfl
@[simp] theorem setOb_hgWins (d : Dev) (k v : Nat) : (d.setOb k v).hgWins = d.hgWins := rfl
@[simp] theorem setOb_hyst (d : Dev) (k v : Nat) : (d.setOb k v).hyst = d.hyst := rfl
@[simp] theorem setOb_dioAsk (d : Dev) (k v : Nat) : (d.setOb k v).dioAsk = d.dioAsk := rfl
@[simp] theorem setOb_dioIn (d : Dev) (k v : Nat) : (d.setOb k v).dioIn = d.dioIn := rfl
@[simp] theorem setOb_groupLow (d : Dev) (k v : Nat) : (d.setOb k v).groupLow = d.groupLow := rfl
@[simp] theorem setOb_ls (d : Dev) (k v : Nat) : (d.setOb k v).ls = d.ls := rfl
@[simp] theorem setOb_dioOn (d : Dev) (k v : Nat) : (d.setOb k v).dioOn = d.dioOn := rfl
@[simp] theorem setOb_loadDie (d : Dev) (k v : Nat) : (d.setOb k v).loadDie = d.loadDie := rfl
@[simp] theorem setOb_ai (d : Dev) (k v : Nat) : (d.setOb k v).ai = d.ai := rfl
@[simp] theorem setOb_pairAt (d : Dev) (k v : Nat) : (d.setOb k v).pairAt = d.pairAt := rfl
@[simp] theorem setOb_sinTickAt (d : Dev) (k v : Nat) : (d.setOb k v).sinTickAt = d.sinTickAt := rfl
@[simp] theorem setOb_disc (d : Dev) (k v : Nat) : (d.setOb k v).disc = d.disc := rfl
@[simp] theorem setOb_sill (d : Dev) (k v : Nat) : (d.setOb k v).sill = d.sill := rfl
@[simp] theorem setOb_ib (d : Dev) (k v : Nat) : (d.setOb k v).ib = d.ib := rfl
@[simp] theorem setOb_tr (d : Dev) (k v : Nat) : (d.setOb k v).tr = d.tr := rfl
@[simp] theorem setOb_dict (d : Dev) (k v : Nat) : (d.setOb k v).dict = d.dict := rfl
@[simp] theorem setOb_eng (d : Dev) (k v : Nat) : (d.setOb k v).eng = d.eng := rfl
@[simp] theorem setOb_greg (d : Dev) (k v : Nat) : (d.setOb k v).greg = d.greg := rfl
@[simp] theorem setOb_vreg (d : Dev) (k v : Nat) : (d.setOb k v).vreg = d.vreg := rfl
@[simp] theorem setOb_shadows (d : Dev) (k v : Nat) : (d.setOb k v).shadows = d.shadows := rfl
@[simp] theorem setOb_lowHeld (d : Dev) (k v : Nat) : (d.setOb k v).lowHeld = d.lowHeld := rfl
@[simp] theorem setOb_dieStopped (d : Dev) (k v : Nat) : (d.setOb k v).dieStopped = d.dieStopped := rfl
@[simp] theorem setOb_sec (d : Dev) (k v : Nat) : (d.setOb k v).sec = d.sec := rfl
@[simp] theorem setOb_dieClk (d : Dev) (k v : Nat) : (d.setOb k v).dieClk = d.dieClk := rfl
@[simp] theorem setOb_pair (d : Dev) (k v : Nat) : (d.setOb k v).pair = d.pair := rfl
@[simp] theorem setOb_pwr (d : Dev) (k v : Nat) : (d.setOb k v).pwr = d.pwr := rfl
@[simp] theorem setOb_flash (d : Dev) (k v : Nat) : (d.setOb k v).flash = d.flash := rfl
@[simp] theorem setOb_rcd (d : Dev) (k v : Nat) : (d.setOb k v).rcd = d.rcd := rfl
@[simp] theorem setOb_mtr (d : Dev) (k v : Nat) : (d.setOb k v).mtr = d.mtr := rfl
@[simp] theorem setOb_start (d : Dev) (k v : Nat) : (d.setOb k v).start = d.start := rfl

/-! `Dev.setDom` -/

@[simp] theorem setDom_regs (d : Dev) (k off : Nat) (bs : List Byte) : (d.setDom k off bs).regs = d.regs := rfl
@[simp] theorem setDom_objs (d : Dev) (k off : Nat) (bs : List Byte) : (d.setDom k off bs).objs = d.objs := rfl
@[simp] theorem setDom_mem (d : Dev) (k off : Nat) (bs : List Byte) : (d.setDom k off bs).mem = d.mem := rfl
@[simp] theorem setDom_nv (d : Dev) (k off : Nat) (bs : List Byte) : (d.setDom k off bs).nv = d.nv := rfl
@[simp] theorem setDom_nvDom (d : Dev) (k off : Nat) (bs : List Byte) : (d.setDom k off bs).nvDom = d.nvDom := rfl
@[simp] theorem setDom_out (d : Dev) (k off : Nat) (bs : List Byte) : (d.setDom k off bs).out = d.out := rfl
@[simp] theorem setDom_fresh (d : Dev) (k off : Nat) (bs : List Byte) : (d.setDom k off bs).fresh = d.fresh := rfl
@[simp] theorem setDom_pstate (d : Dev) (k off : Nat) (bs : List Byte) : (d.setDom k off bs).pstate = d.pstate := rfl
@[simp] theorem setDom_time (d : Dev) (k off : Nat) (bs : List Byte) : (d.setDom k off bs).time = d.time := rfl
@[simp] theorem setDom_tmst (d : Dev) (k off : Nat) (bs : List Byte) : (d.setDom k off bs).tmst = d.tmst := rfl
@[simp] theorem setDom_clk (d : Dev) (k off : Nat) (bs : List Byte) : (d.setDom k off bs).clk = d.clk := rfl
@[simp] theorem setDom_porch (d : Dev) (k off : Nat) (bs : List Byte) : (d.setDom k off bs).porch = d.porch := rfl
@[simp] theorem setDom_latch (d : Dev) (k off : Nat) (bs : List Byte) : (d.setDom k off bs).latch = d.latch := rfl
@[simp] theorem setDom_htime (d : Dev) (k off : Nat) (bs : List Byte) : (d.setDom k off bs).htime = d.htime := rfl
@[simp] theorem setDom_gnss (d : Dev) (k off : Nat) (bs : List Byte) : (d.setDom k off bs).gnss = d.gnss := rfl
@[simp] theorem setDom_pose (d : Dev) (k off : Nat) (bs : List Byte) : (d.setDom k off bs).pose = d.pose := rfl
@[simp] theorem setDom_own (d : Dev) (k off : Nat) (bs : List Byte) : (d.setDom k off bs).own = d.own := rfl
@[simp] theorem setDom_frame (d : Dev) (k off : Nat) (bs : List Byte) : (d.setDom k off bs).frame = d.frame := rfl
@[simp] theorem setDom_look (d : Dev) (k off : Nat) (bs : List Byte) : (d.setDom k off bs).look = d.look := rfl
@[simp] theorem setDom_shq (d : Dev) (k off : Nat) (bs : List Byte) : (d.setDom k off bs).shq = d.shq := rfl
@[simp] theorem setDom_led (d : Dev) (k off : Nat) (bs : List Byte) : (d.setDom k off bs).led = d.led := rfl
@[simp] theorem setDom_sol (d : Dev) (k off : Nat) (bs : List Byte) : (d.setDom k off bs).sol = d.sol := rfl
@[simp] theorem setDom_solDie (d : Dev) (k off : Nat) (bs : List Byte) : (d.setDom k off bs).solDie = d.solDie := rfl
@[simp] theorem setDom_lv (d : Dev) (k off : Nat) (bs : List Byte) : (d.setDom k off bs).lv = d.lv := rfl
@[simp] theorem setDom_lvChain (d : Dev) (k off : Nat) (bs : List Byte) : (d.setDom k off bs).lvChain = d.lvChain := rfl
@[simp] theorem setDom_trigLine (d : Dev) (k off : Nat) (bs : List Byte) : (d.setDom k off bs).trigLine = d.trigLine := rfl
@[simp] theorem setDom_hg (d : Dev) (k off : Nat) (bs : List Byte) : (d.setDom k off bs).hg = d.hg := rfl
@[simp] theorem setDom_hgWin (d : Dev) (k off : Nat) (bs : List Byte) : (d.setDom k off bs).hgWin = d.hgWin := rfl
@[simp] theorem setDom_hgWins (d : Dev) (k off : Nat) (bs : List Byte) : (d.setDom k off bs).hgWins = d.hgWins := rfl
@[simp] theorem setDom_hyst (d : Dev) (k off : Nat) (bs : List Byte) : (d.setDom k off bs).hyst = d.hyst := rfl
@[simp] theorem setDom_dioAsk (d : Dev) (k off : Nat) (bs : List Byte) : (d.setDom k off bs).dioAsk = d.dioAsk := rfl
@[simp] theorem setDom_dioIn (d : Dev) (k off : Nat) (bs : List Byte) : (d.setDom k off bs).dioIn = d.dioIn := rfl
@[simp] theorem setDom_groupLow (d : Dev) (k off : Nat) (bs : List Byte) : (d.setDom k off bs).groupLow = d.groupLow := rfl
@[simp] theorem setDom_ls (d : Dev) (k off : Nat) (bs : List Byte) : (d.setDom k off bs).ls = d.ls := rfl
@[simp] theorem setDom_dioOn (d : Dev) (k off : Nat) (bs : List Byte) : (d.setDom k off bs).dioOn = d.dioOn := rfl
@[simp] theorem setDom_loadDie (d : Dev) (k off : Nat) (bs : List Byte) : (d.setDom k off bs).loadDie = d.loadDie := rfl
@[simp] theorem setDom_ai (d : Dev) (k off : Nat) (bs : List Byte) : (d.setDom k off bs).ai = d.ai := rfl
@[simp] theorem setDom_pairAt (d : Dev) (k off : Nat) (bs : List Byte) : (d.setDom k off bs).pairAt = d.pairAt := rfl
@[simp] theorem setDom_sinTickAt (d : Dev) (k off : Nat) (bs : List Byte) : (d.setDom k off bs).sinTickAt = d.sinTickAt := rfl
@[simp] theorem setDom_disc (d : Dev) (k off : Nat) (bs : List Byte) : (d.setDom k off bs).disc = d.disc := rfl
@[simp] theorem setDom_sill (d : Dev) (k off : Nat) (bs : List Byte) : (d.setDom k off bs).sill = d.sill := rfl
@[simp] theorem setDom_ib (d : Dev) (k off : Nat) (bs : List Byte) : (d.setDom k off bs).ib = d.ib := rfl
@[simp] theorem setDom_tr (d : Dev) (k off : Nat) (bs : List Byte) : (d.setDom k off bs).tr = d.tr := rfl
@[simp] theorem setDom_dict (d : Dev) (k off : Nat) (bs : List Byte) : (d.setDom k off bs).dict = d.dict := rfl
@[simp] theorem setDom_eng (d : Dev) (k off : Nat) (bs : List Byte) : (d.setDom k off bs).eng = d.eng := rfl
@[simp] theorem setDom_greg (d : Dev) (k off : Nat) (bs : List Byte) : (d.setDom k off bs).greg = d.greg := rfl
@[simp] theorem setDom_vreg (d : Dev) (k off : Nat) (bs : List Byte) : (d.setDom k off bs).vreg = d.vreg := rfl
@[simp] theorem setDom_shadows (d : Dev) (k off : Nat) (bs : List Byte) : (d.setDom k off bs).shadows = d.shadows := rfl
@[simp] theorem setDom_lowHeld (d : Dev) (k off : Nat) (bs : List Byte) : (d.setDom k off bs).lowHeld = d.lowHeld := rfl
@[simp] theorem setDom_dieStopped (d : Dev) (k off : Nat) (bs : List Byte) : (d.setDom k off bs).dieStopped = d.dieStopped := rfl
@[simp] theorem setDom_sec (d : Dev) (k off : Nat) (bs : List Byte) : (d.setDom k off bs).sec = d.sec := rfl
@[simp] theorem setDom_dieClk (d : Dev) (k off : Nat) (bs : List Byte) : (d.setDom k off bs).dieClk = d.dieClk := rfl
@[simp] theorem setDom_pair (d : Dev) (k off : Nat) (bs : List Byte) : (d.setDom k off bs).pair = d.pair := rfl
@[simp] theorem setDom_pwr (d : Dev) (k off : Nat) (bs : List Byte) : (d.setDom k off bs).pwr = d.pwr := rfl
@[simp] theorem setDom_flash (d : Dev) (k off : Nat) (bs : List Byte) : (d.setDom k off bs).flash = d.flash := rfl
@[simp] theorem setDom_rcd (d : Dev) (k off : Nat) (bs : List Byte) : (d.setDom k off bs).rcd = d.rcd := rfl
@[simp] theorem setDom_mtr (d : Dev) (k off : Nat) (bs : List Byte) : (d.setDom k off bs).mtr = d.mtr := rfl
@[simp] theorem setDom_start (d : Dev) (k off : Nat) (bs : List Byte) : (d.setDom k off bs).start = d.start := rfl

/-! `Dev.setByte` -/

@[simp] theorem setByte_regs (d : Dev) (a : Nat) (b : Byte) : (d.setByte a b).regs = d.regs := rfl
@[simp] theorem setByte_objs (d : Dev) (a : Nat) (b : Byte) : (d.setByte a b).objs = d.objs := rfl
@[simp] theorem setByte_domb (d : Dev) (a : Nat) (b : Byte) : (d.setByte a b).domb = d.domb := rfl
@[simp] theorem setByte_nv (d : Dev) (a : Nat) (b : Byte) : (d.setByte a b).nv = d.nv := rfl
@[simp] theorem setByte_nvDom (d : Dev) (a : Nat) (b : Byte) : (d.setByte a b).nvDom = d.nvDom := rfl
@[simp] theorem setByte_out (d : Dev) (a : Nat) (b : Byte) : (d.setByte a b).out = d.out := rfl
@[simp] theorem setByte_fresh (d : Dev) (a : Nat) (b : Byte) : (d.setByte a b).fresh = d.fresh := rfl
@[simp] theorem setByte_pstate (d : Dev) (a : Nat) (b : Byte) : (d.setByte a b).pstate = d.pstate := rfl
@[simp] theorem setByte_time (d : Dev) (a : Nat) (b : Byte) : (d.setByte a b).time = d.time := rfl
@[simp] theorem setByte_tmst (d : Dev) (a : Nat) (b : Byte) : (d.setByte a b).tmst = d.tmst := rfl
@[simp] theorem setByte_clk (d : Dev) (a : Nat) (b : Byte) : (d.setByte a b).clk = d.clk := rfl
@[simp] theorem setByte_porch (d : Dev) (a : Nat) (b : Byte) : (d.setByte a b).porch = d.porch := rfl
@[simp] theorem setByte_latch (d : Dev) (a : Nat) (b : Byte) : (d.setByte a b).latch = d.latch := rfl
@[simp] theorem setByte_htime (d : Dev) (a : Nat) (b : Byte) : (d.setByte a b).htime = d.htime := rfl
@[simp] theorem setByte_gnss (d : Dev) (a : Nat) (b : Byte) : (d.setByte a b).gnss = d.gnss := rfl
@[simp] theorem setByte_pose (d : Dev) (a : Nat) (b : Byte) : (d.setByte a b).pose = d.pose := rfl
@[simp] theorem setByte_own (d : Dev) (a : Nat) (b : Byte) : (d.setByte a b).own = d.own := rfl
@[simp] theorem setByte_frame (d : Dev) (a : Nat) (b : Byte) : (d.setByte a b).frame = d.frame := rfl
@[simp] theorem setByte_look (d : Dev) (a : Nat) (b : Byte) : (d.setByte a b).look = d.look := rfl
@[simp] theorem setByte_shq (d : Dev) (a : Nat) (b : Byte) : (d.setByte a b).shq = d.shq := rfl
@[simp] theorem setByte_led (d : Dev) (a : Nat) (b : Byte) : (d.setByte a b).led = d.led := rfl
@[simp] theorem setByte_sol (d : Dev) (a : Nat) (b : Byte) : (d.setByte a b).sol = d.sol := rfl
@[simp] theorem setByte_solDie (d : Dev) (a : Nat) (b : Byte) : (d.setByte a b).solDie = d.solDie := rfl
@[simp] theorem setByte_lv (d : Dev) (a : Nat) (b : Byte) : (d.setByte a b).lv = d.lv := rfl
@[simp] theorem setByte_lvChain (d : Dev) (a : Nat) (b : Byte) : (d.setByte a b).lvChain = d.lvChain := rfl
@[simp] theorem setByte_trigLine (d : Dev) (a : Nat) (b : Byte) : (d.setByte a b).trigLine = d.trigLine := rfl
@[simp] theorem setByte_hg (d : Dev) (a : Nat) (b : Byte) : (d.setByte a b).hg = d.hg := rfl
@[simp] theorem setByte_hgWin (d : Dev) (a : Nat) (b : Byte) : (d.setByte a b).hgWin = d.hgWin := rfl
@[simp] theorem setByte_hgWins (d : Dev) (a : Nat) (b : Byte) : (d.setByte a b).hgWins = d.hgWins := rfl
@[simp] theorem setByte_hyst (d : Dev) (a : Nat) (b : Byte) : (d.setByte a b).hyst = d.hyst := rfl
@[simp] theorem setByte_dioAsk (d : Dev) (a : Nat) (b : Byte) : (d.setByte a b).dioAsk = d.dioAsk := rfl
@[simp] theorem setByte_dioIn (d : Dev) (a : Nat) (b : Byte) : (d.setByte a b).dioIn = d.dioIn := rfl
@[simp] theorem setByte_groupLow (d : Dev) (a : Nat) (b : Byte) : (d.setByte a b).groupLow = d.groupLow := rfl
@[simp] theorem setByte_ls (d : Dev) (a : Nat) (b : Byte) : (d.setByte a b).ls = d.ls := rfl
@[simp] theorem setByte_dioOn (d : Dev) (a : Nat) (b : Byte) : (d.setByte a b).dioOn = d.dioOn := rfl
@[simp] theorem setByte_loadDie (d : Dev) (a : Nat) (b : Byte) : (d.setByte a b).loadDie = d.loadDie := rfl
@[simp] theorem setByte_ai (d : Dev) (a : Nat) (b : Byte) : (d.setByte a b).ai = d.ai := rfl
@[simp] theorem setByte_pairAt (d : Dev) (a : Nat) (b : Byte) : (d.setByte a b).pairAt = d.pairAt := rfl
@[simp] theorem setByte_sinTickAt (d : Dev) (a : Nat) (b : Byte) : (d.setByte a b).sinTickAt = d.sinTickAt := rfl
@[simp] theorem setByte_disc (d : Dev) (a : Nat) (b : Byte) : (d.setByte a b).disc = d.disc := rfl
@[simp] theorem setByte_sill (d : Dev) (a : Nat) (b : Byte) : (d.setByte a b).sill = d.sill := rfl
@[simp] theorem setByte_ib (d : Dev) (a : Nat) (b : Byte) : (d.setByte a b).ib = d.ib := rfl
@[simp] theorem setByte_tr (d : Dev) (a : Nat) (b : Byte) : (d.setByte a b).tr = d.tr := rfl
@[simp] theorem setByte_dict (d : Dev) (a : Nat) (b : Byte) : (d.setByte a b).dict = d.dict := rfl
@[simp] theorem setByte_eng (d : Dev) (a : Nat) (b : Byte) : (d.setByte a b).eng = d.eng := rfl
@[simp] theorem setByte_greg (d : Dev) (a : Nat) (b : Byte) : (d.setByte a b).greg = d.greg := rfl
@[simp] theorem setByte_vreg (d : Dev) (a : Nat) (b : Byte) : (d.setByte a b).vreg = d.vreg := rfl
@[simp] theorem setByte_shadows (d : Dev) (a : Nat) (b : Byte) : (d.setByte a b).shadows = d.shadows := rfl
@[simp] theorem setByte_lowHeld (d : Dev) (a : Nat) (b : Byte) : (d.setByte a b).lowHeld = d.lowHeld := rfl
@[simp] theorem setByte_dieStopped (d : Dev) (a : Nat) (b : Byte) : (d.setByte a b).dieStopped = d.dieStopped := rfl
@[simp] theorem setByte_sec (d : Dev) (a : Nat) (b : Byte) : (d.setByte a b).sec = d.sec := rfl
@[simp] theorem setByte_dieClk (d : Dev) (a : Nat) (b : Byte) : (d.setByte a b).dieClk = d.dieClk := rfl
@[simp] theorem setByte_pair (d : Dev) (a : Nat) (b : Byte) : (d.setByte a b).pair = d.pair := rfl
@[simp] theorem setByte_pwr (d : Dev) (a : Nat) (b : Byte) : (d.setByte a b).pwr = d.pwr := rfl
@[simp] theorem setByte_flash (d : Dev) (a : Nat) (b : Byte) : (d.setByte a b).flash = d.flash := rfl
@[simp] theorem setByte_rcd (d : Dev) (a : Nat) (b : Byte) : (d.setByte a b).rcd = d.rcd := rfl
@[simp] theorem setByte_mtr (d : Dev) (a : Nat) (b : Byte) : (d.setByte a b).mtr = d.mtr := rfl
@[simp] theorem setByte_start (d : Dev) (a : Nat) (b : Byte) : (d.setByte a b).start = d.start := rfl

/-! `Dev.setBytes` -/

@[simp] theorem setBytes_regs (d : Dev) (a : Nat) (bs : List Byte) : (d.setBytes a bs).regs = d.regs := rfl
@[simp] theorem setBytes_objs (d : Dev) (a : Nat) (bs : List Byte) : (d.setBytes a bs).objs = d.objs := rfl
@[simp] theorem setBytes_domb (d : Dev) (a : Nat) (bs : List Byte) : (d.setBytes a bs).domb = d.domb := rfl
@[simp] theorem setBytes_nv (d : Dev) (a : Nat) (bs : List Byte) : (d.setBytes a bs).nv = d.nv := rfl
@[simp] theorem setBytes_nvDom (d : Dev) (a : Nat) (bs : List Byte) : (d.setBytes a bs).nvDom = d.nvDom := rfl
@[simp] theorem setBytes_out (d : Dev) (a : Nat) (bs : List Byte) : (d.setBytes a bs).out = d.out := rfl
@[simp] theorem setBytes_fresh (d : Dev) (a : Nat) (bs : List Byte) : (d.setBytes a bs).fresh = d.fresh := rfl
@[simp] theorem setBytes_pstate (d : Dev) (a : Nat) (bs : List Byte) : (d.setBytes a bs).pstate = d.pstate := rfl
@[simp] theorem setBytes_time (d : Dev) (a : Nat) (bs : List Byte) : (d.setBytes a bs).time = d.time := rfl
@[simp] theorem setBytes_tmst (d : Dev) (a : Nat) (bs : List Byte) : (d.setBytes a bs).tmst = d.tmst := rfl
@[simp] theorem setBytes_clk (d : Dev) (a : Nat) (bs : List Byte) : (d.setBytes a bs).clk = d.clk := rfl
@[simp] theorem setBytes_porch (d : Dev) (a : Nat) (bs : List Byte) : (d.setBytes a bs).porch = d.porch := rfl
@[simp] theorem setBytes_latch (d : Dev) (a : Nat) (bs : List Byte) : (d.setBytes a bs).latch = d.latch := rfl
@[simp] theorem setBytes_htime (d : Dev) (a : Nat) (bs : List Byte) : (d.setBytes a bs).htime = d.htime := rfl
@[simp] theorem setBytes_gnss (d : Dev) (a : Nat) (bs : List Byte) : (d.setBytes a bs).gnss = d.gnss := rfl
@[simp] theorem setBytes_pose (d : Dev) (a : Nat) (bs : List Byte) : (d.setBytes a bs).pose = d.pose := rfl
@[simp] theorem setBytes_own (d : Dev) (a : Nat) (bs : List Byte) : (d.setBytes a bs).own = d.own := rfl
@[simp] theorem setBytes_frame (d : Dev) (a : Nat) (bs : List Byte) : (d.setBytes a bs).frame = d.frame := rfl
@[simp] theorem setBytes_look (d : Dev) (a : Nat) (bs : List Byte) : (d.setBytes a bs).look = d.look := rfl
@[simp] theorem setBytes_shq (d : Dev) (a : Nat) (bs : List Byte) : (d.setBytes a bs).shq = d.shq := rfl
@[simp] theorem setBytes_led (d : Dev) (a : Nat) (bs : List Byte) : (d.setBytes a bs).led = d.led := rfl
@[simp] theorem setBytes_sol (d : Dev) (a : Nat) (bs : List Byte) : (d.setBytes a bs).sol = d.sol := rfl
@[simp] theorem setBytes_solDie (d : Dev) (a : Nat) (bs : List Byte) : (d.setBytes a bs).solDie = d.solDie := rfl
@[simp] theorem setBytes_lv (d : Dev) (a : Nat) (bs : List Byte) : (d.setBytes a bs).lv = d.lv := rfl
@[simp] theorem setBytes_lvChain (d : Dev) (a : Nat) (bs : List Byte) : (d.setBytes a bs).lvChain = d.lvChain := rfl
@[simp] theorem setBytes_trigLine (d : Dev) (a : Nat) (bs : List Byte) : (d.setBytes a bs).trigLine = d.trigLine := rfl
@[simp] theorem setBytes_hg (d : Dev) (a : Nat) (bs : List Byte) : (d.setBytes a bs).hg = d.hg := rfl
@[simp] theorem setBytes_hgWin (d : Dev) (a : Nat) (bs : List Byte) : (d.setBytes a bs).hgWin = d.hgWin := rfl
@[simp] theorem setBytes_hgWins (d : Dev) (a : Nat) (bs : List Byte) : (d.setBytes a bs).hgWins = d.hgWins := rfl
@[simp] theorem setBytes_hyst (d : Dev) (a : Nat) (bs : List Byte) : (d.setBytes a bs).hyst = d.hyst := rfl
@[simp] theorem setBytes_dioAsk (d : Dev) (a : Nat) (bs : List Byte) : (d.setBytes a bs).dioAsk = d.dioAsk := rfl
@[simp] theorem setBytes_dioIn (d : Dev) (a : Nat) (bs : List Byte) : (d.setBytes a bs).dioIn = d.dioIn := rfl
@[simp] theorem setBytes_groupLow (d : Dev) (a : Nat) (bs : List Byte) : (d.setBytes a bs).groupLow = d.groupLow := rfl
@[simp] theorem setBytes_ls (d : Dev) (a : Nat) (bs : List Byte) : (d.setBytes a bs).ls = d.ls := rfl
@[simp] theorem setBytes_dioOn (d : Dev) (a : Nat) (bs : List Byte) : (d.setBytes a bs).dioOn = d.dioOn := rfl
@[simp] theorem setBytes_loadDie (d : Dev) (a : Nat) (bs : List Byte) : (d.setBytes a bs).loadDie = d.loadDie := rfl
@[simp] theorem setBytes_ai (d : Dev) (a : Nat) (bs : List Byte) : (d.setBytes a bs).ai = d.ai := rfl
@[simp] theorem setBytes_pairAt (d : Dev) (a : Nat) (bs : List Byte) : (d.setBytes a bs).pairAt = d.pairAt := rfl
@[simp] theorem setBytes_sinTickAt (d : Dev) (a : Nat) (bs : List Byte) : (d.setBytes a bs).sinTickAt = d.sinTickAt := rfl
@[simp] theorem setBytes_disc (d : Dev) (a : Nat) (bs : List Byte) : (d.setBytes a bs).disc = d.disc := rfl
@[simp] theorem setBytes_sill (d : Dev) (a : Nat) (bs : List Byte) : (d.setBytes a bs).sill = d.sill := rfl
@[simp] theorem setBytes_ib (d : Dev) (a : Nat) (bs : List Byte) : (d.setBytes a bs).ib = d.ib := rfl
@[simp] theorem setBytes_tr (d : Dev) (a : Nat) (bs : List Byte) : (d.setBytes a bs).tr = d.tr := rfl
@[simp] theorem setBytes_dict (d : Dev) (a : Nat) (bs : List Byte) : (d.setBytes a bs).dict = d.dict := rfl
@[simp] theorem setBytes_eng (d : Dev) (a : Nat) (bs : List Byte) : (d.setBytes a bs).eng = d.eng := rfl
@[simp] theorem setBytes_greg (d : Dev) (a : Nat) (bs : List Byte) : (d.setBytes a bs).greg = d.greg := rfl
@[simp] theorem setBytes_vreg (d : Dev) (a : Nat) (bs : List Byte) : (d.setBytes a bs).vreg = d.vreg := rfl
@[simp] theorem setBytes_shadows (d : Dev) (a : Nat) (bs : List Byte) : (d.setBytes a bs).shadows = d.shadows := rfl
@[simp] theorem setBytes_lowHeld (d : Dev) (a : Nat) (bs : List Byte) : (d.setBytes a bs).lowHeld = d.lowHeld := rfl
@[simp] theorem setBytes_dieStopped (d : Dev) (a : Nat) (bs : List Byte) : (d.setBytes a bs).dieStopped = d.dieStopped := rfl
@[simp] theorem setBytes_sec (d : Dev) (a : Nat) (bs : List Byte) : (d.setBytes a bs).sec = d.sec := rfl
@[simp] theorem setBytes_dieClk (d : Dev) (a : Nat) (bs : List Byte) : (d.setBytes a bs).dieClk = d.dieClk := rfl
@[simp] theorem setBytes_pair (d : Dev) (a : Nat) (bs : List Byte) : (d.setBytes a bs).pair = d.pair := rfl
@[simp] theorem setBytes_pwr (d : Dev) (a : Nat) (bs : List Byte) : (d.setBytes a bs).pwr = d.pwr := rfl
@[simp] theorem setBytes_flash (d : Dev) (a : Nat) (bs : List Byte) : (d.setBytes a bs).flash = d.flash := rfl
@[simp] theorem setBytes_rcd (d : Dev) (a : Nat) (bs : List Byte) : (d.setBytes a bs).rcd = d.rcd := rfl
@[simp] theorem setBytes_mtr (d : Dev) (a : Nat) (bs : List Byte) : (d.setBytes a bs).mtr = d.mtr := rfl
@[simp] theorem setBytes_start (d : Dev) (a : Nat) (bs : List Byte) : (d.setBytes a bs).start = d.start := rfl

/-! `Dev.emit` -/

@[simp] theorem emit_regs (d : Dev) (u : OutUnit) (chan tag : Nat) (data : List Nat) : (d.emit u chan tag data).regs = d.regs := rfl
@[simp] theorem emit_objs (d : Dev) (u : OutUnit) (chan tag : Nat) (data : List Nat) : (d.emit u chan tag data).objs = d.objs := rfl
@[simp] theorem emit_mem (d : Dev) (u : OutUnit) (chan tag : Nat) (data : List Nat) : (d.emit u chan tag data).mem = d.mem := rfl
@[simp] theorem emit_domb (d : Dev) (u : OutUnit) (chan tag : Nat) (data : List Nat) : (d.emit u chan tag data).domb = d.domb := rfl
@[simp] theorem emit_nv (d : Dev) (u : OutUnit) (chan tag : Nat) (data : List Nat) : (d.emit u chan tag data).nv = d.nv := rfl
@[simp] theorem emit_nvDom (d : Dev) (u : OutUnit) (chan tag : Nat) (data : List Nat) : (d.emit u chan tag data).nvDom = d.nvDom := rfl
@[simp] theorem emit_fresh (d : Dev) (u : OutUnit) (chan tag : Nat) (data : List Nat) : (d.emit u chan tag data).fresh = d.fresh := rfl
@[simp] theorem emit_pstate (d : Dev) (u : OutUnit) (chan tag : Nat) (data : List Nat) : (d.emit u chan tag data).pstate = d.pstate := rfl
@[simp] theorem emit_time (d : Dev) (u : OutUnit) (chan tag : Nat) (data : List Nat) : (d.emit u chan tag data).time = d.time := rfl
@[simp] theorem emit_tmst (d : Dev) (u : OutUnit) (chan tag : Nat) (data : List Nat) : (d.emit u chan tag data).tmst = d.tmst := rfl
@[simp] theorem emit_clk (d : Dev) (u : OutUnit) (chan tag : Nat) (data : List Nat) : (d.emit u chan tag data).clk = d.clk := rfl
@[simp] theorem emit_porch (d : Dev) (u : OutUnit) (chan tag : Nat) (data : List Nat) : (d.emit u chan tag data).porch = d.porch := rfl
@[simp] theorem emit_latch (d : Dev) (u : OutUnit) (chan tag : Nat) (data : List Nat) : (d.emit u chan tag data).latch = d.latch := rfl
@[simp] theorem emit_htime (d : Dev) (u : OutUnit) (chan tag : Nat) (data : List Nat) : (d.emit u chan tag data).htime = d.htime := rfl
@[simp] theorem emit_gnss (d : Dev) (u : OutUnit) (chan tag : Nat) (data : List Nat) : (d.emit u chan tag data).gnss = d.gnss := rfl
@[simp] theorem emit_pose (d : Dev) (u : OutUnit) (chan tag : Nat) (data : List Nat) : (d.emit u chan tag data).pose = d.pose := rfl
@[simp] theorem emit_own (d : Dev) (u : OutUnit) (chan tag : Nat) (data : List Nat) : (d.emit u chan tag data).own = d.own := rfl
@[simp] theorem emit_frame (d : Dev) (u : OutUnit) (chan tag : Nat) (data : List Nat) : (d.emit u chan tag data).frame = d.frame := rfl
@[simp] theorem emit_look (d : Dev) (u : OutUnit) (chan tag : Nat) (data : List Nat) : (d.emit u chan tag data).look = d.look := rfl
@[simp] theorem emit_shq (d : Dev) (u : OutUnit) (chan tag : Nat) (data : List Nat) : (d.emit u chan tag data).shq = d.shq := rfl
@[simp] theorem emit_led (d : Dev) (u : OutUnit) (chan tag : Nat) (data : List Nat) : (d.emit u chan tag data).led = d.led := rfl
@[simp] theorem emit_sol (d : Dev) (u : OutUnit) (chan tag : Nat) (data : List Nat) : (d.emit u chan tag data).sol = d.sol := rfl
@[simp] theorem emit_solDie (d : Dev) (u : OutUnit) (chan tag : Nat) (data : List Nat) : (d.emit u chan tag data).solDie = d.solDie := rfl
@[simp] theorem emit_lv (d : Dev) (u : OutUnit) (chan tag : Nat) (data : List Nat) : (d.emit u chan tag data).lv = d.lv := rfl
@[simp] theorem emit_lvChain (d : Dev) (u : OutUnit) (chan tag : Nat) (data : List Nat) : (d.emit u chan tag data).lvChain = d.lvChain := rfl
@[simp] theorem emit_trigLine (d : Dev) (u : OutUnit) (chan tag : Nat) (data : List Nat) : (d.emit u chan tag data).trigLine = d.trigLine := rfl
@[simp] theorem emit_hg (d : Dev) (u : OutUnit) (chan tag : Nat) (data : List Nat) : (d.emit u chan tag data).hg = d.hg := rfl
@[simp] theorem emit_hgWin (d : Dev) (u : OutUnit) (chan tag : Nat) (data : List Nat) : (d.emit u chan tag data).hgWin = d.hgWin := rfl
@[simp] theorem emit_hgWins (d : Dev) (u : OutUnit) (chan tag : Nat) (data : List Nat) : (d.emit u chan tag data).hgWins = d.hgWins := rfl
@[simp] theorem emit_hyst (d : Dev) (u : OutUnit) (chan tag : Nat) (data : List Nat) : (d.emit u chan tag data).hyst = d.hyst := rfl
@[simp] theorem emit_dioAsk (d : Dev) (u : OutUnit) (chan tag : Nat) (data : List Nat) : (d.emit u chan tag data).dioAsk = d.dioAsk := rfl
@[simp] theorem emit_dioIn (d : Dev) (u : OutUnit) (chan tag : Nat) (data : List Nat) : (d.emit u chan tag data).dioIn = d.dioIn := rfl
@[simp] theorem emit_groupLow (d : Dev) (u : OutUnit) (chan tag : Nat) (data : List Nat) : (d.emit u chan tag data).groupLow = d.groupLow := rfl
@[simp] theorem emit_ls (d : Dev) (u : OutUnit) (chan tag : Nat) (data : List Nat) : (d.emit u chan tag data).ls = d.ls := rfl
@[simp] theorem emit_dioOn (d : Dev) (u : OutUnit) (chan tag : Nat) (data : List Nat) : (d.emit u chan tag data).dioOn = d.dioOn := rfl
@[simp] theorem emit_loadDie (d : Dev) (u : OutUnit) (chan tag : Nat) (data : List Nat) : (d.emit u chan tag data).loadDie = d.loadDie := rfl
@[simp] theorem emit_ai (d : Dev) (u : OutUnit) (chan tag : Nat) (data : List Nat) : (d.emit u chan tag data).ai = d.ai := rfl
@[simp] theorem emit_pairAt (d : Dev) (u : OutUnit) (chan tag : Nat) (data : List Nat) : (d.emit u chan tag data).pairAt = d.pairAt := rfl
@[simp] theorem emit_sinTickAt (d : Dev) (u : OutUnit) (chan tag : Nat) (data : List Nat) : (d.emit u chan tag data).sinTickAt = d.sinTickAt := rfl
@[simp] theorem emit_disc (d : Dev) (u : OutUnit) (chan tag : Nat) (data : List Nat) : (d.emit u chan tag data).disc = d.disc := rfl
@[simp] theorem emit_sill (d : Dev) (u : OutUnit) (chan tag : Nat) (data : List Nat) : (d.emit u chan tag data).sill = d.sill := rfl
@[simp] theorem emit_ib (d : Dev) (u : OutUnit) (chan tag : Nat) (data : List Nat) : (d.emit u chan tag data).ib = d.ib := rfl
@[simp] theorem emit_tr (d : Dev) (u : OutUnit) (chan tag : Nat) (data : List Nat) : (d.emit u chan tag data).tr = d.tr := rfl
@[simp] theorem emit_dict (d : Dev) (u : OutUnit) (chan tag : Nat) (data : List Nat) : (d.emit u chan tag data).dict = d.dict := rfl
@[simp] theorem emit_eng (d : Dev) (u : OutUnit) (chan tag : Nat) (data : List Nat) : (d.emit u chan tag data).eng = d.eng := rfl
@[simp] theorem emit_greg (d : Dev) (u : OutUnit) (chan tag : Nat) (data : List Nat) : (d.emit u chan tag data).greg = d.greg := rfl
@[simp] theorem emit_vreg (d : Dev) (u : OutUnit) (chan tag : Nat) (data : List Nat) : (d.emit u chan tag data).vreg = d.vreg := rfl
@[simp] theorem emit_shadows (d : Dev) (u : OutUnit) (chan tag : Nat) (data : List Nat) : (d.emit u chan tag data).shadows = d.shadows := rfl
@[simp] theorem emit_lowHeld (d : Dev) (u : OutUnit) (chan tag : Nat) (data : List Nat) : (d.emit u chan tag data).lowHeld = d.lowHeld := rfl
@[simp] theorem emit_dieStopped (d : Dev) (u : OutUnit) (chan tag : Nat) (data : List Nat) : (d.emit u chan tag data).dieStopped = d.dieStopped := rfl
@[simp] theorem emit_sec (d : Dev) (u : OutUnit) (chan tag : Nat) (data : List Nat) : (d.emit u chan tag data).sec = d.sec := rfl
@[simp] theorem emit_dieClk (d : Dev) (u : OutUnit) (chan tag : Nat) (data : List Nat) : (d.emit u chan tag data).dieClk = d.dieClk := rfl
@[simp] theorem emit_pair (d : Dev) (u : OutUnit) (chan tag : Nat) (data : List Nat) : (d.emit u chan tag data).pair = d.pair := rfl
@[simp] theorem emit_pwr (d : Dev) (u : OutUnit) (chan tag : Nat) (data : List Nat) : (d.emit u chan tag data).pwr = d.pwr := rfl
@[simp] theorem emit_flash (d : Dev) (u : OutUnit) (chan tag : Nat) (data : List Nat) : (d.emit u chan tag data).flash = d.flash := rfl
@[simp] theorem emit_rcd (d : Dev) (u : OutUnit) (chan tag : Nat) (data : List Nat) : (d.emit u chan tag data).rcd = d.rcd := rfl
@[simp] theorem emit_mtr (d : Dev) (u : OutUnit) (chan tag : Nat) (data : List Nat) : (d.emit u chan tag data).mtr = d.mtr := rfl
@[simp] theorem emit_start (d : Dev) (u : OutUnit) (chan tag : Nat) (data : List Nat) : (d.emit u chan tag data).start = d.start := rfl

/-! `Dev.bump` -/

@[simp] theorem bump_regs (d : Dev) : d.bump.regs = d.regs := rfl
@[simp] theorem bump_objs (d : Dev) : d.bump.objs = d.objs := rfl
@[simp] theorem bump_mem (d : Dev) : d.bump.mem = d.mem := rfl
@[simp] theorem bump_domb (d : Dev) : d.bump.domb = d.domb := rfl
@[simp] theorem bump_nv (d : Dev) : d.bump.nv = d.nv := rfl
@[simp] theorem bump_nvDom (d : Dev) : d.bump.nvDom = d.nvDom := rfl
@[simp] theorem bump_out (d : Dev) : d.bump.out = d.out := rfl
@[simp] theorem bump_pstate (d : Dev) : d.bump.pstate = d.pstate := rfl
@[simp] theorem bump_time (d : Dev) : d.bump.time = d.time := rfl
@[simp] theorem bump_tmst (d : Dev) : d.bump.tmst = d.tmst := rfl
@[simp] theorem bump_clk (d : Dev) : d.bump.clk = d.clk := rfl
@[simp] theorem bump_porch (d : Dev) : d.bump.porch = d.porch := rfl
@[simp] theorem bump_latch (d : Dev) : d.bump.latch = d.latch := rfl
@[simp] theorem bump_htime (d : Dev) : d.bump.htime = d.htime := rfl
@[simp] theorem bump_gnss (d : Dev) : d.bump.gnss = d.gnss := rfl
@[simp] theorem bump_pose (d : Dev) : d.bump.pose = d.pose := rfl
@[simp] theorem bump_own (d : Dev) : d.bump.own = d.own := rfl
@[simp] theorem bump_frame (d : Dev) : d.bump.frame = d.frame := rfl
@[simp] theorem bump_look (d : Dev) : d.bump.look = d.look := rfl
@[simp] theorem bump_shq (d : Dev) : d.bump.shq = d.shq := rfl
@[simp] theorem bump_led (d : Dev) : d.bump.led = d.led := rfl
@[simp] theorem bump_sol (d : Dev) : d.bump.sol = d.sol := rfl
@[simp] theorem bump_solDie (d : Dev) : d.bump.solDie = d.solDie := rfl
@[simp] theorem bump_lv (d : Dev) : d.bump.lv = d.lv := rfl
@[simp] theorem bump_lvChain (d : Dev) : d.bump.lvChain = d.lvChain := rfl
@[simp] theorem bump_trigLine (d : Dev) : d.bump.trigLine = d.trigLine := rfl
@[simp] theorem bump_hg (d : Dev) : d.bump.hg = d.hg := rfl
@[simp] theorem bump_hgWin (d : Dev) : d.bump.hgWin = d.hgWin := rfl
@[simp] theorem bump_hgWins (d : Dev) : d.bump.hgWins = d.hgWins := rfl
@[simp] theorem bump_hyst (d : Dev) : d.bump.hyst = d.hyst := rfl
@[simp] theorem bump_dioAsk (d : Dev) : d.bump.dioAsk = d.dioAsk := rfl
@[simp] theorem bump_dioIn (d : Dev) : d.bump.dioIn = d.dioIn := rfl
@[simp] theorem bump_groupLow (d : Dev) : d.bump.groupLow = d.groupLow := rfl
@[simp] theorem bump_ls (d : Dev) : d.bump.ls = d.ls := rfl
@[simp] theorem bump_dioOn (d : Dev) : d.bump.dioOn = d.dioOn := rfl
@[simp] theorem bump_loadDie (d : Dev) : d.bump.loadDie = d.loadDie := rfl
@[simp] theorem bump_ai (d : Dev) : d.bump.ai = d.ai := rfl
@[simp] theorem bump_pairAt (d : Dev) : d.bump.pairAt = d.pairAt := rfl
@[simp] theorem bump_sinTickAt (d : Dev) : d.bump.sinTickAt = d.sinTickAt := rfl
@[simp] theorem bump_disc (d : Dev) : d.bump.disc = d.disc := rfl
@[simp] theorem bump_sill (d : Dev) : d.bump.sill = d.sill := rfl
@[simp] theorem bump_ib (d : Dev) : d.bump.ib = d.ib := rfl
@[simp] theorem bump_tr (d : Dev) : d.bump.tr = d.tr := rfl
@[simp] theorem bump_dict (d : Dev) : d.bump.dict = d.dict := rfl
@[simp] theorem bump_eng (d : Dev) : d.bump.eng = d.eng := rfl
@[simp] theorem bump_greg (d : Dev) : d.bump.greg = d.greg := rfl
@[simp] theorem bump_vreg (d : Dev) : d.bump.vreg = d.vreg := rfl
@[simp] theorem bump_shadows (d : Dev) : d.bump.shadows = d.shadows := rfl
@[simp] theorem bump_lowHeld (d : Dev) : d.bump.lowHeld = d.lowHeld := rfl
@[simp] theorem bump_dieStopped (d : Dev) : d.bump.dieStopped = d.dieStopped := rfl
@[simp] theorem bump_sec (d : Dev) : d.bump.sec = d.sec := rfl
@[simp] theorem bump_dieClk (d : Dev) : d.bump.dieClk = d.dieClk := rfl
@[simp] theorem bump_pair (d : Dev) : d.bump.pair = d.pair := rfl
@[simp] theorem bump_pwr (d : Dev) : d.bump.pwr = d.pwr := rfl
@[simp] theorem bump_flash (d : Dev) : d.bump.flash = d.flash := rfl
@[simp] theorem bump_rcd (d : Dev) : d.bump.rcd = d.rcd := rfl
@[simp] theorem bump_mtr (d : Dev) : d.bump.mtr = d.mtr := rfl
@[simp] theorem bump_start (d : Dev) : d.bump.start = d.start := rfl
@[simp] theorem bump_fresh (d : Dev) : d.bump.fresh = d.fresh + 1 := rfl

end Sys2Proof.Laws
end

