-- ==== Sys2Proof/Laws/Ops.lean ====
section
/-! SUPPORT. What the operations over registers, dictionary values and memory do: a read after a write, and the canonical form of
every sparse map. -/
namespace Sys2Proof.Laws
open Sys2Proof.Machine

/-! ## Registers -/

@[simp] theorem rd_wr_same (d : Dev) (a : Nat) (w : Word) : (d.wr a w).rd a = w := get_set_same _ _ _ _

theorem rd_wr_ne (d : Dev) (a b : Nat) (w : Word) (h : b ≠ a) : (d.wr a w).rd b = d.rd b := get_set_ne _ _ _ _ _ h

theorem rd_wr (d : Dev) (a b : Nat) (w : Word) : (d.wr a w).rd b = if b = a then w else d.rd b := by
  split
  · rename_i h
    subst h
    exact rd_wr_same d b w
  · rename_i h
    exact rd_wr_ne d a b w h

theorem rd_setF (d : Dev) (a hi lo v b : Nat) :
    (d.setF a hi lo v).rd b = if b = a then putFld (d.rd a) hi lo v else d.rd b := rd_wr _ _ _ _

theorem rd_setBit (d : Dev) (a i b : Nat) (v : Bool) :
    (d.setBit a i v).rd b = if b = a then putBit (d.rd a) i v else d.rd b := rd_wr _ _ _ _

theorem rd_setF_ne (d : Dev) (a hi lo v b : Nat) (h : b ≠ a) : (d.setF a hi lo v).rd b = d.rd b := rd_wr_ne _ _ _ _ h

theorem rd_setBit_ne (d : Dev) (a i b : Nat) (v : Bool) (h : b ≠ a) : (d.setBit a i v).rd b = d.rd b := rd_wr_ne _ _ _ _ h

theorem f_setF_same (d : Dev) (a hi lo v : Nat) (h : lo ≤ hi) (h32 : hi < 32) :
    (d.setF a hi lo v).f a hi lo = v % 2 ^ (hi + 1 - lo) := by
  simp only [Dev.f, rd_setF, if_true]
  exact fld_put_same _ _ _ _ h h32

theorem bit_setBit_same (d : Dev) (a i : Nat) (b : Bool) (h : i < 32) : (d.setBit a i b).bit a i = b := by
  simp only [Dev.bit, rd_setBit, if_true]
  exact fbit_put_same _ _ _ h

theorem bit_setBit_ne (d : Dev) (a i j : Nat) (b : Bool) (h : i < 32) (hj : j ≠ i) : (d.setBit a i b).bit a j = d.bit a j := by
  simp only [Dev.bit, rd_setBit, if_true]
  exact fbit_put_ne _ _ _ _ h hj

/-! ## Dictionary values -/

@[simp] theorem ob_setOb_same (d : Dev) (k v : Nat) : (d.setOb k v).ob k = v := get_set_same _ _ _ _

theorem ob_setOb_ne (d : Dev) (k j v : Nat) (h : j ≠ k) : (d.setOb k v).ob j = d.ob j := get_set_ne _ _ _ _ _ h

@[simp] theorem ob_wr (d : Dev) (a k : Nat) (w : Word) : (d.wr a w).ob k = d.ob k := rfl
@[simp] theorem rd_setOb (d : Dev) (a k v : Nat) : (d.setOb k v).rd a = d.rd a := rfl

/-! ## Memory -/

@[simp] theorem byte_setByte_same (d : Dev) (a : Nat) (b : Byte) : (d.setByte a b).byte a = b := get_set_same _ _ _ _

theorem byte_setByte_ne (d : Dev) (a x : Nat) (b : Byte) (h : x ≠ a) : (d.setByte a b).byte x = d.byte x :=
  get_set_ne _ _ _ _ _ h

@[simp] theorem byte_wr (d : Dev) (a x : Nat) (w : Word) : (d.wr a w).byte x = d.byte x := rfl

/-- Every byte outside the bytes stored is as before. -/
theorem get_setList_out {α : Type} [DecidableEq α] (f : Nat → α) (vs : List α) (m : SMap α) (k x : Nat)
    (h : x < k ∨ k + vs.length ≤ x) : SMap.get f (SMap.setList f m k vs) x = SMap.get f m x := by
  induction vs generalizing m k with
  | nil => rfl
  | cons v vs ih =>
    have hx : x < k + 1 ∨ k + 1 + vs.length ≤ x := by
      rcases h with h | h
      · left; omega
      · right; simp only [List.length_cons] at h; omega
    have hne : x ≠ k := by
      rcases h with h | h
      · omega
      · simp only [List.length_cons] at h; omega
    simp only [SMap.setList]
    rw [ih _ _ hx, get_set_ne _ _ _ _ _ hne]

/-- The bytes stored are read back, lowest first. -/
theorem getList_setList {α : Type} [DecidableEq α] (f : Nat → α) (vs : List α) (m : SMap α) (k : Nat) :
    SMap.getList f (SMap.setList f m k vs) k vs.length = vs := by
  induction vs generalizing m k with
  | nil => rfl
  | cons v vs ih =>
    simp only [SMap.setList, List.length_cons, SMap.getList]
    rw [ih, get_setList_out _ _ _ _ _ (Or.inl (Nat.lt_succ_self k)), get_set_same]

theorem byte_setBytes_out (d : Dev) (a x : Nat) (bs : List Byte) (h : x < a ∨ a + bs.length ≤ x) :
    (d.setBytes a bs).byte x = d.byte x := get_setList_out _ _ _ _ _ h

theorem bytes_setBytes (d : Dev) (a : Nat) (bs : List Byte) : (d.setBytes a bs).bytes a bs.length = bs := getList_setList _ _ _ _

@[simp] theorem leBytes_length (n v : Nat) : (leBytes v n).length = n := by
  induction n generalizing v with
  | zero => rfl
  | succ n ih => simp [leBytes, ih]

theorem leNat_leBytes (n v : Nat) : leNat (leBytes v n) = v % 256 ^ n := by
  induction n generalizing v with
  | zero => simp [leBytes, leNat, Nat.mod_one]
  | succ n ih =>
    simp only [leBytes, leNat, ih, BitVec.toNat_ofNat]
    rw [show (2 : Nat) ^ 8 = 256 from rfl, Nat.pow_succ, Nat.mul_comm (256 ^ n) 256, Nat.mod_mul]

/-- A load of what a store of the same width and address left. -/
theorem ld_st (d : Dev) (a n v : Nat) : (d.st a n v).ld a n = v % 256 ^ n := by
  have h := bytes_setBytes d a (leBytes v n)
  rw [leBytes_length] at h
  simp only [Dev.ld, Dev.st, h, leNat_leBytes]

/-! ## Canonical form of memory -/

/-- Memory in its canonical form. -/
abbrev MemWf (d : Dev) : Prop := SMap.wf (fun _ => 0) d.mem

theorem setByte_memWf (d : Dev) (a : Nat) (b : Byte) (h : MemWf d) : MemWf (d.setByte a b) := set_wf _ _ _ _ h
theorem setBytes_memWf (d : Dev) (a : Nat) (bs : List Byte) (h : MemWf d) : MemWf (d.setBytes a bs) := setList_wf _ _ _ _ h
theorem st_memWf (d : Dev) (a n v : Nat) (h : MemWf d) : MemWf (d.st a n v) := setBytes_memWf _ _ _ h
theorem clearMem_memWf (d : Dev) (a n : Nat) (h : MemWf d) : MemWf (d.clearMem a n) :=
  keep_wf (fun _ => 0) (fun k => !(decide (a ≤ k) && decide (k < a + n))) d.mem h
theorem reset_memWf : MemWf Dev.reset := ⟨List.Pairwise.nil, fun _ h => absurd h (List.not_mem_nil)⟩

/-! ## Time -/

theorem advance_regs (d : Dev) (t : Nat) : (d.advance t).regs = d.regs := by
  unfold Dev.advance
  split <;> rfl

@[simp] theorem rd_advance (d : Dev) (t a : Nat) : (d.advance t).rd a = d.rd a := by
  simp only [Dev.rd, advance_regs]

/-- FT never goes back (R45). -/
theorem now_advance_le (d : Dev) (t : Nat) : d.now ≤ (d.advance t).now := by
  unfold Dev.advance
  split
  · rename_i h
    simp only [Bool.and_eq_true, decide_eq_true_eq] at h
    show d.now ≤ t * 2 ^ 32 / 2 ^ 32
    rw [Nat.mul_div_cancel _ (Nat.two_pow_pos 32)]
    exact Nat.le_of_lt h.2
  · exact Nat.le_refl _

/-! ## Transom -/

/-- All that sending a message frame can do: its queue is full and it is dropped, it crosses on a lane that is up, or it waits. `d'` has
counted on the free host time that an unaligned frame took. -/
theorem crossOut_cases (d : Dev) (m : TrMsg) :
    let d' := if m.unaligned then d.bump else d
    (d'.crossFull m.kind m.toField = true ∧ d.crossOut m = d'.transomDrop m.lane m.kind (Config.cause 0x7010 5))
    ∨ (d'.crossFull m.kind m.toField = false ∧ ∃ l, d'.laneFor m.lane = some l ∧ d.crossOut m = d'.crossNow m l)
    ∨ (d'.crossFull m.kind m.toField = false ∧ d'.laneFor m.lane = none
        ∧ d.crossOut m = { d' with tr := { d'.tr with held := d'.tr.held ++ [m] } }) := by
  intro d'
  have e : d.crossOut m = if d'.crossFull m.kind m.toField then d'.transomDrop m.lane m.kind (Config.cause 0x7010 5)
      else match d'.laneFor m.lane with
        | some l => d'.crossNow m l
        | none => { d' with tr := { d'.tr with held := d'.tr.held ++ [m] } } := rfl
  rw [e]
  cases h : d'.crossFull m.kind m.toField <;> cases g : d'.laneFor m.lane <;> simp

end Sys2Proof.Laws
end

