-- ==== Sys2Proof/Safety.lean ====
section
/-! DEFINITION. The terms that claims use: the state a command leaves, runs of steps, what counts as safe (nothing the package drives
while a cause of the close state holds), and when an engine issues an instruction. -/
namespace Sys2Proof

open Sys2Proof.Machine

/-! ## States and runs -/

/-- The state that a command leaves: its device behind the close gate, the queue as it was. -/
def after (s : State) (d : Dev) : State := { s with dev := d.closeGate }

/-- `n` steps. -/
def runSteps : Nat → State → Host.Outcome State Fault Refusal
  | 0, s => .next s
  | n + 1, s =>
    match step s with
    | .next s' => runSteps n s'
    | .fault f => .fault f
    | .refused r => .refused r

/-- `x` comes at least a millisecond after `c` and after the present of `d`: past every cycle and tick within which a rule orders the two
against the queue (R20, R143, R193, R238, R291, R311, R388, R435, R504); a command without a field time of its own is ordered against none. -/
def wellAfter (d : Dev) (c x : Instr) : Bool :=
  match timed x with
  | none => true
  | some p => decide (max d.now (((timed c).map (fun q => q.1)).getD 0) + 1000000 ≤ p.1)

/-! ## The close state (R287) -/

/-- No output of the package drives: no solenoid coil, no load switch, no digital output (R287). -/
def Quiet (d : Dev) : Prop :=
  (∀ n, n < 64 → d.energised n = false) ∧ (∀ n, n < 24 → d.lsOn n = false) ∧ (∀ n, n < 32 → d.dioLevel n = false)

/-- CLOSE_STATUS shows the causes that hold (R287). -/
def CloseShown (d : Dev) : Prop := d.hostOn = true → d.rd Reg.CLOSE_STATUS = closeWord d.causesNow

/-- While a cause of the close state holds, no output drives (R287). -/
def ClosedQuiet (d : Dev) : Prop := d.hostOn = true → d.causesNow ≠ 0 → Quiet d

/-- The safety invariant of the package. -/
def CloseSafe (d : Dev) : Prop := CloseShown d ∧ ClosedQuiet d

/-! ## Engines -/

/-- Engine `e` issues an instruction at FT `t`, and its program counter addresses the instruction store (R397, R406, R407, R420). -/
def Issues (s : State) (t e : Nat) : Prop :=
  (s.dev.advance t).issues e = true ∧ inStore ((s.dev.advance t).pcOf e) = true

/-- The device as the issued instruction finds it: the time has come, and a clock-gated engine runs again. -/
def atIssue (s : State) (t e : Nat) : Dev := (s.dev.advance t).ungate e

/-- The program counter moves to the following instruction. -/
def follow (d : Dev) (e : Nat) : Dev := d.setPc e (d.pcOf e + 4)

/-- A master may write a register now: an engine that runs and whose windows reach it, or another master that is not frozen (R22, R420). -/
def MayAct (d : Dev) (m a : Nat) : Prop :=
  (m < engines → d.runs m = true ∧ d.mayWrite m (busAddr a) 4 = true) ∧ (engines ≤ m → d.frozen m = false)

/-! ## Clients -/

/-- A dictionary write of a client that is granted (R29, R356, R361, R380): host power is on, nothing is kept for its Tid, it need not
wait for a lane or for a compaction, the general checks pass, and the object's owner `own` takes it, which leaves `x`. -/
def Granted (d : Dev) (r : Req) (idx sub off : Nat) (data : List Byte) (own : Dev → WRes) (x : Dev) : Prop :=
  let y := d.letThrough r 2 idx sub off data
  d.hostOn = true ∧ d.keptFor r = none ∧ d.mustWait r idx = false
  ∧ y.generalCode r true idx sub off data = 0
  ∧ (y.journalled idx sub && y.dict.compacting) = false
  ∧ own y = (0, x)

/-- What a granted write leaves: the owner's `x` with the answer, or for a journalled object with its journal entry, whose commit the
answer waits for (R379). -/
def served (d : Dev) (r : Req) (idx sub off : Nat) (data : List Byte) (x : Dev) : Dev :=
  let y := d.letThrough r 2 idx sub off data
  if y.journalled idx sub = true then (x.journalWrite y r idx sub off data).holdRequest r 2 idx sub off data
  else x.answer r 2 idx sub off 0 data [] false

/-- `x` is `d` with lane `i` of vector register `vd` of engine `e` at `f i` where `on i` holds; every other lane of every vector
register, and all else but the program counter, which moves on by one instruction, is as before. -/
def LanesSet (d x : Dev) (e vd : Nat) (on : Nat → Bool) (f : Nat → Word) : Prop :=
  (∀ i, i < 16 → x.lane e vd i = if on i then f i else d.lane e vd i)
  ∧ (∀ k, (k < e * 256 + vd * 16 ∨ e * 256 + vd * 16 + 16 ≤ k) → SMap.get (fun _ => 0) x.vreg k = SMap.get (fun _ => 0) d.vreg k)
  ∧ x.pcOf e = (d.pcOf e + 4) % 2 ^ 32
  ∧ x = { d with vreg := x.vreg, eng := x.eng }

end Sys2Proof
end

