-- ==== Sys2Proof/Certificates/Slice0/Obligations.lean ====
section
/-! DEFINITION. The statements for the provers. A clause about a command says the state that it leaves: the right side of each equation
is the effect that the rules named with it give, with its conditions. -/
open Sys2Proof Sys2Proof.Machine Sys2Proof.Laws

/-! ## Steps and the queue -/

/-- A step with a command in front is that command's meaning on the rest of the queue. -/
def Obligations.StepRunsFrontCommand : Prop :=
  ∀ (c : Instr) (s : State), step { s with pending := c :: s.pending } = exec c s

/-- The model's choice for an empty queue (log entry 1): the clock that runs ticks once. -/
def Obligations.EmptyQueueTicks : Prop :=
  ∀ d : Dev, step { dev := d, pending := [] } = .next { dev := d.tick.closeGate, pending := [] }

/-- No state stops the machine, and a step takes exactly the command in front. -/
def Obligations.EveryStepAnswersNext : Prop :=
  ∀ s : State, ∃ s', step s = .next s' ∧ s'.pending = s.pending.tail

/-- The queue is first in, first out: as many steps as there are commands in `cs` take just these and leave the others as they wait; and
what a command does is the same whatever waits behind it, where all that waits comes well after it (`wellAfter`): commands of one cycle
or tick are ordered by the tables of coinciding events (log entry 104). -/
def Obligations.QueueIsFirstInFirstOut : Prop :=
  (∀ (d : Dev) (cs ds : List Instr), ∃ d', runSteps cs.length { dev := d, pending := cs ++ ds } = .next { dev := d', pending := ds })
  ∧ (∀ (d : Dev) (c : Instr) (ds : List Instr), ds.all (wellAfter d c) = true → ∃ d',
    exec c { dev := d, pending := ds } = .next { dev := d', pending := ds }
    ∧ exec c { dev := d, pending := [] } = .next { dev := d', pending := [] })

/-! ## The close state -/

/-- Whatever command ran, CLOSE_STATUS shows the causes that hold, and while one holds no output drives (R287). -/
def Obligations.EveryStepLeavesCloseSafe : Prop :=
  ∀ s s' : State, step s = .next s' → CloseSafe s'.dev

/-- The state after reset is safe in the same sense. -/
def Obligations.ResetIsCloseSafe : Prop := CloseSafe State.reset.dev

/-- CLOSE_STATUS shows each cause at its place: bits 7:0 the pairs, bit 8 the line, bit 9 the host stop, bit 31 the state (R287). -/
def Obligations.CloseStatusShowsCauses : Prop :=
  ∀ d : Dev,
    (∀ p, p < 8 → bitOf d.causesNow p = (d.pairOn p && decide (d.f (Reg.SIN_STATUS p) 1 0 ≠ 1)))
    ∧ bitOf d.causesNow 8 = (d.bit (Reg.ACL_STATUS 0) 2 || d.bit (Reg.ACL_STATUS 1) 2)
    ∧ bitOf d.causesNow 9 = d.bit Reg.TR_STATUS 2
    ∧ d.causesNow < 1024
    ∧ (∀ i, i < 10 → fbit (closeWord d.causesNow) i = bitOf d.causesNow i)
    ∧ fbit (closeWord d.causesNow) 31 = decide (d.causesNow ≠ 0)
    ∧ fld (closeWord d.causesNow) 30 10 = 0

/-- What the gate after every command may change: CLOSE_STATUS, and PHASE of a channel that drives while a cause holds. -/
def Obligations.CloseGateFrame : Prop :=
  ∀ d : Dev,
    (∃ r, d.closeGate = { d with regs := r })
    ∧ (d.hostOn = false → d.closeGate = d)
    ∧ (∀ a, a ≠ Reg.CLOSE_STATUS → (∀ n, n < 64 → a ≠ Reg.SOL_STATUS n) → d.closeGate.rd a = d.rd a)
    ∧ (∀ n, n < 64 → fld (d.closeGate.rd (Reg.SOL_STATUS n)) 31 4 = fld (d.rd (Reg.SOL_STATUS n)) 31 4)
    ∧ (∀ n, n < 64 → d.causesNow = 0 ∨ d.energised n = false → d.closeGate.rd (Reg.SOL_STATUS n) = d.rd (Reg.SOL_STATUS n))

/-- What decides a load switch, first row first: no supply or off by its control, protection, the close state, the stored fail-safe
state, the command source (R265). -/
def Obligations.LoadSwitchFirstRow : Prop :=
  ∀ (d : Dev) (n : Nat), d.lsOn n =
    if d.hostOn = false ∨ d.bit (Reg.LS_CTRL n) 31 = false then false
    else if d.bit (Reg.LS_STATUS n) 30 = true ∨ d.bit (Reg.LS_STATUS n) 21 = true ∨ d.bit (Reg.LS_STATUS n) 20 = true then false
    else if d.bit Reg.CLOSE_STATUS 31 = true then false
    else if d.wdgState (n / 12) = 0 ∨ (d.wdgState (n / 12) = 2 ∧ d.bit (Reg.WDG_CTRL (n / 12)) 31 = false) then
      d.bit (Reg.FS_LS (n / 12)) (n % 12)
    else d.lsDrive n

/-- The same for a 24 V channel in output mode (R265, R275). -/
def Obligations.DigitalOutputFirstRow : Prop :=
  ∀ (d : Dev) (n : Nat), d.dioLevel n =
    if d.hostOn = false ∨ d.dioMode n ≠ 2 then false
    else if d.bit (Reg.DIO_STATUS n) 18 = true ∨ d.bit (Reg.DIO_STATUS n) 17 = true then false
    else if d.bit Reg.CLOSE_STATUS 31 = true then false
    else if d.wdgState (n / 16) = 0 ∨ (d.wdgState (n / 16) = 2 ∧ d.bit (Reg.WDG_CTRL (n / 16)) 31 = false) then
      d.bit (Reg.FS_DIO (n / 16)) (n % 16)
    else d.dioSource n

/-! ## Time -/

/-- One fabric cycle adds 2.5 ns and FT_RATE times 2^-32 ns; the visible FT is the integer part; at the nominal rate it advances by
2 ns and 3 ns on alternate cycles (R42). -/
def Obligations.FabricCycleAddsIncrement : Prop :=
  (∀ d : Dev, d.now = d.time.ft / 2 ^ 32)
  ∧ (∀ d : Dev, d.fabricOn = true → (d.tick.time.ft : Int) = d.time.ft + 5 * 2 ^ 31 + (d.rd Reg.FT_RATE).toInt)
  ∧ (∀ d : Dev, d.fabricOn = true → d.rd Reg.FT_RATE = 0 → d.time.ft % 2 ^ 31 = 0 →
      (d.tick.now = d.now + 2 ∧ d.tick.tick.now = d.now + 5) ∨ (d.tick.now = d.now + 3 ∧ d.tick.tick.now = d.now + 5))

/-- A command's time never sets FT back, moves it only while the fabric clock runs, and changes nothing else (R45). -/
def Obligations.FieldTimeNeverGoesBack : Prop :=
  ∀ (d : Dev) (t : Nat),
    (d.advance t).now = (if d.fabricOn = true then max d.now t else d.now)
    ∧ d.now ≤ (d.advance t).now
    ∧ d.advance t = { d with time := { d.time with ft := (d.advance t).time.ft } }

/-! ## Accesses of masters and clients -/

/-- A register write by a master (R22, R420): an engine that does not run has no effect, one outside its windows is frozen, a frozen
agent has no effect; in every other case the write takes place. -/
def Obligations.MasterAccessJudged : Prop :=
  ∀ (d : Dev) (m a : Nat) (k : Dev → Dev), d.byMaster m a true k =
    if m < engines then
      if d.runs m = false then d
      else if d.mayWrite m (busAddr a) 4 = false then
        (d.louvreWrong m (busAddr a)).freeze m 2 (busAddr a) (d.engine m).pc
      else k d
    else if d.frozen m = true then d
    else k d

/-- Field by field, an ordinary register write takes what its register accepts and leaves the rest; the write is noted as rejected
exactly where a field was not accepted, and then CFG_REJECT of the block is set (R8). -/
def Obligations.RegisterFieldsTakeLegalValues : Prop :=
  (∀ (a : Nat) (r : RegRow) (cur w : Word), regRow a = some r →
    (∀ f ∈ r.fields,
      fld (r.merge cur w).1 f.hi f.lo = if f.accepts (fld w f.hi f.lo) = true then fld w f.hi f.lo else fld cur f.hi f.lo)
    ∧ (r.merge cur w).2 = r.fields.any (fun f => !f.accepts (fld w f.hi f.lo)))
  ∧ (∀ (d : Dev) (m a : Nat) (w : Word) (r : RegRow), regRow a = some r → r.wo = false →
    (r.merge (d.rdM m a) w).2 = true → (d.regStore m a w).bitM m (rejectOf m a).reg (rejectOf m a).bit = true)

/-- A write request of a dictionary object (R29, R356, R361, R379, R380): without host power nothing; a repeated Tid gets its kept
response; then the general checks, the wait for a compaction, the owner's own answer and the journal, in this order. -/
def Obligations.DictionaryWriteJudged : Prop :=
  ∀ (d : Dev) (r : Req) (idx sub off : Nat) (data : List Byte) (own : Dev → WRes),
    d.dictWriteWith r idx sub off data own =
      if d.hostOn = false then d
      else
        match d.keptFor r with
        | some x =>
          if x.content = reqContent 2 idx sub off r.token data then
            d.sendHere r x.status x.code idx sub off x.more x.data
          else (d.incOb Obj.DictAborts).sendHere r 1 0x0302 idx sub off false []
        | none =>
          if d.mustWait r idx = true then d.waitToCross r 2 idx sub off data
          else
          let d := d.letThrough r 2 idx sub off data
          let code := d.generalCode r true idx sub off data
          if code ≠ 0 then d.answer r 2 idx sub off code data [] false
          else if (d.journalled idx sub && d.dict.compacting) = true then
            let w : Waiting := { req := r, op := 2, idx := idx, sub := sub, off := off, data := data, since := d.now }
            ({ d with dict := { d.dict with deferred := d.dict.deferred ++ [w] } } : Dev).answerPending r 2 idx sub off data
          else if (own d).1 ≠ 0 then (own d).2.answer r 2 idx sub off (own d).1 data [] false
          else if d.journalled idx sub = true then
            ((own d).2.journalWrite d r idx sub off data).holdRequest r 2 idx sub off data
          else (own d).2.answer r 2 idx sub off 0 data [] false

/-- The low word of a 64-bit register is read with its high word going to the reader's shadow; the high word returns that shadow
(R391). -/
def Obligations.SixtyFourBitReads : Prop :=
  ∀ (d : Dev) (m a : Nat), ¬(0x40040040 ≤ regPlace a ∧ regPlace a < 0x40040140 ∧ (regPlace a - 0x40040040) % 32 = 0x14) →
    openReg (regPlace a) = false →
    (halfOf (regPlace a) = 1 → (d.regRead m a).2 = d.regView m (regPlace a)
      ∧ (d.regRead m a).1.shadow m = d.highView m (regPlace a))
    ∧ (halfOf (regPlace a) = 2 → d.regRead m a = (d, d.shadow m))

/-! ## The shutter queue -/

/-- Entries of one endpoint at one tick are one firing (R177): an off wins; else a level decides, as an on where one stands beside
it; else the last on. The others are discarded and counted, and the firing carries the deciding entry's marks. The cause of a drop under a
duplicate number is free (log entry 57). -/
def Obligations.SameTickIsOneFiring : Prop :=
  (∀ qs : List QEntry, qs.any (fun q => q.action == 0) = true →
    ∃ q, decides qs = some q ∧ lastOf qs 0 = some q ∧ q ∈ qs ∧ q.action = 0 ∧ firedAction qs q = 0)
  ∧ (∀ qs : List QEntry, qs.any (fun q => q.action == 0) = false → qs.any (fun q => q.action == 2) = true →
    ∃ q, decides qs = some q ∧ lastOf qs 2 = some q ∧ q ∈ qs ∧ q.action = 2
      ∧ firedAction qs q = if qs.any (fun x => x.action == 1) then 1 else 2)
  ∧ (∀ qs : List QEntry, qs.any (fun q => q.action == 0) = false → qs.any (fun q => q.action == 2) = false →
    qs.any (fun q => q.action == 1) = true →
    ∃ q, decides qs = some q ∧ lastOf qs 1 = some q ∧ q ∈ qs ∧ q.action = 1 ∧ firedAction qs q = 1)
  ∧ (∀ (d : Dev) (qs : List QEntry) (q : QEntry) (closing : Bool), d.fireGroup qs q closing =
    let others := qs.filter (fun x => !(x.engine == q.engine && x.handle == q.handle))
    let d := d.addOb Obj.SameTickMergeCount others.length
    let d := others.foldl (fun (d : Dev) x => d.removeEntries x.engine (fun y => y.handle == x.handle)) d
    let cause := if firedAction qs q = 0 then 0 else d.fireCause q closing
    if cause ≠ 0 then
      let told := d.qClass q == 4 && !q.sent && others.any (fun x => x.sent && x.action != 0)
      (if told = true then d.sillOff (d.qOut q) q.fireFt else d).refuseFire q (if cause = 9 then Config.cause 0x3022 9 else cause)
    else (d.removeEntries q.engine (fun y => y.handle == q.handle)).execute q (firedAction qs q))
  ∧ (∀ (d : Dev) (q : QEntry) (e s action : Nat), ∃ a,
    (d.awaitMeasure q e s action).shq.acts = d.shq.acts ++ [a]
      ∧ a.epoch = q.epoch ∧ a.late = q.late ∧ a.handle = q.handle ∧ a.stale = q.stale ∧ a.level = q.level)

/-! ## Events and histograms -/

/-- Parameters stand in order until the first that does not fit in the bytes that remain; TRUNCATED says that one was omitted (R471). -/
def Obligations.ParametersPlacedInOrder : Prop :=
  ∀ (ps : List Param) (room : Nat), ∃ k, k ≤ ps.length
    ∧ placeParams ps room = ((ps.take k).flatMap (fun p => leBytes p.val p.size), decide (k < ps.length))
    ∧ ((ps.take k).map Param.size).sum ≤ room
    ∧ (k < ps.length → room < ((ps.take (k + 1)).map Param.size).sum)

/-- A firmware event: its code and its three parameters as written, TRUNCATED 0; a code below 0xD000 is a reserved encoding (R472). -/
def Obligations.FirmwareEventRecorded : Prop :=
  ∀ (s : State) (t m code : Nat),
    let d := s.dev.advance t
    MayAct d m Reg.EVT_CODE →
    (code % 65536 < 0xD000 → ∃ x, exec (.firmwareEvent t m code) s = .next (after s x)
      ∧ x.bit Reg.REC_STATUS 31 = true ∧ x = d.reject m Reg.EVT_CODE)
    ∧ (0xD000 ≤ code % 65536 → d.rcd.staged.length < stagingRoom → d.bit Reg.DB_FROZEN_DEV 12 = false →
      ∃ x r, exec (.firmwareEvent t m code) s = .next (after s x) ∧ x.rcd.staged = d.rcd.staged ++ [r]
        ∧ r.code = code % 65536 ∧ r.flags = 0
        ∧ r.params = leBytes (d.rdM m (Reg.EVT_P 0)).toNat 4 ++ leBytes (d.rdM m (Reg.EVT_P 1)).toNat 4
            ++ leBytes (d.rdM m (Reg.EVT_P 2)).toNat 4
        ∧ r.ft = d.now)

/-- The bin of a value (R475): 0 below Lower, 31 from Lower + 30 Width, else 1 + floor((x - Lower) / Width); that bin counts one more,
held at 0xFFFF_FFFF, and no other bin changes. -/
def Obligations.HistogramBinCounts : Prop :=
  (∀ lower width x : Int, 0 < width →
    histBin lower width x ≤ 31
    ∧ (histBin lower width x = 0 ↔ x < lower)
    ∧ (histBin lower width x = 31 ↔ lower + 30 * width ≤ x)
    ∧ (∀ k : Nat, 1 ≤ k → k ≤ 30 → (histBin lower width x = k ↔ lower + ((k : Int) - 1) * width ≤ x ∧ x < lower + k * width)))
  ∧ (∀ (bins : List (Nat × Nat)) (b k : Nat),
    (((bumpBin bins b).find? (fun p => p.1 == k)).map (fun p => p.2)).getD 0 =
      let old := ((bins.find? (fun p => p.1 == k)).map (fun p => p.2)).getD 0
      if k = b then min 0xFFFFFFFF (old + 1) else old)

/-! ## Engines -/

/-- An engine that does not issue leaves the device alone but for the time; one whose program counter has left the instruction store
takes fault 3, or is frozen where no window covers the address (R393, R407, R408, R420). -/
def Obligations.InstructionIssue : Prop :=
  ∀ (s : State) (t e : Nat) (k : Dev → Dev), s.instr t e k =
    let d := s.dev.advance t
    if d.issues e = false then .next (after s d)
    else
      let d := atIssue s t e
      if inStore (d.pcOf e) = true then .next (after s (k d))
      else if d.mayRead e (d.pcOf e) = true then .next (after s (d.fault e 3 (d.pcOf e)))
      else .next (after s (d.violate e (d.pcOf e) false))

/-- A frozen engine issues no instruction and takes no interrupt (R420). -/
def Obligations.FrozenEngineDoesNothing : Prop :=
  ∀ (s : State) (t e : Nat), (s.dev.advance t).frozen e = true →
    (s.dev.advance t).issues e = false
    ∧ exec (.interruptEntry t e) s = .next (after s (s.dev.advance t))
    ∧ ∀ k, s.instr t e k = .next (after s (s.dev.advance t))

/-- A freeze (R420, R425): the engine is frozen and no other; it issues nothing; its registers and its program counter stay; the count
goes up and the newest entry of the log says when, which master, why and where. Its release ends it (R424). -/
def Obligations.FreezeTakesEffect : Prop :=
  ∀ (d : Dev) (m cause addr epc means : Nat), m < engines → d.frozen m = false →
    let x := d.freeze m cause addr epc
    x.frozen m = true ∧ x.issues m = false
    ∧ (∀ k, k < engines → k ≠ m → x.frozen k = d.frozen k)
    ∧ x.greg = d.greg ∧ x.vreg = d.vreg ∧ x.eng = d.eng
    ∧ x.rd Reg.DB_COUNT = d.rd Reg.DB_COUNT + 1
    ∧ (∃ y, x.sec.log.head? = some y ∧ y.ft = d.now ∧ y.master = m ∧ y.cause = cause ∧ y.addr = addr ∧ y.epc = epc ∧ y.releaseFt = 0)
    ∧ (x.release m means).frozen m = false

/-- General registers (R390): g0 reads 0 and ignores writes; a write of another changes it and no other, and nothing else. -/
def Obligations.GeneralRegisterWrite : Prop :=
  ∀ (d : Dev) (e n : Nat) (w : Word), n < 32 →
    (∀ x, d.gr x 0 = 0)
    ∧ (n ≠ 0 → (d.setGr e n w).gr e n = w)
    ∧ (n = 0 → d.setGr e n w = d)
    ∧ (∀ x k, k < 32 → (x ≠ e ∨ k ≠ n) → (d.setGr e n w).gr x k = d.gr x k)
    ∧ d.setGr e n w = { d with greg := (d.setGr e n w).greg }

/-- Integer results (R398). A shift by 32 or more has a free value (log entry 12), and a signed quotient or remainder by a number other
than 0 the model's free rounding (log entry 13). -/
def Obligations.IntegerResults : Prop :=
  ∀ (s : State) (t e : Nat) (rd rs1 rs2 : BitVec 5) (imm : BitVec 16), Issues s t e →
    let d := atIssue s t e
    let a := d.gr e rs1.toNat
    let b := d.gr e rs2.toNat
    let gives (i : Instr) (w : Word) : Prop := exec i s = .next (after s (follow (d.setGr e rd.toNat w) e))
    gives (.addR t e rd rs1 rs2) (a + b) ∧ gives (.subR t e rd rs1 rs2) (a - b)
    ∧ gives (.andR t e rd rs1 rs2) (a &&& b) ∧ gives (.orR t e rd rs1 rs2) (a ||| b) ∧ gives (.xorR t e rd rs1 rs2) (a ^^^ b)
    ∧ gives (.shl t e rd rs1 rs2) (if b.toNat < 32 then a <<< b.toNat else Config.wideShift 0 a b)
    ∧ gives (.shr t e rd rs1 rs2) (if b.toNat < 32 then a >>> b.toNat else Config.wideShift 1 a b)
    ∧ gives (.sar t e rd rs1 rs2) (if b.toNat < 32 then a.sshiftRight b.toNat else Config.wideShift 2 a b)
    ∧ gives (.clt t e rd rs1 rs2) (if a.toInt < b.toInt then 1 else 0)
    ∧ gives (.cltu t e rd rs1 rs2) (if a.toNat < b.toNat then 1 else 0)
    ∧ gives (.mul t e rd rs1 rs2) (a * b)
    ∧ gives (.mulhi t e rd rs1 rs2) (mulHigh a b) ∧ gives (.mulhiu t e rd rs1 rs2) (wd (a.toNat * b.toNat / 2 ^ 32))
    ∧ gives (.quo t e rd rs1 rs2) (if b = 0 then 0xFFFFFFFF else quoS a b)
    ∧ gives (.quou t e rd rs1 rs2) (if b = 0 then 0xFFFFFFFF else a / b)
    ∧ gives (.modR t e rd rs1 rs2) (if b = 0 then a else modS a b)
    ∧ gives (.modu t e rd rs1 rs2) (if b = 0 then a else a % b)
    ∧ gives (.min t e rd rs1 rs2) (if b.toInt < a.toInt then b else a)
    ∧ gives (.max t e rd rs1 rs2) (if a.toInt < b.toInt then b else a)
    ∧ gives (.minu t e rd rs1 rs2) (if b.toNat < a.toNat then b else a)
    ∧ gives (.maxu t e rd rs1 rs2) (if a.toNat < b.toNat then b else a)
    ∧ gives (.lzc t e rd rs1) (leadZeros a) ∧ gives (.bitc t e rd rs1) (setBits a)
    ∧ gives (.addk t e rd rs1 imm) (a + imm.signExtend 32)
    ∧ gives (.andk t e rd rs1 imm) (a &&& imm.setWidth 32) ∧ gives (.ork t e rd rs1 imm) (a ||| imm.setWidth 32)
    ∧ gives (.xork t e rd rs1 imm) (a ^^^ imm.setWidth 32)
    ∧ gives (.cltk t e rd rs1 imm) (if a.toInt < imm.toInt then 1 else 0)
    ∧ gives (.hik t e rd imm) (imm.setWidth 32 <<< 16)
    ∧ exec (.shk t e rd rs1 imm) s = .next (after s (
        if bitsOf imm.toNat 6 5 = 3 then d.fault e 1 (d.pcOf e)
        else follow (d.setGr e rd.toNat (
          if bitsOf imm.toNat 6 5 = 0 then a <<< (bitsOf imm.toNat 4 0)
          else if bitsOf imm.toNat 6 5 = 1 then a >>> (bitsOf imm.toNat 4 0)
          else a.sshiftRight (bitsOf imm.toNat 4 0))) e))

/-- Pairs and floats (R390, R398). What the spec leaves open of a float operation is free in the functions named here (log entries 14
to 18); an odd register where a pair is required is an illegal instruction. -/
def Obligations.PairAndFloatResults : Prop :=
  ∀ (s : State) (t e : Nat) (rd rs1 rs2 : BitVec 5), Issues s t e →
    let d := atIssue s t e
    let a := d.gr e rs1.toNat
    let b := d.gr e rs2.toNat
    let pa := d.gp e rs1.toNat
    let pb := d.gp e rs2.toNat
    let even (rs : List (BitVec 5)) : Bool := rs.all (fun r => r.toNat % 2 == 0)
    let gives (i : Instr) (w : Word) : Prop := exec i s = .next (after s (follow (d.setGr e rd.toNat w) e))
    let pair (i : Instr) (rs : List (BitVec 5)) (x : Dev) : Prop :=
      exec i s = .next (after s (if even rs = true then follow x e else d.fault e 1 (d.pcOf e)))
    pair (.addD t e rd rs1 rs2) [rd, rs1, rs2] (d.setGp e rd.toNat ((pa + pb) % 2 ^ 64))
    ∧ pair (.subD t e rd rs1 rs2) [rd, rs1, rs2] (d.setGp e rd.toNat ((pa + 2 ^ 64 - pb) % 2 ^ 64))
    ∧ pair (.cltuD t e rd rs1 rs2) [rs1, rs2] (d.setGr e rd.toNat (if pa < pb then 1 else 0))
    ∧ pair (.cltD t e rd rs1 rs2) [rs1, rs2] (d.setGr e rd.toNat (if sx 64 pa < sx 64 pb then 1 else 0))
    ∧ gives (.fadd t e rd rs1 rs2) (fAdd a b) ∧ gives (.fsub t e rd rs1 rs2) (fSub a b)
    ∧ gives (.fmul t e rd rs1 rs2) (fMul a b) ∧ gives (.fdiv t e rd rs1 rs2) (fDiv a b)
    ∧ gives (.fsqrt t e rd rs1) (fSqrt a)
    ∧ gives (.fmin t e rd rs1 rs2) (fMin a b) ∧ gives (.fmax t e rd rs1 rs2) (fMax a b)
    ∧ gives (.fclt t e rd rs1 rs2) (if fLt a b = true then 1 else 0)
    ∧ gives (.fceq t e rd rs1 rs2) (if fEq a b = true then 1 else 0)
    ∧ gives (.ffromi t e rd rs1) (fOfInt (swd a)) ∧ gives (.ftoi t e rd rs1) (fToWord a)
    ∧ gives (.fang t e rd rs1 rs2) (fAng a b)
    ∧ pair (.fsct t e rd rs1) [rd] ((d.setGr e rd.toNat (fSin a)).setGr e (rd.toNat + 1) (fCos a))

/-- Branches and jumps (R397, R398): offsets count words from the following instruction; the link is its address. -/
def Obligations.BranchesAndJumps : Prop :=
  ∀ (s : State) (t e : Nat) (rd rs1 rs2 : BitVec 5) (off imm : BitVec 16) (far : BitVec 26), Issues s t e →
    let d := atIssue s t e
    let a := d.gr e rs1.toNat
    let b := d.gr e rs2.toNat
    let pc := d.pcOf e
    let dest : Nat := unsx 32 ((pc : Int) + 4 + 4 * off.toInt)
    let long : Nat := unsx 32 ((pc : Int) + 4 + 4 * far.toInt)
    let near : Nat := (a + imm.signExtend 32 * 4).toNat
    let branches (i : Instr) (taken : Bool) : Prop :=
      exec i s = .next (after s (if taken = true then d.setPc e dest else follow d e))
    branches (.breq t e rs1 rs2 off) (decide (a = b)) ∧ branches (.brne t e rs1 rs2 off) (decide (a ≠ b))
    ∧ branches (.brlt t e rs1 rs2 off) (decide (a.toInt < b.toInt)) ∧ branches (.brge t e rs1 rs2 off) (decide (b.toInt ≤ a.toInt))
    ∧ branches (.brltu t e rs1 rs2 off) (decide (a.toNat < b.toNat)) ∧ branches (.brgeu t e rs1 rs2 off) (decide (b.toNat ≤ a.toNat))
    ∧ exec (.go t e far) s = .next (after s (d.setPc e long))
    ∧ exec (.call t e far) s = .next (after s ((d.setGr e 31 (wd (pc + 4))).setPc e long))
    ∧ exec (.gor t e rs1 imm) s = .next (after s (d.setPc e near))
    ∧ exec (.callr t e rd rs1 imm) s = .next (after s ((d.setGr e rd.toNat (wd (pc + 4))).setPc e near))

/-- Scalar loads (R391, R393, R398, R408, R420), in the order in which they are judged: alignment, the windows, a device register,
memory. -/
def Obligations.ScalarLoads : Prop :=
  ∀ (s : State) (t e : Nat) (rd rs1 : BitVec 5) (imm : BitVec 16), Issues s t e →
    let d := atIssue s t e
    let a := (d.gr e rs1.toNat + imm.signExtend 32).toNat
    let loads (i : Instr) (n : Nat) (f : Nat → Word) : Prop := exec i s = .next (after s (
      if a % n ≠ 0 then d.fault e 2 a
      else if d.mayRead e a = false then d.freeze e 1 a (d.pcOf e)
      else if isRegAddr a = true then
        (d.regRead e (a - a % 4)).1.result e rd.toNat (f ((d.regRead e (a - a % 4)).2.toNat / 2 ^ (8 * (a % 4)) % 2 ^ (8 * n)))
      else (d.seen e a).result e rd.toNat (f (d.engLd e a n))))
    loads (.ldw t e rd rs1 imm) 4 wd
    ∧ loads (.ldh t e rd rs1 imm) 2 (fun v => wd (unsx 32 (sx 16 v))) ∧ loads (.ldhu t e rd rs1 imm) 2 wd
    ∧ loads (.ldb t e rd rs1 imm) 1 (fun v => wd (unsx 32 (sx 8 v))) ∧ loads (.ldbu t e rd rs1 imm) 1 wd
    ∧ exec (.ldd t e rd rs1 imm) s = .next (after s (
      if rd.toNat % 2 ≠ 0 then d.fault e 1 (d.pcOf e)
      else if a % 8 ≠ 0 then d.fault e 2 a
      else if d.mayRead e a = false then d.freeze e 1 a (d.pcOf e)
      else if isRegAddr a = true then
        ((d.regReadPair e a).1.setGp e rd.toNat
          ((d.regReadPair e a).2.1.toNat + 2 ^ 32 * (d.regReadPair e a).2.2.toNat)).nextPc e
      else ((d.seen e a).setGp e rd.toNat (d.engLd e a 8)).nextPc e))

/-- Scalar stores (R392, R393, R398, R408, R420). The bytes of a device register's word that a store of fewer than four does not give
are open (log entry 20). -/
def Obligations.ScalarStores : Prop :=
  ∀ (s : State) (t e : Nat) (rd rs1 : BitVec 5) (imm : BitVec 16), Issues s t e →
    let d := atIssue s t e
    let a := (d.gr e rs1.toNat + imm.signExtend 32).toNat
    let v := (d.gr e rd.toNat).toNat
    let stores (i : Instr) (n : Nat) (x : Dev) : Prop := exec i s = .next (after s (
      if a % n ≠ 0 then d.fault e 2 a
      else if d.mayWrite e a n = false then (d.louvreWrong e a).freeze e 2 a (d.pcOf e)
      else if isRegAddr a = true then (x.regEffect e t (a - a % 4) (d.regWord a n v)).nextPc e
      else (d.st (d.engAddr e a) n v).nextPc e))
    stores (.stw t e rd rs1 imm) 4 d ∧ stores (.sth t e rd rs1 imm) 2 d.bump ∧ stores (.stb t e rd rs1 imm) 1 d.bump
    ∧ exec (.std t e rd rs1 imm) s = .next (after s (
      if rd.toNat % 2 ≠ 0 then d.fault e 1 (d.pcOf e)
      else if a % 8 ≠ 0 then d.fault e 2 a
      else if d.mayWrite e a 8 = false then (d.louvreWrong e a).freeze e 2 a (d.pcOf e)
      else if isRegAddr a = true then (d.regPair e t a (wd (d.gp e rd.toNat)) (wd (d.gp e rd.toNat / 2 ^ 32))).nextPc e
      else (d.st (d.engAddr e a) 8 (d.gp e rd.toNat)).nextPc e))

/-- What a store to memory leaves (R390, R394, R398): the bytes at the address that the instruction computes hold the register's value,
lowest first; every other byte, every general and vector register and every device register is as before. -/
def Obligations.StoreFrame : Prop :=
  ∀ (s : State) (t e : Nat) (rd rs1 : BitVec 5) (imm : BitVec 16), Issues s t e →
    let d := atIssue s t e
    let a := (d.gr e rs1.toNat + imm.signExtend 32).toNat
    let leaves (i : Instr) (n v : Nat) : Prop :=
      a % n = 0 → d.mayWrite e a n = true → isRegAddr a = false →
      ∃ x, exec i s = .next (after s x)
        ∧ x.ld (d.engAddr e a) n = v % 256 ^ n
        ∧ (∀ k, (k < d.engAddr e a ∨ d.engAddr e a + n ≤ k) → x.byte k = d.byte k)
        ∧ x.pcOf e = (d.pcOf e + 4) % 2 ^ 32
        ∧ x = { d with mem := x.mem, eng := x.eng }
    leaves (.stw t e rd rs1 imm) 4 (d.gr e rd.toNat).toNat
    ∧ leaves (.sth t e rd rs1 imm) 2 (d.gr e rd.toNat).toNat
    ∧ leaves (.stb t e rd rs1 imm) 1 (d.gr e rd.toNat).toNat
    ∧ (rd.toNat % 2 = 0 → leaves (.std t e rd rs1 imm) 8 (d.gp e rd.toNat))

/-- Atomic operations (R396): the old word goes to rd; an access to a device register is a fault with cause 5. The order of the checks
is the model's (log entry 21). -/
def Obligations.AtomicOperations : Prop :=
  ∀ (s : State) (t e : Nat) (rd rs1 rs2 : BitVec 5), Issues s t e →
    let d := atIssue s t e
    let a := (d.gr e rs1.toNat).toNat
    let b := d.gr e rs2.toNat
    let old := wd (d.engLd e a 4)
    let swaps (i : Instr) (new : Option Word) : Prop := exec i s = .next (after s (
      if a % 4 ≠ 0 then d.fault e 2 a
      else if isRegAddr a = true then d.fault e 5 a
      else if d.mayRead e a = false then d.freeze e 1 a (d.pcOf e)
      else if d.mayWrite e a 4 = false then (d.louvreWrong e a).freeze e 2 a (d.pcOf e)
      else (match new with
        | some w => (d.seen e a).engSt e a 4 w.toNat
        | none => d.seen e a).result e rd.toNat old))
    swaps (.atadd t e rd rs1 rs2) (some (old + b)) ∧ swaps (.atswp t e rd rs1 rs2) (some b)
    ∧ swaps (.atmin t e rd rs1 rs2) (some (if b.toInt < old.toInt then b else old))
    ∧ swaps (.atmax t e rd rs1 rs2) (some (if old.toInt < b.toInt then b else old))
    ∧ swaps (.atcas t e rd rs1 rs2) (if old = d.gr e rd.toNat then some b else none)

/-- Masks (R400): a V-format instruction acts on all lanes where its mask field is 0, else on the lanes that g*m* names, and every other
lane of vd keeps its value; compares, VEXT, VBCAST, VINS and the reductions are never masked; VSEL takes each lane from vs1 or vs2. What
the spec leaves open of an operation is free in the functions named here (log entries 12, 14 to 18, 27, 28). -/
def Obligations.VectorMasks : Prop :=
  ∀ (s : State) (t e : Nat) (vd vs1 vs2 : BitVec 4) (m g lane : BitVec 5), Issues s t e →
    let d := atIssue s t e
    let v1 (i : Nat) : Word := d.lane e vs1.toNat i
    let v2 (i : Nat) : Word := d.lane e vs2.toNat i
    let on (i : Nat) : Bool := decide (m = 0) || bitOf (d.gr e m.toNat).toNat i
    let masked (c : Instr) (f : Nat → Word) : Prop := ∃ x, exec c s = .next (after s x) ∧ LanesSet d x e vd.toNat on f
    let whole (c : Instr) (f : Nat → Word) : Prop := ∃ x, exec c s = .next (after s x) ∧ LanesSet d x e vd.toNat (fun _ => true) f
    let gives (c : Instr) (w : Word) : Prop := exec c s = .next (after s (follow (d.setGr e g.toNat w) e))
    let bits (f : Nat → Bool) (w : Word) : Prop := (∀ i, i < 16 → fbit w i = f i) ∧ w.toNat < 65536
    let compares (c : Instr) (f : Nat → Bool) : Prop := ∃ w, gives c w ∧ bits f w
    let folds (c : Instr) (f : Word → Word → Word) : Prop :=
      gives c ((List.range 15).foldl (fun w i => f w (v1 (i + 1))) (v1 0))
    masked (.vadd t e vd vs1 vs2 m) (fun i => v1 i + v2 i) ∧ masked (.vsub t e vd vs1 vs2 m) (fun i => v1 i - v2 i)
    ∧ masked (.vmul t e vd vs1 vs2 m) (fun i => v1 i * v2 i) ∧ masked (.vmulhi t e vd vs1 vs2 m) (fun i => mulHigh (v1 i) (v2 i))
    ∧ masked (.vand t e vd vs1 vs2 m) (fun i => v1 i &&& v2 i) ∧ masked (.vor t e vd vs1 vs2 m) (fun i => v1 i ||| v2 i)
    ∧ masked (.vxor t e vd vs1 vs2 m) (fun i => v1 i ^^^ v2 i)
    ∧ masked (.vshl t e vd vs1 vs2 m) (fun i => if (v2 i).toNat < 32 then v1 i <<< (v2 i).toNat else Config.wideShift 0 (v1 i) (v2 i))
    ∧ masked (.vshr t e vd vs1 vs2 m) (fun i => if (v2 i).toNat < 32 then v1 i >>> (v2 i).toNat else Config.wideShift 1 (v1 i) (v2 i))
    ∧ masked (.vsar t e vd vs1 vs2 m)
        (fun i => if (v2 i).toNat < 32 then (v1 i).sshiftRight (v2 i).toNat else Config.wideShift 2 (v1 i) (v2 i))
    ∧ masked (.vmin t e vd vs1 vs2 m) (fun i => if (v2 i).toInt < (v1 i).toInt then v2 i else v1 i)
    ∧ masked (.vmax t e vd vs1 vs2 m) (fun i => if (v1 i).toInt < (v2 i).toInt then v2 i else v1 i)
    ∧ masked (.vminu t e vd vs1 vs2 m) (fun i => if (v2 i).toNat < (v1 i).toNat then v2 i else v1 i)
    ∧ masked (.vmaxu t e vd vs1 vs2 m) (fun i => if (v1 i).toNat < (v2 i).toNat then v2 i else v1 i)
    ∧ masked (.vfadd t e vd vs1 vs2 m) (fun i => fAdd (v1 i) (v2 i)) ∧ masked (.vfsub t e vd vs1 vs2 m) (fun i => fSub (v1 i) (v2 i))
    ∧ masked (.vfmul t e vd vs1 vs2 m) (fun i => fMul (v1 i) (v2 i)) ∧ masked (.vfdiv t e vd vs1 vs2 m) (fun i => fDiv (v1 i) (v2 i))
    ∧ masked (.vfma t e vd vs1 vs2 m) (fun i => fMulAdd (v1 i) (v2 i) (d.lane e vd.toNat i))
    ∧ masked (.vfmin t e vd vs1 vs2 m) (fun i => fMin (v1 i) (v2 i)) ∧ masked (.vfmax t e vd vs1 vs2 m) (fun i => fMax (v1 i) (v2 i))
    ∧ masked (.vfsqrt t e vd vs1 m) (fun i => fSqrt (v1 i)) ∧ masked (.vffromi t e vd vs1 m) (fun i => fOfInt (swd (v1 i)))
    ∧ masked (.vftoi t e vd vs1 m) (fun i => fToWord (v1 i))
    ∧ (vd.toNat % 2 = 0 → ∃ x y, exec (.vfsct t e vd vs1 m) s = .next (after s y)
        ∧ LanesSet d x e vd.toNat on (fun i => fSin (v1 i))
        ∧ LanesSet { x with eng := d.eng } y e (vd.toNat + 1) on (fun i => fCos (v1 i)))
    ∧ (vd.toNat % 2 = 1 → exec (.vfsct t e vd vs1 m) s = .next (after s (d.fault e 1 (d.pcOf e))))
    ∧ whole (.vsel t e vd vs1 vs2 m) (fun i => if bitOf (d.gr e m.toNat).toNat i = true then v1 i else v2 i)
    ∧ compares (.vceq t e g vs1 vs2) (fun i => decide (v1 i = v2 i))
    ∧ compares (.vclt t e g vs1 vs2) (fun i => decide ((v1 i).toInt < (v2 i).toInt))
    ∧ compares (.vcltu t e g vs1 vs2) (fun i => decide ((v1 i).toNat < (v2 i).toNat))
    ∧ compares (.vfclt t e g vs1 vs2) (fun i => fLt (v1 i) (v2 i)) ∧ compares (.vfceq t e g vs1 vs2) (fun i => fEq (v1 i) (v2 i))
    ∧ whole (.vbcast t e vd g) (fun _ => d.gr e g.toNat)
    ∧ (lane.toNat ≤ 15 → (∃ x, exec (.vins t e vd g lane) s = .next (after s x)
          ∧ LanesSet d x e vd.toNat (fun i => decide (i = lane.toNat)) (fun _ => d.gr e g.toNat))
        ∧ gives (.vext t e g vs1 lane) (v1 lane.toNat))
    ∧ (15 < lane.toNat → exec (.vins t e vd g lane) s = .next (after s (d.fault e 1 (d.pcOf e)))
        ∧ exec (.vext t e g vs1 lane) s = .next (after s (d.fault e 1 (d.pcOf e))))
    ∧ folds (.vredadd t e g vs1) (· + ·)
    ∧ folds (.vredmin t e g vs1) (fun a b => if b.toInt < a.toInt then b else a)
    ∧ folds (.vredmax t e g vs1) (fun a b => if a.toInt < b.toInt then b else a)
    ∧ folds (.vredminu t e g vs1) (fun a b => if b.toNat < a.toNat then b else a)
    ∧ folds (.vredmaxu t e g vs1) (fun a b => if a.toNat < b.toNat then b else a)

/-- Vector memory instructions (R399, R401): the lane addresses, the faults with cause 4, the windows. Lanes of VSTS that meet at one
address leave the word of one of them (log entry 22). -/
def Obligations.VectorMemory : Prop :=
  ∀ (s : State) (t e : Nat) (vd aux4 : BitVec 4) (base aux : BitVec 5) (imm : BitVec 9), Issues s t e →
    let d := atIssue s t e
    let block := (d.gr e base.toNat + imm.signExtend 32 * 64).toNat
    let stride (i : Nat) : Nat := (d.gr e base.toNat + imm.signExtend 32 * 4 + wd i * d.gr e aux.toNat).toNat
    let gather (i : Nat) : Nat := (d.gr e base.toNat + imm.signExtend 32 * 4 + d.lane e aux4.toNat i).toNat
    let bad (f : Nat → Nat) : Option Nat := ((List.range 16).map f).find? (fun a => a % 4 != 0 || decide (0x10000 ≤ a))
    let reads (f : Nat → Nat) : Dev :=
      match bad f with
      | some a => d.fault e 4 a
      | none => (d.setLanes e vd.toNat 0xFFFF (fun i => wd (d.engLd e (f i) 4))).nextPc e
    exec (.vld t e vd base imm) s = .next (after s (
      if block % 64 ≠ 0 ∨ isRegAddr block = true then d.fault e 4 block
      else if d.mayRead e block = false then d.freeze e 1 block (d.pcOf e)
      else ((d.seen e block).setLanes e vd.toNat 0xFFFF (fun i => wd (d.engLd e (block + 4 * i) 4))).nextPc e))
    ∧ exec (.vst t e vd base imm) s = .next (after s (
      if block % 64 ≠ 0 ∨ isRegAddr block = true then d.fault e 4 block
      else if d.mayWrite e block 64 = false then (d.louvreWrong e block).freeze e 2 block (d.pcOf e)
      else ((List.range 16).foldl (fun (x : Dev) i => x.engSt e (block + 4 * i) 4 (d.lane e vd.toNat i).toNat) d).nextPc e))
    ∧ exec (.vlds t e vd base aux imm) s = .next (after s (reads stride))
    ∧ exec (.vgath t e vd base aux4 imm) s = .next (after s (reads gather))
    ∧ exec (.vsts t e vd base aux imm) s = .next (after s (
      match bad stride with
      | some a => d.fault e 4 a
      | none =>
        match ((List.range 16).map stride).find? (fun a => !d.mayWrite e a 4) with
        | some a => (d.louvreWrong e a).freeze e 2 a (d.pcOf e)
        | none =>
          ((List.range 16).foldl (fun (x : Dev) i => x.engSt e (stride i) 4 (d.laneStored e vd.toNat stride (stride i))) d.bump).nextPc e))

/-- Queue and Latch primitives (R402, R418): the registers they write, their command, and where the result goes; odd registers are
illegal. A primitive whose own command froze the engine leaves the staged registers as they were (log entry 23). -/
def Obligations.Primitives : Prop :=
  ∀ (s : State) (t e : Nat) (ga gb : BitVec 5), Issues s t e →
    let d := atIssue s t e
    let odd : Bool := !(ga.toNat % 2 == 0 && gb.toNat % 2 == 0)
    let illegal : Dev := d.fault e 1 (d.pcOf e)
    let staged : Dev :=
      let d1 := d.regEffect e t Reg.SHQ_FT_LO (d.gr e ga.toNat)
      let d2 := d1.regEffect e t (Reg.SHQ_FT_LO + 4) (d.gr e (ga.toNat + 1))
      let d3 := d2.regEffect e t Reg.SHQ_ARG (d.gr e gb.toNat)
      d3.regEffect e t Reg.SHQ_EPOCH (wd (fld (d.gr e (gb.toNat + 1)) 15 0))
    let named (x : Dev) (hi lo n : Nat) : Dev := x.regEffect e t Reg.SHQ_HANDLE (wd (fld (d.gr e n) hi lo))
    let result (x : Dev) : Dev :=
      if x.frozen e = true then x
      else
        let y := x.setGr e gb.toNat (x.rdM e Reg.SHQ_RESULT)
        (if fld (x.rdM e Reg.SHQ_RESULT) 23 20 ≤ 1 then y.setGp e ga.toNat (x.rd64M e Reg.SHQ_FIRE_LO) else y).nextPc e
    let latch (ws : List Nat) (k : Dev) : Dev :=
      match ws.find? (fun a => !d.mayWrite e a 4) with
      | some a => (d.louvreWrong e a).freeze e 2 a (d.pcOf e)
      | none => if d.mayRead e Reg.LAT_RESULT = true then k else d.freeze e 1 Reg.LAT_RESULT (d.pcOf e)
    exec (.qput t e ga gb) s = .next (after s (
      if odd = true then illegal else result ((staged.shqCmd e 1).unstage e d qStaged)))
    ∧ exec (.qrep t e ga gb) s = .next (after s (
      if odd = true then illegal else result (((named staged 31 16 (gb.toNat + 1)).shqCmd e 3).unstage e d qStaged)))
    ∧ exec (.qwd t e ga) s = .next (after s (
      let x := ((named d 15 0 ga.toNat).shqCmd e 2).unstage e d [Reg.SHQ_HANDLE]
      if x.frozen e = true then x else x.result e ga.toNat (x.rdM e Reg.SHQ_RESULT)))
    ∧ exec (.latr t e ga gb) s = .next (after s (
      if odd = true then illegal
      else latch [Reg.LAT_TGT_LO, Reg.LAT_TGT_LO + 4, Reg.LAT_PERIOD, Reg.LAT_CMD] (
        let x := ((((d.regEffect e t Reg.LAT_TGT_LO (d.gr e ga.toNat)).regEffect e t (Reg.LAT_TGT_LO + 4)
          (d.gr e (ga.toNat + 1))).regEffect e t Reg.LAT_PERIOD (d.gr e gb.toNat)).latCmd e (2 ^ 30))
        x.result e gb.toNat (x.rdM e Reg.LAT_RESULT))))
    ∧ exec (.latc t e ga) s = .next (after s (
      latch [Reg.LAT_CMD] (
        let x := d.latCmd e (2 ^ 31 + fld (d.gr e ga.toNat) 2 0)
        x.result e ga.toNat (x.rdM e Reg.LAT_RESULT))))

/-- Interrupt enable, return, sleep, synchronisation and breakpoint (R402, R406 to R408). -/
def Obligations.InterruptAndSleep : Prop :=
  ∀ (s : State) (t e : Nat), Issues s t e →
    let d := atIssue s t e
    let sleep (x : Dev) : Dev :=
      if x.irqNow e = 0 then
        let y := (x.nextPc e).setBitM e Reg.ENG_STATUS 0 true
        y.setEngine e { (y.engine e) with gated := true }
      else x.nextPc e
    exec (.ien t e) s = .next (after s ((d.setBitM e Reg.ENG_CTRL 16 true).nextPc e))
    ∧ exec (.idis t e) s = .next (after s ((d.setBitM e Reg.ENG_CTRL 16 false).nextPc e))
    ∧ exec (.iret t e) s = .next (after s (
        ((d.setBitM e Reg.ENG_STATUS 1 false).setBitM e Reg.ENG_CTRL 16 true).setPc e (d.rdM e Reg.EPC).toNat))
    ∧ exec (.wait t e) s = .next (after s (sleep d))
    ∧ exec (.fdone t e) s = .next (after s (sleep (d.frmDone e)))
    ∧ exec (.sync t e) s = .next (after s (follow d e))
    ∧ exec (.brk t e) s = .next (after s (d.fault e 6 (d.pcOf e)))

/-- A fault taken outside a handler (R408): its registers, the return address, IE and HANDLER, and the place in the vector table. -/
def Obligations.FaultEntry : Prop :=
  ∀ (d : Dev) (e cause addr : Nat), e < engines → cause < 16 → d.handler e = false →
    let x := d.fault e cause addr
    x.fM e Reg.FAULT_CAUSE 3 0 = cause
    ∧ x.rdM e Reg.FAULT_ADDR = wd addr
    ∧ x.rdM e Reg.EPC = wd (d.pcOf e)
    ∧ x.handler e = true
    ∧ x.ie e = false
    ∧ x.bitM e Reg.ENG_STATUS 30 = true
    ∧ x.pcOf e = ((d.rdM e Reg.IRQ_BASE).toNat + 0xF0) % 2 ^ 32

/-- An interrupt (R406): taken with IE 1, outside a handler, for the lowest enabled pending source. -/
def Obligations.InterruptTaken : Prop :=
  ∀ (s : State) (t e : Nat), e < engines →
    let d := s.dev.advance t
    d.runs e = true → d.ie e = true → d.handler e = false → d.irqNow e ≠ 0 →
    ∃ x b, exec (.interruptEntry t e) s = .next (after s x)
      ∧ b < 14 ∧ bitOf (d.irqNow e) b = true ∧ (∀ i, i < b → bitOf (d.irqNow e) i = false)
      ∧ x.rdM e Reg.EPC = wd (d.pcOf e) ∧ x.handler e = true ∧ x.ie e = false
      ∧ x.pcOf e = ((d.rdM e Reg.IRQ_BASE).toNat + 16 * b) % 2 ^ 32

/-! ## Reset -/

/-- Reset values that the register tables give, in the state after reset. -/
def Obligations.ResetRegisters : Prop :=
  let d := State.reset.dev
  State.reset.pending = [] ∧ d.pstate = .off
  ∧ (∀ e, e < engines → d.rdM e Reg.ENG_TMR_LO = 0xFFFFFFFF ∧ d.rdM e Reg.ENG_TMR_HI = 0xFFFFFFFF
      ∧ d.rdM e Reg.IRQ_BASE = 0x00160000 ∧ d.ie e = false ∧ d.rdM e Reg.IRQ_EN = 0)
  ∧ (∀ e n, d.gr e n = 0) ∧ (∀ e r i, d.lane e r i = 0)

/-! ## What every command does, family by family -/

/-- Every register access of a master, engine signal, frame start and Latch firing answers a next state behind the close gate, with the queue as it was, and the device that the right side spells out: what the rules named before each clause give it, and where its condition does not hold no change but the time. What the spec leaves open at these points is the model's choice (log entries 25, 33 to 37, 42, 52). -/
def Obligations.EngineSignalCommands : Prop :=
  -- REGISTER_WRITE (R8)
  (∀ (s : State) (t m a : Nat) (w : Word), exec (.registerWrite t m a w) s = .next (after s (
    let both : Bool := busAddr a == Reg.START_CMD && fld w 1 0 == 1 && s.pending.any (failsNow t);
    ((s.dev.advance t).kickFirst s.pending a).regWrite t m a (if both then 2 else w)))) ∧
  -- LOW_WORD_READ (R391)
  (∀ (s : State) (t m a : Nat), exec (.lowWordRead t m a) s = .next (after s (
    let d : Dev := s.dev.advance t
    if halfOf (regPlace a) = 1 then
      d.byMaster m a false (fun (d : Dev) =>
        let r := d.regRead m a
        r.1.emit .bus m 0 [a, r.2.toNat])
    else d))) ∧
  -- LATCH_FIRE (R67)
  (∀ (s : State) (t slot : Nat), exec (.latchFire t slot) s = .next (after s (
    let d : Dev := s.dev.advance t
    let xs := s.soon d
    if d.latchDue slot then (((d.abandonAhead xs).remapSwitches).fireDue xs).latchFire slot else d))) ∧
  -- LATCH_COPIES_DONE (R405)
  (∀ (s : State) (t : Nat), exec (.latchCopiesDone t) s = .next (after s (
    let d : Dev := s.dev.advance t
    let last := match d.latch.history.head? with
      | some p => p.2
      | none => 0
    if d.latch.copiesDue && decide (last + 2000 ≤ d.now) then d.latchCopiesDone else d))) ∧
  -- FRAME_START (R147)
  (∀ (s : State) (t : Nat), exec (.frameStart t) s = .next (after s (
    let d : Dev := s.dev.advance t;
    (if d.frameDue && d.now == t then d.abandonAhead (s.soon d) else d).frameStart t))) ∧
  -- INTERRUPT_ENTRY (R406)
  (∀ (s : State) (t e : Nat), exec (.interruptEntry t e) s = .next (after s (
    let d : Dev := s.dev.advance t
    if d.runs e && d.irqTaken e then (d.ungate e).irqEntry e else d))) ∧
  -- ENG_TIMER_MATCH (R405)
  (∀ (s : State) (t e : Nat), exec (.engTimerMatch t e) s = .next (after s (
    let d : Dev := s.dev.advance t
    let x := d.engine e
    if d.fabricOn && x.running && !x.tmrDone && decide (d.rd64M e Reg.ENG_TMR_LO ≤ d.now) then
      (d.raise e 2).setEngine e { x with tmrDone := true }
    else d))) ∧
  -- ENG_DOORBELL (R405)
  (∀ (s : State) (t m mask : Nat), exec (.engDoorbell t m mask) s = .next (after s (
    (s.dev.advance t).byMaster m Reg.ENG_DOORBELL_REG true (fun (d : Dev) =>
      let w : Word := (wd mask);
      (List.range 16).foldl (fun (d : Dev) i =>
      if fbit w i then
        let e := 16 * (m / 16) + i;
        (d.raise e 3).setBitM e Reg.ENG_DOORBELL_SRC (m % 16) true
      else d) d))))

/-- Every dictionary request, transport event and journal event answers a next state behind the close gate, with the queue as it was, and the device that the right side spells out: what the rules named before each clause give it, and where its condition does not hold no change but the time. What the spec leaves open at these points is the model's choice (log entries 34, 75 to 82, 117). -/
def Obligations.DictionaryCommands : Prop :=
  -- DICT_READ (R356)
  (∀ (s : State) (t : Nat) (r : Req) (idx sub off : Nat) (data : List Byte), exec (.dictRead t r idx sub off data) s = .next (after s (
    let d : Dev := s.dev.advance t
    d.withRequest r 1 idx sub off data (fun (d : Dev) =>
    let code := d.generalCode r false idx sub off data
    if code ≠ 0 then d.answer r 1 idx sub off code data [] false else d.performRead r idx sub off data)))) ∧
  -- DICT_WRITE (R356)
  (∀ (s : State) (t : Nat) (r : Req) (idx sub off : Nat) (data : List Byte), exec (.dictWrite t r idx sub off data) s = .next (after s (
    let d : Dev := s.dev.advance t
    if (idx = 0x4001 ∧ sub = 7 ∧ leNat data = 1) ∨ (idx = 0x2003 ∧ sub = 2) then
      d.behindRemaps (s.soon d) (fun (d : Dev) => (d.dictWrite t r idx sub off data).serveHeld t idx sub s.pending)
    else if d.ackTooSoon s.pending t idx sub data = true then d.dictWriteWith r idx sub off data (fun (d : Dev) => d.no 0x0401)
    else if s.pending.any (lowerWrite t (transportNum r.transport) idx sub) = true then
      let w : Waiting := { req := r, op := 2, idx := idx, sub := sub, off := off, data := data, since := d.now }
      { d with dict := { d.dict with held := d.dict.held ++ [w] } }
    else (d.dictWrite t r idx sub off data).serveHeld t idx sub s.pending))) ∧
  -- DICT_WRITE (R356)
  (∀ (s : State) (t : Nat) (r : Req) (idx sub off : Nat) (data : List Byte), exec (.dictWrite t r idx sub off data) s = .next (after s (
    let d : Dev := s.dev.advance t
    if (idx = 0x4001 ∧ sub = 7 ∧ leNat data = 1) ∨ (idx = 0x2003 ∧ sub = 2) then
      d.behindRemaps (s.soon d) (fun (d : Dev) => (d.dictWrite t r idx sub off data).serveHeld t idx sub s.pending)
    else if d.ackTooSoon s.pending t idx sub data = true then d.dictWriteWith r idx sub off data (fun (d : Dev) => d.no 0x0401)
    else if s.pending.any (lowerWrite t (transportNum r.transport) idx sub) = true then
      let w : Waiting := { req := r, op := 2, idx := idx, sub := sub, off := off, data := data, since := d.now }
      { d with dict := { d.dict with held := d.dict.held ++ [w] } }
    else (d.dictWrite t r idx sub off data).serveHeld t idx sub s.pending))) ∧
  -- DICT_CANCEL (R356)
  (∀ (s : State) (t : Nat) (r : Req) (idx sub : Nat), exec (.dictCancel t r idx sub) s = .next (after s (
    let d : Dev := s.dev.advance t
    let off : Nat := 0
    if !d.hostOn then d
    else
      let code := d.askCode r .cancel idx sub off []
      let d := d.touch r
      if code ≠ 0 then d.turnAway r idx sub off code
      else
        let hit : Bool := d.dict.fwQueue.any (fun w => w.named r) || d.dict.deferred.any (fun w => w.named r)
          || d.dict.crossing.any (fun w => w.named r)
        let d : Dev := if hit then
            { d with dict := { d.dict with
              fwQueue := d.dict.fwQueue.filter (fun w => !w.named r)
              deferred := d.dict.deferred.filter (fun w => !w.named r)
              crossing := d.dict.crossing.filter (fun w => !w.named r)
              kept := d.dict.kept.filter (fun k => !(k.client == clientOf r && k.tid == r.tid && k.status == 2)) } }
          else d
        (d.incOb Obj.DictRequests).sendHere r 0 0 idx sub off false []))) ∧
  -- DICT_PENDING_STATUS (R356)
  (∀ (s : State) (t : Nat), exec (.dictPendingStatus t) s = .next (after s (
    let d : Dev := s.dev.advance t
    if d.hostOn then d.working.foldl Dev.pendingAnswer d else d))) ∧
  -- CAN_TRANSFER_FRAME (R357)
  (∀ (s : State) (t port id : Nat) (b : List Byte), exec (.canTransferFrame t port id b) s = .next (after s (
    let d : Dev := s.dev.advance t
    let d := d.lateXfers
    let client := id % 256
    if !d.hostOn || decide (2 ≤ port) || d.objVal 0 0x1110 (port + 1) == 0 || decide (d.canRoom port < b.length) then d
    else if id ≠ 0x18EF0000 + 256 * d.objVal 0 0x1111 (port + 1) + client ∨ byteAt b 1 ≠ 0xD7 then
      d.emit .hostFw port id (natsOf b)
    else d.transferFrame t port client b))) ∧
  -- CAN_TRANSFER_TIMEOUT (R357)
  (∀ (s : State) (t : Nat), exec (.canTransferTimeout t) s = .next (after s (
    let d : Dev := s.dev.advance t
    let late (at_ : Nat) : Bool := decide (at_ + d.ob Obj.TransferTimeout * 1000000 < d.now)
    let old := (d.dict.xfers.filter (fun x => late x.lastAt)).map (fun x => (x.port, x.client, leAt x.data 2 2))
      ++ (d.dict.txs.filter (fun x => late x.lastAt)).map (fun x => (x.port, x.client, x.tid))
    let d : Dev := { d with dict := { d.dict with
      xfers := d.dict.xfers.filter (fun x => !late x.lastAt), txs := d.dict.txs.filter (fun x => !late x.lastAt) } }
    old.foldl (fun (d : Dev) x => (d.incOb Obj.TransfersTimedOut).event 4 0x7014 [.h x.1, .w x.2.1, .h x.2.2]) d))) ∧
  -- STAGED_VALUE_EXPIRE (R376)
  (∀ (s : State) (t : Nat), exec (.stagedValueExpire t) s = .next (after s ((s.dev.advance t).expireStaged))) ∧
  -- LANE_RETRAIN (R345)
  (∀ (s : State) (t lane : Nat) (locked : Bool), exec (.laneRetrain t lane locked) s = .next (after s (
    ((s.dev.advance t).retrain lane locked).lanesServe t))) ∧
  -- UDP_DATAGRAM_RX (R354)
  (∀ (s : State) (t port : Nat) (x : HostIn), exec (.udpDatagramRx t port x) s = .next (after s (
    let d : Dev := s.dev.advance t
    let p : Nat := port
    if !d.hostOn || decide (3 ≤ p) then d
    else
      match x with
      | .udp src dst srcPort port b => if d.takesIp p dst then d.datagram t p src srcPort port b else d
      | .echo src dst ident seq b => if dst = d.hostIp p then d.emit .eth p 0 (src :: ident :: seq :: natsOf b) else d
      | .arp sender target => if target = d.hostIp p then d.emit .eth p 1 [sender, target] else d))) ∧
  -- CONFIG_JOURNAL_COMMIT (R379)
  (∀ (s : State) (t : Nat) (ok : Bool), exec (.configJournalCommit t ok) s = .next (after s (
    let d : Dev := s.dev.advance t
    match d.dict.journal with
    | [] => d
    | j :: rest =>
      let d : Dev := { d with dict := { d.dict with journal := rest } }
      if ok then
        let d := (d.journalStore j).incOb Obj.ConfigWriteCount
        let d : Dev := { d with dict := { d.dict with entries := d.dict.entries + 1 } };
        (d.compactStart.answerJournal j 0).hostPortTakes j
      else
        let d := ((d.journalUndo t j).incOb Obj.ConfigWriteFailures).event 1 0x7018 [.h j.idx, .h j.sub]
        d.answerJournal j 0x0701))) ∧
  -- CONFIG_COMPACTION_DONE (R380)
  (∀ (s : State) (t : Nat), exec (.configCompactionDone t) s = .next (after s (
    let d : Dev := s.dev.advance t
    if !d.dict.compacting then d
    else
      let half := 1 - d.dict.half
      let n := d.nv.length
      let waiting := d.dict.deferred
      let d : Dev := { d with dict := { d.dict with half := half, entries := n, compacting := false, deferred := [] } }
      let d := d.event 1 0x701A [.w n, .h half]
      waiting.foldl (fun (d : Dev) w => d.performWrite t w.req w.idx w.sub w.off w.data) d))) ∧
  -- RESTORE_DEFAULTS (R381)
  (∀ (s : State) (t : Nat) (r : Req), exec (.restoreDefaults t r) s = .next (after s (
    (s.dev.advance t).dictVal r 0x1005 2 1 1 (fun (d : Dev) => d.writeRestore r 1)))) ∧
  -- PACKAGE_NUMBER_WRITE (R383)
  (∀ (s : State) (t : Nat) (r : Req) (v : Nat), exec (.packageNumberWrite t r v) s = .next (after s (
    (s.dev.advance t).dictVal r 0x1002 1 2 v (fun (d : Dev) => d.writeNumber v))))

/-- Every command of field time, of the clocks and of the Latch answers a next state behind the close gate, with the queue as it was, and the device that the right side spells out: what the rules named before each clause give it, and where its condition does not hold no change but the time. What the spec leaves open at these points is the model's choice (log entries 39, 41 to 46, 111). -/
def Obligations.FieldTimeCommands : Prop :=
  -- REF_OSC_REQUEST (R40)
  (∀ (s : State) (block : Nat), exec (.refOscRequest block) s = .next (after s (
    if s.dev.pstate = .off then s.dev else s.dev.oscRequest block))) ∧
  -- REF_OSC_STABLE (R40)
  (∀ (s : State), exec .refOscStable s = .next (after s (
    let d : Dev := s.dev
    if d.clk.oscRunning then { d with clk := { d.clk with oscStable := true } } else d))) ∧
  -- REF_OSC_STOP (R40)
  (∀ (s : State) (k : Nat), exec (.refOscStop k) s = .next (after s ((s.dev.advanceTicks k).oscStop))) ∧
  -- GNSS_SAMPLE_SUBMIT (R522)
  (∀ (s : State) (t m num : Nat), exec (.gnssSampleSubmit t m num) s = .next (after s (
    let d : Dev := s.dev.advance t
    d.byMaster m Reg.GNSS_CTRL true (fun (d : Dev) => d.gnssCtrl m (wd (2 ^ 31 + num % 65536)))))) ∧
  -- GNSS_SOURCE_INVALIDATE (R46)
  (∀ (s : State) (t m num : Nat), exec (.gnssSourceInvalidate t m num) s = .next (after s (
    let d : Dev := s.dev.advance t
    d.byMaster m Reg.GNSS_CTRL true (fun (d : Dev) => d.gnssCtrl m (wd (num % 65536)))))) ∧
  -- REFERENCE_MESSAGE_RX (R54)
  (∀ (s : State) (t bus sender capture txPrev round cls flags check : Nat), exec (.referenceMessageRx t bus sender capture txPrev round cls flags check) s = .next (after s (
    let d : Dev := s.dev.advance t
    let m : RefMsg := { sender := sender, capture := capture, txPrev := txPrev, round := round, cls := cls % 4 }
    if d.fabricOn && decide (bus < 4) && d.ibEnabled bus then d.busIn (fun d => d.referenceRx bus m flags check) else d))) ∧
  -- MASTER_LOSS_ELECTION (R55)
  (∀ (s : State) (t : Nat), exec (.masterLossElection t) s = .next (after s (
    let d : Dev := s.dev.advance t
    if d.fabricOn && decide (d.ob Obj.MasterLossRounds ≤ d.time.refMissed) then
      let d := d.setMaster 0 3
      { d with tmst := { d.tmst with electing := true } }
    else d))) ∧
  -- CANDIDATE_CHALLENGE (R55)
  (∀ (s : State) (t : Nat), exec (.candidateChallenge t) s = .next (after s (
    let d : Dev := s.dev.advance t
    if d.candidate && decide (10 ≤ d.tmst.challenge) then { d with tmst := { d.tmst with electing := true } } else d))) ∧
  -- GNSS_SOURCE_TIMEOUT (R48)
  (∀ (s : State) (t : Nat), exec (.gnssSourceTimeout t) s = .next (after s (
    let d : Dev := s.dev.advance t
    if d.time.gnssValid && decide (d.time.gnssFrom + 2000000000 ≤ d.now) then d.gnssInvalid else d))) ∧
  -- PTP_SOURCE_TIMEOUT (R48)
  (∀ (s : State) (t : Nat), exec (.ptpSourceTimeout t) s = .next (after s (
    let d : Dev := s.dev.advance t
    if d.time.ptpValid && decide (d.time.ptpAt + 4 * d.syncNs ≤ d.now) then d.ptpInvalid else d))) ∧
  -- TIME_MESSAGE (R57)
  (∀ (s : State) (t : Nat) (offset : Int) (delay _port cls : Nat), exec (.timeMessage t offset delay _port cls) s = .next (after s (
    let d : Dev := s.dev.advance t
    if !d.fabricOn || !d.anyLane || d.frozen 0x420 then d
    else if offset < -2147483648 ∨ 2147483647 < offset then d.incOb Obj.OutlierCount
    else ((d.wr Reg.PTP_OFFS (wi offset)).setOb Obj.PtpPathDelay delay).ftSample 3 offset (cls % 4) 0))) ∧
  -- PTP_MESSAGE_RX (R57)
  (∀ (s : State) (t port domain t1 t2 t3 t4 priority1 clockClass accuracy variance priority2 identity : Nat), exec (.ptpMessageRx t port domain t1 t2 t3 t4 priority1 clockClass accuracy variance priority2 identity) s = .next (after s (
    (s.dev.advance t).ptpRx port domain t1 t2 t3 t4
      { priority1 := priority1, clockClass := clockClass, accuracy := accuracy, variance := variance
        priority2 := priority2, identity := identity }))) ∧
  -- PTP_SYNC_SEND (R57)
  (∀ (s : State) (t : Nat), exec (.ptpSyncSend t) s = .next (after s (
    let d : Dev := s.dev.advance t
    if d.hostOn && d.ptpMaster then
          (List.range 3).foldl (fun d p => if bitOf (d.ob Obj.PtpPorts) p then
            d.emit .ptp p 0 [d.hostNow + d.ptpShift, d.clockClass, d.ob Obj.PtpDomain, 128, 128] else d) d.bump
        else d))) ∧
  -- TIME_LANE_PPS (R56)
  (∀ (s : State) (t : Nat), exec (.timeLanePps t) s = .next (after s (
    let d : Dev := s.dev.advance t
    if d.fabricOn && t % 1000000000 == 0 && d.now == t then
          Dev.emit { d with htime := { d.htime with lastPps := t, ppsSent := true } } .line 1 0 [t]
        else d))) ∧
  -- TIME_LANE_WORD (R56)
  (∀ (s : State) (t : Nat) (err : Int), exec (.timeLaneWord t err) s = .next (after s (
    let d : Dev := s.dev.advance t
    if !d.htime.ppsSent || decide (d.htime.lastPps + 100000 < d.now) then d
    else
      let d := d.emit .line 1 1 [d.htime.lastPps, d.ftClass, d.epochCheck]
      let edge := d.htime.lastPps
      let now := d.now
      if d.htime.reload then
        { d with htime := { d.htime with hostFt := edge, reload := false, ppsSent := false } }
      else if err.natAbs ≤ 1000 then
        Dev.setLane { d with htime := { d.htime with hostFt := edge, acceptedAt := now, ppsSent := false } } true
      else { d with htime := { d.htime with hostFt := edge, ppsSent := false } }))) ∧
  -- TIME_LANE_TIMEOUT (R48)
  (∀ (s : State) (t : Nat), exec (.timeLaneTimeout t) s = .next (after s (
    let d : Dev := s.dev.advance t
    if d.laneValid && decide (d.htime.acceptedAt + 1500000000 ≤ d.now) then d.setLane false else d))) ∧
  -- PORCH_CAL_WINDOW (R59)
  (∀ (s : State) (t : Nat) (ppb : Int), exec (.porchCalWindow t ppb) s = .next (after s (
    let d : Dev := s.dev.advance t
    if d.fabricOn then d.calWindow ppb else d))) ∧
  -- PORCH_CARRY_LOAD (R60)
  (∀ (s : State) (k : Nat), exec (.porchCarryLoad k) s = .next (after s (
    let d : Dev := s.dev.advanceTicks k
    if d.time.carryDue && bitOf d.clk.pll 1 then d.carryLoad else d))) ∧
  -- FIELD_TIME_SET (R63)
  (∀ (s : State) (t : Nat) (r : Req) (v : Nat), exec (.fieldTimeSet t r v) s = .next (after s (
    (s.dev.advance t).dictVal r 0x3001 2 8 v (fun d => d.fieldTimeSet (v % 2 ^ 64))))) ∧
  -- SYSTEM_EPOCH_WRITE (R62)
  (∀ (s : State) (t : Nat) (r : Req) (v : Nat), exec (.systemEpochWrite t r v) s = .next (after s (
    (s.dev.advance t).dictVal r 0x3001 1 8 v (fun d => d.writeEpoch (v % 2 ^ 64))))) ∧
  -- WALL_CLOCK_WRITE (R64)
  (∀ (s : State) (t : Nat) (r : Req) (v : Nat), exec (.wallClockWrite t r v) s = .next (after s (
    (s.dev.advance t).dictVal r 0x3004 1 8 v (fun d => d.writeWall (v % 2 ^ 64))))) ∧
  -- GPS_UTC_LEAP_WRITE (R64)
  (∀ (s : State) (t : Nat) (r : Req) (v : Nat), exec (.gpsUtcLeapWrite t r v) s = .next (after s (
    (s.dev.advance t).dictVal r 0x3004 3 2 v (fun d => d.writeLeap (v % 2 ^ 16))))) ∧
  -- PORCH_MIRROR (R65)
  (∀ (s : State) (k : Nat), exec (.porchMirror k) s = .next (after s (
    let d : Dev := s.dev.advanceTicks k
    if d.porch.powered && decide (d.porch.mirrorAt + 11796480 ≤ d.porch.ticks) then d.porchMirror else d))) ∧
  -- LATCH_REQUEST (R66), as a register write
  (∀ (s : State) (t m v : Nat) (periodic : Bool), exec (.latchRequest t (.reg m) v periodic) s = .next (after s ((s.dev.advance t).latBy m (2 ^ 30)))) ∧
  -- LATCH_REQUEST (R66), as a dictionary request
  (∀ (s : State) (t : Nat) (r : Req) (v : Nat) (periodic : Bool), exec (.latchRequest t (.dict r) v periodic) s = .next (after s (
    let d : Dev := s.dev.advance t
    d.dictVal r 0x3008 (if periodic then 2 else 1) 8 v (fun d => d.latchWrite (v % 2 ^ 64) periodic)))) ∧
  -- LATCH_CANCEL (R66), as a register write
  (∀ (s : State) (t m slot : Nat), exec (.latchCancel t (.reg m) slot) s = .next (after s ((s.dev.advance t).latBy m (2 ^ 31 + slot % 8)))) ∧
  -- LATCH_CANCEL (R66), as a dictionary request
  (∀ (s : State) (t : Nat) (r : Req) (slot : Nat), exec (.latchCancel t (.dict r) slot) s = .next (after s (
    let d : Dev := s.dev.advance t
    d.dictVal r 0x3008 4 1 slot (fun d => d.latchCancelWrite (slot % 256))))) ∧
  -- PORCH_PAIR_REFRESH (R521)
  (∀ (s : State) (k : Nat), exec (.porchPairRefresh k) s = .next (after s (
    let d : Dev := s.dev.advanceTicks k
    if d.fabricOn && d.porch.powered then d.storePair else d)))

/-- Every command of a start, of a reset or of an image update answers a next state behind the close gate, with the queue as it was, and the device that the right side spells out: what the rules named before each clause give it, and where its condition does not hold no change but the time. What the spec leaves open at these points is the model's choice (log entries 87, 88, 120). -/
def Obligations.StartCommands : Prop :=
  -- PLL_LOCK (R40)
  (∀ (s : State) (n : Nat), exec (.pllLock n) s = .next (after s (
    let d : Dev := s.dev
    if d.clk.oscStable && decide (n < 6) && !bitOf d.clk.pll n then
      let d := (Dev.acqBegin { d with clk := { d.clk with pll := d.clk.pll + 2 ^ n } } d.now)
      if d.start.step = 3 ∧ d.allPlls then
        if d.start.kind = 2 then d.attempt true true else { d with start := { d.start with step := 4 } }
      else d
    else d))) ∧
  -- COLD_START (R492)
  (∀ (s : State) (k feed mv ma10 : Nat), exec (.coldStart k feed mv ma10) s = .next (after s ((s.dev.advanceTicks k).coldStart feed mv ma10))) ∧
  -- PACKAGE_RESET (R502)
  (∀ (s : State) (t : Nat) (r : Req), exec (.packageReset t r) s = .next (after s (
    ((s.dev.advance t).dictVal r 0x2202 1 1 1 (fun (d : Dev) => d.askReset 1)).resetAct))) ∧
  -- PACKAGE_RESET_CLEAR_LATCH (R496)
  (∀ (s : State) (t : Nat) (r : Req), exec (.packageResetClearLatch t r) s = .next (after s (
    ((s.dev.advance t).dictVal r 0x2202 1 1 2 (fun (d : Dev) => d.askReset 2)).resetAct))) ∧
  -- RESET_BUTTON (R492)
  (∀ (s : State) (t : Nat), exec (.resetButton t) s = .next (after s (
    let d : Dev := s.dev.advance t
    if d.hostOn then d.packageReset else d))) ∧
  -- START_PORCH_DONE (R493)
  (∀ (s : State) (k : Nat) (mirror : Bool), exec (.startPorchDone k mirror) s = .next (after s (
    if s.dev.start.step = 1 then (s.dev.porchDone mirror).advanceTicks k else s.dev))) ∧
  -- START_POWER_DIE_RESET_DONE (R493)
  (∀ (s : State) (k : Nat), exec (.startPowerDieResetDone k) s = .next (after s (
    let d : Dev := s.dev.advanceTicks k
    if d.start.step = 2 then d.dieResetDone else d))) ∧
  -- START_CONFIG_LOADED (R494)
  (∀ (s : State) (k : Nat) (dieOk halfOk : Bool), exec (.startConfigLoaded k dieOk halfOk) s = .next (after s (
    let d : Dev := s.dev.advanceTicks k
    if d.start.step = 4 then d.configLoaded dieOk halfOk else d))) ∧
  -- START_IMAGE_CHECKED (R500)
  (∀ (s : State) (k : Nat), exec (.startImageChecked k) s = .next (after s (
    let d : Dev := s.dev.advanceTicks k
    if d.start.step = 5 then d.imageChecked else d))) ∧
  -- START_ENGINES_LOADED (R493)
  (∀ (s : State) (k : Nat), exec (.startEnginesLoaded k) s = .next (after s (
    let d : Dev := s.dev.advanceTicks k
    if d.start.step = 6 then d.enginesLoaded else d))) ∧
  -- START_READY (R493)
  (∀ (s : State) (t : Nat), exec (.startReady t) s = .next (after s (
    let d : Dev := s.dev.advance t
    if d.start.step = 7 ∧ d.rcd.scanDone then
      let d : Dev := { d with start := { d.start with step := 0 } }
      let d := (d.rangeLoad).enter .ready;
      (d.advance t).unitsStart
    else d))) ∧
  -- START_IN_SERVICE (R494)
  (∀ (s : State) (t k m : Nat), exec (.startInService t k m) s = .next (after s (
    let d := (s.dev.advance t).advanceTicks k
    if m < engines then d.byMaster m Reg.START_CMD true (fun (d : Dev) =>
        if s.pending.any (failsNow t) then d.startFailedWrite else d.inServiceWrite) else d))) ∧
  -- START_FAILED (R495)
  (∀ (s : State) (t k m : Nat), exec (.startFailed t k m) s = .next (after s (
    let d := (s.dev.advance t).advanceTicks k
    if m < engines then d.byMaster m Reg.START_CMD true (fun (d : Dev) => d.startFailedWrite) else d))) ∧
  -- START_ATTEMPT_TIMEOUT (R495)
  (∀ (s : State) (k : Nat), exec (.startAttemptTimeout k) s = .next (after s (
    let d : Dev := s.dev.advanceTicks k
    if d.start.open_ && !d.start.declared && decide (d.start.openTick + 983040 < d.porch.ticks) then d.failStart 1 else d))) ∧
  -- UPDATE_BEGIN (R501)
  (∀ (s : State) (t : Nat) (r : Req) (slot : Nat), exec (.updateBegin t r slot) s = .next (after s (
    let d : Dev := s.dev.advance t
    let v : Nat := (1 + 16 * (slot % 2))
    let data : List Byte := [BitVec.ofNat 8 v]
    let slot := v / 16 % 2
    match (if v < 32 then v % 16 else 0) with
    | 1 =>
      d.withRequest r 2 0x2204 1 0 data (fun (d : Dev) =>
        let code := d.generalCode r true 0x2204 1 0 data
        let own := d.beginCode slot
        if code ≠ 0 then d.answer r 2 0x2204 1 0 code data [] false
        else if own ≠ 0 then d.answer r 2 0x2204 1 0 own data [] false
        else (d.updateBegin r slot).answerPending r 2 0x2204 1 0 data)
    | 2 => d.dictVal r 0x2204 1 1 v (fun (d : Dev) => d.updateVerify)
    | 3 => d.dictVal r 0x2204 1 1 v (fun (d : Dev) => d.updateAbandon)
    | _ => d.dictVal r 0x2204 1 1 v (fun (d : Dev) => d.no 0x0301)))) ∧
  -- UPDATE_ERASE_DONE (R501)
  (∀ (s : State) (t : Nat), exec (.updateEraseDone t) s = .next (after s (
    let d : Dev := s.dev.advance t
    if d.ob Obj.UpdateState ≠ 1 then d
    else
      let s := d.start.upSlot
      let d := ((d.imgErase s).setOb Obj.UpdateState 2).setOb Obj.UpdateResult 0
      let r := d.start.upReq
      let d := (({ d with start := { d.start with upReq := none } } : Dev)).updateEvent 1
      match r with
      | some r => d.answer r 2 0x2204 1 0 0 [BitVec.ofNat 8 (1 + 16 * s)] [] false
      | none => d))) ∧
  -- UPDATE_DATA (R501)
  (∀ (s : State) (t : Nat) (r : Req) (off : Nat) (data : List Byte), exec (.updateData t r off data) s = .next (after s (
    (s.dev.advance t).dictWriteWith r 0x2204 2 off data (fun (d : Dev) => d.updateData off data)))) ∧
  -- UPDATE_VERIFY (R501)
  (∀ (s : State) (t : Nat) (r : Req), exec (.updateVerify t r) s = .next (after s (
    let d : Dev := s.dev.advance t
    d.dictVal r 0x2204 1 1 2 (fun (d : Dev) => d.updateVerify)))) ∧
  -- UPDATE_ABANDON (R501)
  (∀ (s : State) (t : Nat) (r : Req), exec (.updateAbandon t r) s = .next (after s (
    let d : Dev := s.dev.advance t
    d.dictVal r 0x2204 1 1 3 (fun (d : Dev) => d.updateAbandon))))

/-- Every command of the power unit answers a next state behind the close gate, with the queue as it was, and the device that the right side spells out: what the rules named before each clause give it, and where its condition does not hold no change but the time. What the spec leaves open at these points is the model's choice (log entries 85, 86, 96, 119). -/
def Obligations.PowerCommands : Prop :=
  -- PORCH_ALARM (R58)
  (∀ (s : State) (k n : Nat), exec (.porchAlarm k n) s = .next (after s (
    let d : Dev := s.dev.advanceTicks k
    if d.porch.powered && decide (n < 4) && decide (d.rd64 (Reg.ALARM_LO n) = d.porch.ticks) then d.wakeSet (1 + n) else d))) ∧
  -- BURST_MEASUREMENT (R94)
  (∀ (s : State) (k : Nat), exec (.burstMeasurement k) s = .next (after s (
    let d : Dev := s.dev.advanceTicks k
    if d.gnss.bursting && decide (d.trackFrom + 656 ≤ k) then
          let p := d.burstStore k
          let d : Dev := p.1
          if p.2 < d.ob Obj.BurstMinLocked ∧ d.bit Reg.WAKE_EN 5 ∧ ¬ d.fabricOn then
            (d.wakeSet 5).event 0 0x2005 [.w p.2, .h (d.ob Obj.BurstMinLocked)]
          else d
        else d))) ∧
  -- FEED_CLASS_CHANGE (R439)
  (∀ (s : State) (t feed mv ma10 : Nat), exec (.feedClassChange t feed mv ma10) s = .next (after s (
    let d : Dev := s.dev.advance t
    if feed < 2 ∧ d.porch.powered then d.feedChange feed mv ma10 else d))) ∧
  -- FEED_OVERLOAD (R439)
  (∀ (s : State) (t feed ma10 : Nat), exec (.feedOverload t feed ma10) s = .next (after s (
    let d : Dev := s.dev.advance t
    if d.hostOn && decide (feed < 2) && decide (6000 < ma10) then d.feedOverload feed ma10 else d))) ∧
  -- POWER_FAIL (R440)
  (∀ (s : State) (t mv : Nat), exec (.powerFail t mv) s = .next (after s (
    let d : Dev := s.dev.advance t
    if d.porch.powered && !d.bit Reg.PWR_STATUS 6 && decide (mv < 7500) then d.powerFail t mv else d))) ∧
  -- HOLDUP_DEADLINE (R440)
  (∀ (s : State) (t : Nat), exec (.holdupDeadline t) s = .next (after s (
    let d : Dev := s.dev.advance t
    if d.bit Reg.PWR_STATUS 6 && decide (d.pwr.failAt + 17000000 ≤ t) then { d with flash := { d.flash with barred := true } } else d))) ∧
  -- HOLDUP_END (R440)
  (∀ (s : State) (t : Nat), exec (.holdupEnd t) s = .next (after s (
    let d : Dev := s.dev.advance t
    if d.bit Reg.PWR_STATUS 6 && decide (d.pwr.failAt + 20000000 ≤ t) then d.toOff else d))) ∧
  -- POWER_FAIL_END (R441)
  (∀ (s : State) (t : Nat), exec (.powerFailEnd t) s = .next (after s (
    let d : Dev := s.dev.advance t
    if d.bit Reg.PWR_STATUS 6 then
          let d := (d.setBit Reg.PWR_STATUS 6 false).event 4 0x9004 [.w ((t - d.pwr.failAt) / 1000)]
          d.resumeFlash
        else d))) ∧
  -- HOLDUP_MEASURE (R442)
  (∀ (s : State) (t cap : Nat), exec (.holdupMeasure t cap) s = .next (after s (
    let d : Dev := s.dev.advance t
    let day := 24 * 3600 * 32768
    if d.hostOn && (decide (d.start.step ≠ 0) || decide (d.pwr.holdupAt + day ≤ d.porch.opTicks)) then
          let c := min 20000 cap
          let low := decide (c < d.ob Obj.HoldupCapacitanceMin)
          let was := d.bit Reg.PWR_STATUS 7
          let d := (d.setOb Obj.HoldupCapacitance c).setBit Reg.PWR_STATUS 7 low
          let d : Dev := { d with pwr := { d.pwr with holdupAt := d.porch.opTicks } }
          if low = was then d else d.event 4 0x9005 [.w c]
        else d))) ∧
  -- CLUSTER_POWER_REQUEST (R444)
  (∀ (s : State) (t : Nat) (r : Req) (off : Nat) (data : List Byte), exec (.clusterPowerRequest t r off data) s = .next (after s (
    let d : Dev := s.dev.advance t
    let xs : List Dev := (s.soon d)
    let k : Dev → Dev := (fun d => d.clusterRequest r off data)
    let rs := d.remapsAhead xs
    let x := k { d with own := { d.own with remaps := d.own.remaps ++ rs } }
    { x with own := { x.own with remaps := x.own.remaps.filter (fun r => !rs.contains r) } }))) ∧
  -- FABRIC_READY (R444)
  (∀ (s : State) (t region : Nat), exec (.fabricReady t region) s = .next (after s (
    let d : Dev := s.dev.advance t
    let r : Nat := region
    if d.fabricOn && (List.range 8).any (fun i => d.clusterPhase (8 * r + i) != 0) then d.setBit (Reg.PWR_DOM 2) (r % 8) true else d))) ∧
  -- CLUSTER_POWER_UP_DONE (R444)
  (∀ (s : State) (t c : Nat), exec (.clusterPowerUpDone t c) s = .next (after s (
    let d : Dev := s.dev.advance t
    if d.fabricOn && d.clusterPhase c == 1 && d.fabOn (c / 8) then
      ((d.clusterClear c).setClusterPhase c 2).setBit (Reg.PWR_DOM (c / 32)) (c % 32) true
    else d))) ∧
  -- CLUSTER_CODE_LOADED (R444)
  (∀ (s : State) (t c : Nat), exec (.clusterCodeLoaded t c) s = .next (after s (
    let d : Dev := s.dev.advance t
    if d.fabricOn && d.clusterPhase c == 2 then (d.setClusterPhase c 3).clusterLoad c else d))) ∧
  -- POWER_REQUEST_PARKED (R445)
  (∀ (s : State) (t : Nat) (r : Req), exec (.powerRequestParked t r) s = .next (after s (
    (s.dev.advance t).dictVal r 0x2000 2 1 1 (fun (d : Dev) => d.powerRequest .parked)))) ∧
  -- POWER_REQUEST_STANDBY (R445)
  (∀ (s : State) (t : Nat) (r : Req), exec (.powerRequestStandby t r) s = .next (after s (
    (s.dev.advance t).dictVal r 0x2000 2 1 2 (fun (d : Dev) => d.powerRequest .standby)))) ∧
  -- POWER_REQUEST_READY (R445)
  (∀ (s : State) (t : Nat) (r : Req), exec (.powerRequestReady t r) s = .next (after s (
    (s.dev.advance t).dictVal r 0x2000 2 1 3 (fun (d : Dev) => d.powerRequest .ready)))) ∧
  -- POWER_REQUEST_FIELD (R445)
  (∀ (s : State) (t : Nat) (r : Req), exec (.powerRequestField t r) s = .next (after s (
    (s.dev.advance t).dictVal r 0x2000 2 1 4 (fun (d : Dev) => d.powerRequest .field)))) ∧
  -- STANDBY_ENTERED (R445)
  (∀ (s : State) (t : Nat), exec (.standbyEntered t) s = .next (after s (
    let d : Dev := s.dev.advance t
    if d.fabricOn && d.pwr.target == some .standby then
          let park := d.pwr.parkAfter
          let d := d.toStandby
          { d with pwr := { d.pwr with target := if park then some .parked else none, parkAfter := false } }
        else d))) ∧
  -- PARKED_ENTERED (R445)
  (∀ (s : State) (k : Nat), exec (.parkedEntered k) s = .next (after s (
    let d : Dev := s.dev.advanceTicks k
    if decide (d.pstate = .standby) && d.pwr.target == some .parked then d.toParked else d))) ∧
  -- WAKE_SOURCE (R445)
  (∀ (s : State) (k src : Nat), exec (.wakeSource k src) s = .next (after s (
    let d : Dev := s.dev.advanceTicks k
    if d.porch.powered ∧ src < 8 then d.wakeSet src else d))) ∧
  -- HOST_WAKE_LINE (R509)
  (∀ (s : State) (k : Nat), exec (.hostWakeLine k) s = .next (after s (
    let d : Dev := s.dev.advanceTicks k
    if d.porch.powered then d.wakeSet 0 else d))) ∧
  -- PARKED_WAKE_DONE (R445)
  (∀ (s : State) (k : Nat), exec (.parkedWakeDone k) s = .next (after s (
    let d : Dev := s.dev.advanceTicks k
    if decide (d.pstate = .parked) && d.pwr.target == some .standby then
          let d := (d.toStandbyFromParked).originUpdate
          { d with pwr := { d.pwr with target := none } }
        else d))) ∧
  -- DIE_TEMP_HIGH (R26)
  (∀ (s : State) (t die : Nat) (temp : Int), exec (.dieTempHigh t die temp) s = .next (after s (
    let d : Dev := s.dev.advance t
    if d.hostOn && decide (die < 4) && tempOk temp then (d.setTemp die temp).dieHeat die temp else d))) ∧
  -- DIE_TEMP_STOP (R447)
  (∀ (s : State) (t die : Nat) (temp : Int), exec (.dieTempStop t die temp) s = .next (after s (
    let d : Dev := s.dev.advance t
    if d.hostOn && decide (die < 4) && tempOk temp then (d.setTemp die temp).dieHeat die temp else d))) ∧
  -- DIE_TEMP_RECOVER (R447)
  (∀ (s : State) (t die : Nat) (temp : Int), exec (.dieTempRecover t die temp) s = .next (after s (
    let d := (s.dev.advance t).dieReading die temp
    if d.hostOn && decide (die < 4) && tempOk temp then d.dieRecover die temp else d))) ∧
  -- DIE_SENSOR_TIMEOUT (R458)
  (∀ (s : State) (t die : Nat), exec (.dieSensorTimeout t die) s = .next (after s (
    let d : Dev := s.dev.advance t
    if d.hostOn then d.dieHeat die 155 else d))) ∧
  -- MEMORY_SCRUB (R452)
  (∀ (s : State) (t : Nat) (uncorrectable : Bool), exec (.memoryScrub t uncorrectable) s = .next (after s (
    let d : Dev := s.dev.advance t
    if uncorrectable then { d with pwr := { d.pwr with eccAt := d.now + 1 } } else d))) ∧
  -- TEMPERATURE_SENSOR_IGNORED (R458)
  (∀ (s : State) (t die : Nat) (temp : Int), exec (.temperatureSensorIgnored t die temp) s = .next (after s (
    let d : Dev := s.dev.advance t
    if d.hostOn && decide (die < 4) && !tempOk temp then d.event 4 0x9021 [.h die, .wI temp] else d)))

/-- Every command of Deadbolt, of the sessions and of the pair answers a next state behind the close gate, with the queue as it was, and the device that the right side spells out: what the rules named before each clause give it, and where its condition does not hold no change but the time. What the spec leaves open at these points is the model's choice (log entries 74, 83, 84, 118). -/
def Obligations.SecurityAndPairingCommands : Prop :=
  -- ROUND_START (R52)
  (∀ (s : State) (t : Nat), exec (.roundStart t) s = .next (after s (
    let d : Dev := s.dev.advance t
    if d.fabricOn && d.roundNs != 0 && t % d.roundNs == 0 && d.now == t then d.roundWork else d))) ∧
  -- DEADBOLT_RELEASE (R424)
  (∀ (s : State) (t : Nat) (r : Req) (v : Nat), exec (.deadboltRelease t r v) s = .next (after s (
    (s.dev.advance t).dictVal r 0x2100 2 1 v (fun d => d.writeRelease v)))) ∧
  -- CLUSTER_HALT (R426)
  (∀ (s : State) (t : Nat) (r : Req) (v : Nat), exec (.clusterHalt t r v) s = .next (after s (
    (s.dev.advance t).dictVal r 0x2102 1 1 v (fun d => d.writeHalt r v)))) ∧
  -- CLUSTER_RESUME (R426)
  (∀ (s : State) (t : Nat) (r : Req) (v : Nat), exec (.clusterResume t r v) s = .next (after s (
    (s.dev.advance t).dictVal r 0x2102 2 1 v (fun d => d.writeResume v)))) ∧
  -- KEY_PROGRAM (R427)
  (∀ (s : State) (t : Nat) (r : Req) (data : List Byte), exec (.keyProgram t r data) s = .next (after s (
    (s.dev.advance t).dictWriteWith r 0x2112 1 0 data (fun d => d.wholeDom 68 0 data (d.keyProgram data))))) ∧
  -- KEY_REVOKE (R429)
  (∀ (s : State) (t : Nat) (r : Req) (data : List Byte), exec (.keyRevoke t r data) s = .next (after s (
    (s.dev.advance t).dictWriteWith r 0x2112 2 0 data (fun d => d.wholeDom 68 0 data (d.keyRevoke data))))) ∧
  -- SESSION_CHALLENGE (R431)
  (∀ (s : State) (t : Nat) (r : Req) (n : Nat), exec (.sessionChallenge t r n) s = .next (after s (
    (s.dev.advance t).dictReadWith r 0x2120 1 0 (leBytes n 4) (fun d =>
        let x := d.challenge' r;
        (0, x.2, x.1.take n, decide (n < 16)))))) ∧
  -- SESSION_RESPONSE (R431)
  (∀ (s : State) (t : Nat) (r : Req) (data : List Byte), exec (.sessionResponse t r data) s = .next (after s (
    (s.dev.advance t).dictWriteWith r 0x2120 2 0 data (fun d => d.wholeDom 36 0 data (d.sessResponse r data))))) ∧
  -- SESSION_END (R432)
  (∀ (s : State) (t : Nat) (r : Req) (v : Nat), exec (.sessionEnd t r v) s = .next (after s (
    (s.dev.advance t).dictVal r 0x2120 5 4 v (fun d => d.writeSessEnd r v)))) ∧
  -- SESSION_IDLE_TIMEOUT (R432)
  (∀ (s : State) (t token : Nat), exec (.sessionIdleTimeout t token) s = .next (after s (
    let d : Dev := s.dev.advance t
    if d.sec.sessions.any (fun x => x.token == token && x.open_
    && decide (x.lastAt + d.ob Obj.SessionIdleTimeout * 1000000000 ≤ d.now)) then d.sessEnd token 2 else d))) ∧
  -- SESSION_LIFETIME_EXPIRE (R432)
  (∀ (s : State) (t token : Nat), exec (.sessionLifetimeExpire t token) s = .next (after s (
    let d : Dev := s.dev.advance t
    if d.sec.sessions.any (fun x => x.token == token && x.open_
    && decide (x.openedAt + d.ob Obj.SessionLifetime * 1000000000 ≤ d.now)) then d.sessEnd token 3 else d))) ∧
  -- SESSION_SECRET_WRITE (R430)
  (∀ (s : State) (t : Nat) (r : Req) (level : Nat) (data : List Byte), exec (.sessionSecretWrite t r level data) s = .next (after s (
    (s.dev.advance t).dictWriteWith r 0x2121 level 0 data (fun d => d.wholeDom 32 0 data (d.writeSecret level data))))) ∧
  -- WINDOW_EXTRA_WRITE (R419)
  (∀ (s : State) (t : Nat) (r : Req) (sub off : Nat) (data : List Byte), exec (.windowExtraWrite t r sub off data) s = .next (after s (
    (s.dev.advance t).dictWriteWith r 0x2101 sub off data (fun d => d.writeExtra sub off data)))) ∧
  -- PAIRING_FRAME_RX (R454)
  (∀ (s : State) (t port sender stream : Nat) (data : List Byte), exec (.pairingFrameRx t port sender stream data) s = .next (after s (
    let d : Dev := s.dev.advance t
    if d.fabricOn then
          let q := d.seqJudge port sender 0x28 stream (leAt data 0 2)
          if q.2 then Dev.pairRx q.1 port sender stream data else q.1
        else d))) ∧
  -- PAIR_PARTNER_LOST (R455)
  (∀ (s : State) (t : Nat), exec (.pairPartnerLost t) s = .next (after s (
    let d : Dev := s.dev.advance t
    if d.fabricOn && d.ob Obj.PairRole != 0 && decide (d.pair.state ≠ 0) && !d.pair.lost
          && decide (d.pair.heardInterval + 3 < d.intervalOf d.now) then
          ({ d with pair := { d.pair with lost := true, partnerState := 2 } } : Dev).event 4 0x9032 [.h (d.ob Obj.PairPartner)]
        else d))) ∧
  -- DEVICE_AGENT_VIOLATION (R423)
  (∀ (s : State) (t m addr : Nat) (write : Bool), exec (.deviceAgentViolation t m addr write) s = .next (after s (
    let d : Dev := s.dev.advance t
    let known := (decide (0x400 ≤ m) && decide (m < 0x408)) || (decide (0x410 ≤ m) && decide (m < 0x418)) || m == 0x420
    if known && d.fabricOn then d.freeze m (if write then 2 else 1) addr 0 else d)))

/-- Every command of the GNSS baseband answers a next state behind the close gate, with the queue as it was, and the device that the right side spells out: what the rules named before each clause give it, and where its condition does not hold no change but the time. What the spec leaves open at these points is the model's choice (log entries 47 to 49, 98 to 101). -/
def Obligations.GnssCommands : Prop :=
  -- HEAD_STATUS_FRAME (R76)
  (∀ (s : State) (t n place : Nat) (syms : List Nat), exec (.headStatusFrame t n place syms) s = .next (after s (
    let d : Dev := s.dev.advance t
    let b := sideBytes syms
    if !d.headOn n then d else if frameGood b then d.headGood t n place b else d.headBad t n))) ∧
  -- HEAD_LINK_TIMEOUT (R96)
  (∀ (s : State) (t n : Nat), exec (.headLinkTimeout t n) s = .next (after s (
    let d : Dev := s.dev.advance t
    let h := d.head n
    if d.headOn n && decide (h.at_ + 300000 ≤ t) then
          (d.headLost t n 1).setHead n { h with good := 0, bad := 0, stale := true }
        else d))) ∧
  -- HEAD_SUPPLY_TRIP (R96)
  (∀ (s : State) (t n ma : Nat), exec (.headSupplyTrip t n ma) s = .next (after s (
    let d : Dev := s.dev.advance t
    if d.headSupplied n && decide (250 < ma) then
          let d := d.setHead n { (d.head n) with tripped := t + 1 }
          let d := (d.wr (Reg.AH_CURR n) (wd (min 65535 ma))).event 0 0x2003 [.h n, .w ma]
          d.headDrop t n
        else d))) ∧
  -- HEAD_SUPPLY_RETRY (R96)
  (∀ (s : State) (t n : Nat), exec (.headSupplyRetry t n) s = .next (after s (
    let d : Dev := s.dev.advance t
    let h := d.head n
    if h.tripped ≠ 0 ∧ h.tripped - 1 + 1000000000 ≤ t then d.setHead n { h with tripped := 0 } else d))) ∧
  -- HEAD_CONTROL_REPEAT (R78)
  (∀ (s : State) (t : Nat), exec (.headControlRepeat t) s = .next (after s (
    let d : Dev := s.dev.advance t
    if d.gnssOn && decide (d.gnss.controlAt + 100000000 ≤ t) then
          let d : Dev := { d with gnss := { d.gnss with controlAt := t } };
          (List.range 4).foldl (fun (d : Dev) n => if d.headOn n then d.headSet n else d) d
        else d))) ∧
  -- INTEGRATION_END (R86)
  (∀ (s : State) (t ch : Nat) (sums : List Int) (periods : Nat), exec (.integrationEnd t ch sums periods) s = .next (after s (
    let d : Dev := s.dev.advance t
    let s := d.chanSums ch sums
    if d.chanOn ch then (d.chanUpdate ch periods s).dumpPut ch t s else d))) ∧
  -- INT_ALIGN (R83)
  (∀ (s : State) (t m ch : Nat), exec (.intAlign t m ch) s = .next (after s (
    let d : Dev := s.dev.advance t
    d.byMaster m (Reg.CH_CFG ch) true (fun (d : Dev) =>
        if ch < 192 then d.setChan ch { (d.chan ch) with aligning := true } else d)))) ∧
  -- CODE_MEMORY_WRITE (R87)
  (∀ (s : State) (t m : Nat) (w : Word), exec (.codeMemoryWrite t m w) s = .next (after s (
    let d : Dev := s.dev.advance t
    d.byMaster m Reg.GB_CODE_DATA true (fun (d : Dev) =>
      let a := (d.rd Reg.GB_CODE_ADDR).toNat % 0x40000;
      (d.st (codeBase + a) 4 w.toNat).wr Reg.GB_CODE_ADDR (wd ((a + 4) % 0x40000)))))) ∧
  -- ACQ_REQUEST (R88)
  (∀ (s : State) (t m : Nat), exec (.acqRequest t m) s = .next (after s (
    let d : Dev := s.dev.advance t
    d.byMaster m Reg.ACQ_CMD true (fun (d : Dev) =>
      let r := d.acqWords
      if !acqOk r then (d.setF Reg.ACQ_STATUS 2 0 1).reject m Reg.ACQ_CMD
      else if !d.bit Reg.GB_CTRL 1 then d.setF Reg.ACQ_STATUS 2 0 4
      else if 8 ≤ d.gnss.acqQ.length then d.setF Reg.ACQ_STATUS 2 0 2
      else
        let q := d.gnss.acqQ ++ [r]
        let d := Dev.acqBegin { d with gnss := { d.gnss with acqQ := q } } t;
        (d.setF Reg.ACQ_STATUS 11 8 q.length).setBit Reg.ACQ_STATUS 4 true)))) ∧
  -- ACQ_CAPTURE_DONE (R89)
  (∀ (s : State) (t : Nat) (samples : List Byte), exec (.acqCaptureDone t samples) s = .next (after s (
    let d : Dev := s.dev.advance t
    match d.gnss.acqQ.head? with
    | some r =>
      if d.gnss.acqPhase = 1 ∧ d.gnss.acqAt ≤ t ∧ d.gbClock then
        { d with gnss := { d.gnss with
            acqPhase := 2, acqAt := d.gnss.acqAt + acqTime r
            snapshot := SMap.setList (fun _ => (0 : Byte)) [] 0 (samples.take 0x80000) } }
      else d
    | none => d))) ∧
  -- ACQ_SEARCH_DONE (R90)
  (∀ (s : State) (t : Nat) (res : List Nat), exec (.acqSearchDone t res) s = .next (after s (
    let d : Dev := s.dev.advance t
    if d.gnss.acqPhase = 2 ∧ d.gnss.acqAt ≤ t ∧ d.gbClock then
      let d := (List.range 5).foldl (fun (d : Dev) i => d.wr (Reg.ACQ_RES i) (wd (res.getD i 0))) d;
      (d.incOb Obj.AcquisitionCount).acqEnd t 0
    else d))) ∧
  -- ACQ_CANCEL (R90)
  (∀ (s : State) (t m : Nat), exec (.acqCancel t m) s = .next (after s (
    let d : Dev := s.dev.advance t
    d.byMaster m Reg.ACQ_CMD true (fun (d : Dev) =>
      if d.gnss.acqQ.isEmpty then d else d.acqEnd t 4)))) ∧
  -- BURST_START (R93)
  (∀ (s : State) (k : Nat), exec (.burstStart k) s = .next (after s ((s.dev.advanceTicks k).burstStart k)))

/-- Every command of the pose unit answers a next state behind the close gate, with the queue as it was, and the device that the right side spells out: what the rules named before each clause give it, and where its condition does not hold no change but the time. What the spec leaves open at these points is the model's choice (log entries 50, 108). -/
def Obligations.PoseCommands : Prop :=
  -- FI_EDGE (R102)
  (∀ (s : State) (t n : Nat) (rising : Bool), exec (.fiEdge t n rising) s = .next (after s (
    let d : Dev := s.dev.advance t
    if !(d.fiOn n && d.fiCounts n rising) then d
    else
      let stamp := d.fiCrossing n t
      let d := (d.incF (Reg.FI_COUNT n) 31 0).wr64 (Reg.FI_LAST_LO n) stamp
      let d := d.fiPush n stamp rising
      let d := if d.fiPeriodic n rising then d.fiPeriod n stamp else d
      let x := d.fi n
      let d := (d.setFi n { x with lastAt := stamp, since := min 2 (x.since + 1) }).fiLatched n stamp
      if d.bit Reg.SPD_STATUS n && decide (x.since = 1) then
        (d.setBit Reg.SPD_STATUS n false).event (2 + n / 4) 0x2010 [.h n, .h 2]
      else d))) ∧
  -- FI_TIMEOUT (R103)
  (∀ (s : State) (t n : Nat), exec (.fiTimeout t n) s = .next (after s (
    let d : Dev := s.dev.advance t
    let x := d.fi n
    if d.fiOn n && !d.bit Reg.SPD_STATUS n && decide (x.lastAt + d.f (Reg.FI_CTRL n) 15 0 * 10000000 ≤ t) then
      let d := (d.setBit Reg.SPD_STATUS n true).wr (Reg.FI_PERIOD n) 0xFFFFFFFF
      let d := d.fiRangeEnd n;
      (d.setFi n { (d.fi n) with polAt := none, since := 0 }).event (2 + n / 4) 0x2010 [.h n, .h 1]
    else d))) ∧
  -- FI_FIFO_POP (R104)
  (∀ (s : State) (t m n : Nat), exec (.fiFifoPop t m n) s = .next (after s (
    let d : Dev := s.dev.advance t
    if n < 8 then d.byMaster m (Reg.FI_FIFO_LO n) false (fun (d : Dev) => (d.fiPop m n).1) else d))) ∧
  -- IMU_DRDY (R105)
  (∀ (s : State) (t p : Nat) (rising : Bool), exec (.imuDrdy t p rising) s = .next (after s (
    let d : Dev := s.dev.advance t
    if !d.imuOn p || d.f (Reg.IMU_CTRL p) 29 28 != (if rising then 0 else 1) then d
    else if d.imuBusy p then d.incF (Reg.IMU_STATUS p) 15 8
    else d.imuStart p t))) ∧
  -- IMU_PERIODIC_TRIGGER (R105)
  (∀ (s : State) (t p : Nat), exec (.imuPeriodicTrigger t p) s = .next (after s (
    let d : Dev := s.dev.advance t
    let per := (d.rd (Reg.IMU_PERIOD p)).toNat * 1000
    if d.imuOn p && decide (d.f (Reg.IMU_CTRL p) 29 28 = 2) && decide (0 < per ∧ t % per = 0) && !d.imuBusy p then d.imuStart p t else d))) ∧
  -- IMU_TRANSFER_DONE (R106)
  (∀ (s : State) (t p : Nat) (data : List Byte), exec (.imuTransferDone t p data) s = .next (after s (
    let d : Dev := s.dev.advance t
    if !(decide (p < 2) && d.imuBusy p) then d
    else
      let len := d.f (Reg.IMU_CTRL p) 5 0
      let b := (data ++ List.replicate len 0).take len
      let e := d.imuEntry p b
      let w := (d.rd (Reg.IMU_WR p)).toNat % 32
      let d := (List.range 20).foldl (fun (d : Dev) i => d.wr (Reg.IMU_RING p (20 * w + i)) (wd (leAt e (4 * i) 4))) d
      let d := (d.wr (Reg.IMU_WR p) (wd ((w + 1) % 32))).incOb (Obj.ImuTransferCount p)
      d.imuStatus p (d.imuCheck p b) (imuStuck b)))) ∧
  -- IMU_TIMEOUT (R106)
  (∀ (s : State) (t p : Nat), exec (.imuTimeout t p) s = .next (after s (
    let d : Dev := s.dev.advance t
    if d.imuOn p && !d.bit (Reg.IMU_STATUS p) 1 && decide ((d.imu p).goodAt + (d.rd (Reg.IMU_TIMEOUT_REG p)).toNat * 1000 ≤ t) then
      (d.setBit (Reg.IMU_STATUS p) 1 true).event 0 0x2014 [.h p, .h 1]
    else d))) ∧
  -- POSE_COMMIT (R107)
  (∀ (s : State) (t m : Nat), exec (.poseCommit t m) s = .next (after s (
    let d : Dev := s.dev.advance t
    d.byMaster m Reg.POSE_COMMIT_REG true (fun (d : Dev) =>
      if m = d.f Reg.POSE_CTRL 9 0 then
        let b := ((List.range 64).map (fun i => leBytes (d.rd (Reg.POSE_STAGE i)).toNat 4)).flatten;
        ({ d with pose := { d.pose with pending := b, fresh := true, commitAt := t, earlier := d.pose.earlierThan t } } : Dev).setBit Reg.POSE_STATUS 0 true
      else
        let d := ((d.incF Reg.POSE_STATUS 31 16).setBit Reg.POSE_STATUS 2 true).incOb Obj.PoseRefusedCommits
        d.event 0 0x2012 [.w m])))) ∧
  -- FIELD_ORIGIN_WRITE (R100)
  (∀ (s : State) (t : Nat) (r : Req) (sub v : Nat), exec (.fieldOriginWrite t r sub v) s = .next (after s (
    let d : Dev := s.dev.advance t
    if 1 ≤ sub ∧ sub ≤ 3 then d.dictVal r 0x3201 sub 8 v (fun (d : Dev) => d.writeOrigin (sub - 1) v) else d)))

/-- Every command on an endpoint, an ownership or the stored ranges answers a next state behind the close gate, with the queue as it was, and the device that the right side spells out: what the rules named before each clause give it, and where its condition does not hold no change but the time. What the spec leaves open at these points is the model's choice (log entries 51, 109). -/
def Obligations.EndpointCommands : Prop :=
  -- EP_BIND (R127)
  (∀ (s : State) (t : Nat) (r : Req), exec (.epBind t r) s = .next (after s (
    let d : Dev := s.dev.advance t
    d.behindRemaps (s.soon d) (fun (d : Dev) =>
      d.dictWriteWith r 0x4001 0x07 0 (byte1 1) (fun (d : Dev) =>
        let id := d.obC (d.stageKey r) Obj.EpId
        if d.levelOf r < 2 then d.no 0x0201 else d.guarded id (d.bind id (d.ob Obj.EpClass) (d.ob Obj.EpOutput) (d.ob Obj.EpLateWindow) (d.ob Obj.EpAccount) epDisabled (List.replicate 44 0))))))) ∧
  -- EP_UNBIND (R125)
  (∀ (s : State) (t : Nat) (r : Req), exec (.epUnbind t r) s = .next (after s (
    let d : Dev := s.dev.advance t
    d.dictWriteWith r 0x4001 0x07 0 (byte1 2) (fun (d : Dev) =>
      let id := d.obC (d.stageKey r) Obj.EpId
      if d.levelOf r < 2 then d.no 0x0201 else d.guarded id (d.unbind id))))) ∧
  -- EP_ENABLE (R125), as a register write
  (∀ (s : State) (t m : Nat), exec (.epEnable t (.reg m)) s = .next (after s (
    let d : Dev := s.dev.advance t
    d.byMaster m Reg.OWN_CMD true (fun (d : Dev) =>
      let id := d.fM m Reg.OWN_ID 17 0
      let arg := d.rdM m Reg.OWN_ARG
      Dev.ownResult (if d.ownPermits m id then d.setEnabled id (fbit arg 0) else d.no 0x0201) m)))) ∧
  -- EP_ENABLE (R125), as a dictionary request
  (∀ (s : State) (t : Nat) (r : Req), exec (.epEnable t (.dict r)) s = .next (after s (
    let d : Dev := s.dev.advance t
    d.dictWriteWith r 0x4001 0x07 0 (byte1 3) (fun (d : Dev) =>
      let id := d.obC (d.stageKey r) Obj.EpId
      d.guarded id (d.setEnabled id true))))) ∧
  -- EP_DISABLE (R126), as a register write
  (∀ (s : State) (t m : Nat), exec (.epDisable t (.reg m)) s = .next (after s (
    let d : Dev := s.dev.advance t
    d.byMaster m Reg.OWN_CMD true (fun (d : Dev) =>
      let id := d.fM m Reg.OWN_ID 17 0
      let arg := d.rdM m Reg.OWN_ARG
      Dev.ownResult (if d.ownPermits m id then d.setEnabled id (fbit arg 0) else d.no 0x0201) m)))) ∧
  -- EP_DISABLE (R126), as a dictionary request
  (∀ (s : State) (t : Nat) (r : Req), exec (.epDisable t (.dict r)) s = .next (after s (
    let d : Dev := s.dev.advance t
    d.dictWriteWith r 0x4001 0x07 0 (byte1 4) (fun (d : Dev) =>
      let id := d.obC (d.stageKey r) Obj.EpId
      d.guarded id (d.setEnabled id false))))) ∧
  -- EP_SET_ACCOUNT (R128)
  (∀ (s : State) (t : Nat) (r : Req), exec (.epSetAccount t r) s = .next (after s (
    let d : Dev := s.dev.advance t
    d.dictWriteWith r 0x4001 0x07 0 (byte1 5) (fun (d : Dev) =>
      let id := d.obC (d.stageKey r) Obj.EpId
      d.guarded id (d.setAccount id (d.ob Obj.EpAccount)))))) ∧
  -- EP_SET_LATE_WINDOW (R128), as a register write
  (∀ (s : State) (t m : Nat), exec (.epSetLateWindow t (.reg m)) s = .next (after s (
    let d : Dev := s.dev.advance t
    d.byMaster m Reg.OWN_CMD true (fun (d : Dev) =>
      let id := d.fM m Reg.OWN_ID 17 0
      let arg := d.rdM m Reg.OWN_ARG
      Dev.ownResult (if d.ownPermits m id then d.setLate id (fld arg 15 0) else d.no 0x0201) m)))) ∧
  -- EP_SET_LATE_WINDOW (R128), as a dictionary request
  (∀ (s : State) (t : Nat) (r : Req), exec (.epSetLateWindow t (.dict r)) s = .next (after s (
    let d : Dev := s.dev.advance t
    d.dictWriteWith r 0x4001 0x07 0 (byte1 6) (fun (d : Dev) =>
      let id := d.obC (d.stageKey r) Obj.EpId
      d.guarded id (d.setLate id (d.ob Obj.EpLateWindow)))))) ∧
  -- EP_CLEAR_FAULT (R125)
  (∀ (s : State) (t : Nat) (r : Req), exec (.epClearFault t r) s = .next (after s (
    let d : Dev := s.dev.advance t
    d.dictWriteWith r 0x4001 0x07 0 (byte1 7) (fun (d : Dev) =>
      let id := d.obC (d.stageKey r) Obj.EpId
      if d.levelOf r < 2 then d.no 0x0201 else d.guarded id (d.clearFault id))))) ∧
  -- REMAP_REQUEST (R133), as a register write
  (∀ (s : State) (t m : Nat), exec (.remapRequest t (.reg m)) s = .next (after s (
    let d : Dev := s.dev.advance t
    d.byMaster m Reg.OWN_CMD true (fun (d : Dev) =>
      let id := d.fM m Reg.OWN_ID 17 0
      let arg := d.rdM m Reg.OWN_ARG
      Dev.ownResult (if d.ownPermits m id then d.remapRequest 0 id (fld arg 9 0) (if fbit arg 31 then none else some (fld arg 23 16)) (d.rd64M m Reg.OWN_AT_LO) false else d.no 0x0201) m)))) ∧
  -- REMAP_REQUEST (R133), as a dictionary request
  (∀ (s : State) (t : Nat) (r : Req), exec (.remapRequest t (.dict r)) s = .next (after s (
    let d : Dev := s.dev.advance t
    d.dictWriteWith r 0x4002 0x05 0 (byte1 1) (fun (d : Dev) =>
      let key := d.stageKey r
      let slot := d.obC key Obj.RemapSlot
      d.remapRequest key (d.obC key Obj.RemapId) (d.obC key Obj.RemapEngine) (if slot = 0xFFFF then none else some slot)
        (d.obC key Obj.RemapAt) true)))) ∧
  -- REMAP_WITHDRAW (R136), as a register write
  (∀ (s : State) (t m : Nat), exec (.remapWithdraw t (.reg m)) s = .next (after s (
    let d : Dev := s.dev.advance t
    d.byMaster m Reg.OWN_CMD true (fun (d : Dev) =>
      let id := d.fM m Reg.OWN_ID 17 0
      Dev.ownResult (if d.ownPermits m id then d.remapWithdraw id false else d.no 0x0201) m)))) ∧
  -- REMAP_WITHDRAW (R136), as a dictionary request
  (∀ (s : State) (t : Nat) (r : Req), exec (.remapWithdraw t (.dict r)) s = .next (after s (
    let d : Dev := s.dev.advance t
    d.dictWriteWith r 0x4002 0x05 0 (byte1 2) (fun (d : Dev) => d.remapWithdraw (d.obC (d.stageKey r) Obj.RemapId) true)))) ∧
  -- OWN_LOOKUP (R144)
  (∀ (s : State) (t m : Nat), exec (.ownLookup t m) s = .next (after s (
    let d : Dev := s.dev.advance t
    d.byMaster m Reg.OWN_CMD true (fun (d : Dev) => Dev.ownResult (d.ownLookup m (d.fM m Reg.OWN_ID 17 0)).yes m)))) ∧
  -- RANGE_VERIFY_STORE (R130)
  (∀ (s : State) (t : Nat) (r : Req), exec (.rangeVerifyStore t r) s = .next (after s (
    let d : Dev := s.dev.advance t
    d.dictWriteWith r 0x4010 0x03 0 (byte1 1) (fun (d : Dev) => d.rangeStore)))) ∧
  -- RANGE_RELOAD (R131)
  (∀ (s : State) (t : Nat) (r : Req), exec (.rangeReload t r) s = .next (after s (
    let d : Dev := s.dev.advance t
    d.dictWriteWith r 0x4010 0x03 0 (byte1 2) (fun (d : Dev) => d.rangeReload))))

/-- Every command of the look-ahead answers a next state behind the close gate, with the queue as it was, and the device that the right side spells out: what the rules named before each clause give it, and where its condition does not hold no change but the time. What the spec leaves open at these points is the model's choice (log entries 53 to 55, 103). -/
def Obligations.LookaheadCommands : Prop :=
  -- FRAME_LENGTH_WRITE (R147)
  (∀ (s : State) (t : Nat) (r : Req) (v : Nat), exec (.frameLengthWrite t r v) s = .next (after s (
    (s.dev.advance t).dictVal r 0x6000 1 2 v (fun d => d.writeFrameLength v)))) ∧
  -- FRM_DONE (R149)
  (∀ (s : State) (t m : Nat), exec (.frmDone t m) s = .next (after s (
    (s.dev.advance t).byMaster m Reg.FRM_DONE_REG true (fun (d : Dev) =>
      let e : Nat := m
      if d.frameBusy e then
        let share := d.frameShare
        let d := { d with frame := { d.frame with share := max d.frame.share share } }
        if d.bitM e Reg.FRM_STATUS 1 then (d.setBitM e Reg.FRM_STATUS 1 false).raise e 0
        else (d.setBusy e false).setBitM e Reg.IRQ_PEND 0 false
      else d)))) ∧
  -- PANE_CREATE (R154)
  (∀ (s : State) (t : Nat) (r : Req), exec (.paneCreate t r) s = .next (after s (
    let d : Dev := s.dev.advance t
    let v : Nat := 1
    d.dictVal r 0x6003 7 1 v (fun d => d.paneCommand r v)))) ∧
  -- PANE_DELETE (R155)
  (∀ (s : State) (t : Nat) (r : Req), exec (.paneDelete t r) s = .next (after s (
    let d : Dev := s.dev.advance t
    let v : Nat := 2
    d.dictVal r 0x6003 7 1 v (fun d => d.paneCommand r v)))) ∧
  -- PANE_CLEAR_COVERAGE (R155)
  (∀ (s : State) (t : Nat) (r : Req), exec (.paneClearCoverage t r) s = .next (after s (
    let d : Dev := s.dev.advance t
    let v : Nat := 3
    d.dictVal r 0x6003 7 1 v (fun d => d.paneCommand r v)))) ∧
  -- PANE_DATA_WRITE (R155)
  (∀ (s : State) (t : Nat) (r : Req) (off : Nat) (data : List Byte), exec (.paneDataWrite t r off data) s = .next (after s (
    (s.dev.advance t).dictWriteWith r 0x6003 9 off data (fun d => d.paneDataWrite r off data)))) ∧
  -- PANE_FETCH (R158)
  (∀ (s : State) (t m : Nat), exec (.paneFetch t m) s = .next (after s (
    (s.dev.advance t).byMaster m Reg.PF_CMD true (fun (d : Dev) =>
      let size := d.rdM m Reg.PF_SIZE
      let w := fld size 6 0
      let h := fld size 22 16
      let dest := (d.rdM m Reg.PF_DEST).toNat
      if w = 0 ∨ 64 < w ∨ h = 0 ∨ 64 < h then (d.reject m Reg.PF_SIZE).pfResult m 0 1
      else if !d.fetchDestOk m dest (16 + w * h) then (d.event (dieOf m) 0x3017 [.h m, .w dest]).pfResult m 0 2
      else
        match freeTag d.look.fetches m 4 0 with
        | none => d.pfResult m 0 3
        | some tag =>
          let f : Fetch :=
            { engine := m, tag := tag, x := swd (d.rdM m Reg.PF_X), y := swd (d.rdM m Reg.PF_Y), w := w, h := h
              layer := fld size 25 24, dest := ownAddr m dest, gen := 0, ft := 0, changed := false, first := [], gone := 0 }
          (d.fetchStart f).pfResult m tag 0)))) ∧
  -- PANE_FETCH_DONE (R158)
  (∀ (s : State) (t e tag : Nat), exec (.paneFetchDone t e tag) s = .next (after s (
    let d : Dev := s.dev.advance t
    match d.look.fetches.find? (fun f => f.engine == e && f.tag == tag) with
        | some f => d.fetchDone f
        | none => d))) ∧
  -- TARGET_DATAGRAM (R164)
  (∀ (s : State) (t : Nat) (b : List Byte), exec (.targetDatagram t b) s = .next (after s (
    let d : Dev := s.dev.advance t
    if !d.hostOn then d
    else
      match d.datagramFault b with
      | some p => d.targetDiscard p (leAt b 8 2)
      | none =>
        match d.heardSource (leAt b 8 2) (leAt b 4 4) with
        | none => d.targetDiscard 8 (leAt b 8 2)
        | some d =>
          let lane := d.tr.tgtLane
          let d : Dev := { d with tr := { d.tr with tgtLane := 5 - lane } }
          d.crossOut (d.hostMsg 4 lane 2 b)))) ∧
  -- TARGET_LIST_IN (R164)
  (∀ (s : State) (t : Nat) (b : List Byte), exec (.targetListIn t b) s = .next (after s (
    let d : Dev := s.dev.advance t
    if d.anyLane then d.targetListIn b else d))) ∧
  -- TARGET_SOURCE_TIMEOUT (R165)
  (∀ (s : State) (t slot : Nat), exec (.targetSourceTimeout t slot) s = .next (after s (
    let d : Dev := s.dev.advance t
    match d.srcAt slot with | none => d | some s => d.judgeSource s))) ∧
  -- TARGET_SOURCE_RELEASE (R165)
  (∀ (s : State) (t slot : Nat), exec (.targetSourceRelease t slot) s = .next (after s (
    let d : Dev := s.dev.advance t
    match d.srcAt slot with
    | none => d
    | some s =>
      if !s.live && decide (s.lostAt + 60000000000 ≤ d.now) then
        { d with look := { d.look with srcs := d.look.srcs.filter (fun x => x.slot != slot) } }
      else d)))

/-- Every command of the shutter queues, of the as-applied rings and of the ledger answers a next state behind the close gate, with the queue as it was, and the device that the right side spells out: what the rules named before each clause give it, and where its condition does not hold no change but the time. What the spec leaves open at these points is the model's choice (log entries 56 to 60, 104, 105). -/
def Obligations.ShutterCommands : Prop :=
  -- QUEUE_ACTION (R172)
  (∀ (s : State) (t m : Nat), exec (.queueAction t m) s = .next (after s (
    let d : Dev := s.dev.advance t
    let op : Nat := 1
    d.byMaster m Reg.SHQ_CMD true (fun d => if m < engines && d.fabricOn then d.shqCmd m op else d)))) ∧
  -- QUEUE_WITHDRAW (R175)
  (∀ (s : State) (t m : Nat), exec (.queueWithdraw t m) s = .next (after s (
    let d : Dev := s.dev.advance t
    if d.freezeAhead (s.soon d) m then d else d.shqBy m 2))) ∧
  -- QUEUE_REPLACE (R175)
  (∀ (s : State) (t m : Nat), exec (.queueReplace t m) s = .next (after s (
    let d : Dev := s.dev.advance t
    let op : Nat := 3
    d.byMaster m Reg.SHQ_CMD true (fun d => if m < engines && d.fabricOn then d.shqCmd m op else d)))) ∧
  -- ACTION_FIRE (R176)
  (∀ (s : State) (t id : Nat), exec (.actionFire t id) s = .next (after s (
    let d : Dev := s.dev.advance t
    let xs := s.soon d;
    ((d.abandonAhead xs).remapSwitches).fireAhead xs id))) ∧
  -- SCHEDULE_UNDELIVERABLE (R180)
  (∀ (s : State) (t e handle : Nat), exec (.scheduleUndeliverable t e handle) s = .next (after s (
    let d : Dev := s.dev.advance t
    match d.entryOf e handle with
    | none => d
    | some q =>
      if d.fabricOn && d.qClass q == 3 && q.action != 0 && !q.sent && decide (q.fireFt ≤ d.now + d.leadNs / 2) then
        (d.undeliverable q).reach 4
      else d))) ∧
  -- MEASUREMENT_WINDOW_CLOSE (R182)
  (∀ (s : State) (t id : Nat), exec (.measurementWindowClose t id) s = .next (after s (
    let d : Dev := s.dev.advance t
    match d.shq.acts.find? (fun a => a.id == id && decide (a.fireFt + measureWindow ≤ d.now)) with
    | some a => d.closeAct a
    | none => d))) ∧
  -- AA_RD_WRITE (R185)
  (∀ (s : State) (t m v : Nat), exec (.aaRdWrite t m v) s = .next (after s (
    (s.dev.advance t).byMaster m Reg.AA_RD true (fun (d : Dev) =>
      let e : Nat := m
      let rd := (d.rdM e Reg.AA_RD).toNat
      let wr := (d.rdM e Reg.AA_WR).toNat
      if (v + 2 ^ 32 - rd) % 2 ^ 32 ≤ (wr + 2 ^ 32 - rd) % 2 ^ 32 then d.wrM e Reg.AA_RD (wd v)
      else d.setBitM e Reg.SHQ_STATUS 31 true)))) ∧
  -- LEDGER_RUN_SUBMIT (R186)
  (∀ (s : State) (t m : Nat), exec (.ledgerRunSubmit t m) s = .next (after s (
    let d : Dev := s.dev.advance t
    let gone : Bool := ((s.soon d).any (fun x => (x.aaEvent m (d.rdM m Reg.LED_EVENT).toNat).isNone))
    d.byMaster m Reg.LED_CMD true (fun (d : Dev) =>
      let e : Nat := m
      let cx := swd (d.rdM e Reg.LED_CX)
      let cy := swd (d.rdM e Reg.LED_CY)
      let len := d.fM e Reg.LED_RUN 9 0
      let ev := if gone then none else d.aaEvent e (d.rdM e Reg.LED_EVENT).toNat
      let code := d.runCode ev cx len
      let d := d.wrM e Reg.LED_RESULT (wd (2 ^ 31 + code))
      if code = 0 then d.runAccepted (ev.getD []) cx cy len
      else (d.incOb Obj.LedgerRunsRefused).event (dieOf e) 0x3026 [.h e, .h code])))) ∧
  -- LEDGER_RECORD_RX (R189)
  (∀ (s : State) (t port sender : Nat) (b : List Byte), exec (.ledgerRecordRx t port sender b) s = .next (after s (
    let d : Dev := s.dev.advance t
    if port < 4 then d.ledReceive port sender b else d.ledHost port (ledFrom sender 0 b)))) ∧
  -- LEDGER_RESEND_REQUEST (R190)
  (∀ (s : State) (t src : Nat), exec (.ledgerResendRequest t src) s = .next (after s (
    let d : Dev := s.dev.advance t
    match d.ledSrc src with
    | some x => if d.gapDue x then d.ledAsk x else d
    | none => d))) ∧
  -- LEDGER_RESEND_RX (R190)
  (∀ (s : State) (t port src first : Nat), exec (.ledgerResendRx t port src first) s = .next (after s (
    let d : Dev := s.dev.advance t
    if port < 4 then d.ledgerResend port src first else d.ledHost port (ledFrom 0 1 (resendBody src first))))) ∧
  -- LEDGER_GONE_RX (R190)
  (∀ (s : State) (t sender src count first : Nat), exec (.ledgerGoneRx t sender src count first) s = .next (after s (
    let d : Dev := s.dev.advance t
    if sender ≠ src then d.ledReject src 7
    else
      match d.ledSrc src with
      | some x => d.ledGone x first count
      | none => d))) ∧
  -- LEDGER_RESEND_TIMEOUT (R192)
  (∀ (s : State) (t src : Nat), exec (.ledgerResendTimeout t src) s = .next (after s (
    let d : Dev := s.dev.advance t
    match d.ledSrc src with
    | some x => if d.resendDue x then (if x.tries < 4 then d.ledAsk x else d.ledGiveUp x) else d
    | none => d))) ∧
  -- LEDGER_REPLAY (R191)
  (∀ (s : State) (t : Nat) (r : Req) (v : Nat), exec (.ledgerReplay t r v) s = .next (after s (
    (s.dev.advance t).dictVal r 0x6102 0xD 1 v (fun d => d.ledReplay v)))) ∧
  -- LEDGER_REPLAY_DONE (R191)
  (∀ (s : State) (t : Nat), exec (.ledgerReplayDone t) s = .next (after s (
    let d : Dev := s.dev.advance t
    if d.led.replaying then d.ledReplayed else d))) ∧
  -- DIO_READBACK_CHANGE (R181)
  (∀ (s : State) (t n : Nat) (r : List Nat), exec (.dioReadbackChange t n r) s = .next (after s (
    let d : Dev := s.dev.advance t
    let rs : List Nat := r
    let d := d.dioMismatch n rs
    match d.boundTo 2 n with
    | none => d
    | some id =>
      match d.ownerOf id with
      | none => d
      | some (e, s) =>
        let level := bitOf (d.recGet e s 88 1) 0
        let fired := d.recGet e s (if level then 72 else 80) 8
        match d.showing rs fired level with
        | some instant => if d.fabricOn then d.measure id instant level (decide (instant ≤ fired + 1000000)) false none else d
        | none => d))) ∧
  -- NODE_LEAD_COMMIT (R175)
  (∀ (s : State) (t e handle : Nat), exec (.nodeLeadCommit t e handle) s = .next (after s (
    let d : Dev := s.dev.advance t
    match d.entryOf e handle with
    | none => d
    | some q =>
      if d.fabricOn && d.qClass q == 3 && decide (q.fireFt ≤ d.now + d.leadNs) then
        d.setQueue (d.shq.queue.map (fun x => if x.engine = e ∧ x.handle = handle then { x with committed := true } else x))
      else d)))

/-- Every command of a solenoid channel or a boost converter answers a next state behind the close gate, with the queue as it was, and the device that the right side spells out: what the rules named before each clause give it, and where its condition does not hold no change but the time. What the spec leaves open at these points is the model's choice (log entries 61, 106, 107). -/
def Obligations.SolenoidCommands : Prop :=
  -- SOL_BOOST_END (R202)
  (∀ (s : State) (t n : Nat) (raw : Int), exec (.solBoostEnd t n raw) s = .next (after s (
    let d : Dev := s.dev.advance t
    let c := d.solOf n
    if d.solPhase n = 1 ∧ (fld c.pk 12 0 ≤ d.solAmps n raw ∨ c.start + fld c.pk 31 24 * 10000 ≤ d.now) then
      (d.enterPeak n).solSample n raw
    else d))) ∧
  -- SOL_PEAK_END (R214)
  (∀ (s : State) (t n : Nat) (trace : List Int), exec (.solPeakEnd t n trace) s = .next (after s (
    let d : Dev := s.dev.advance t
    if d.solPhase n = 2 ∧ (d.solOf n).peakAt + d.f (Reg.SOL_PKLIM n) 11 0 * 10000 ≤ d.now then (d.solTrace n trace).enterHold n else d))) ∧
  -- SOL_KNEE_REACHED (R202)
  (∀ (s : State) (t n : Nat) (raw : Int), exec (.solKneeReached t n raw) s = .next (after s (
    let d : Dev := s.dev.advance t
    let c := d.solOf n
    if d.solPhase n = 4 ∧ d.solAmps n raw ≤ c.knee then ((d.setSol n { c with slowAt := d.now }).setPhase n 5).solSample n raw else d))) ∧
  -- SOL_SLOW_RECOVERY_END (R202)
  (∀ (s : State) (t n : Nat) (trace : List Int), exec (.solSlowRecoveryEnd t n trace) s = .next (after s (
    let d : Dev := s.dev.advance t
    let c := d.solOf n
    let closed := decide (c.closedAt ≠ 0) && decide (c.closedAt + 1000000 ≤ d.now)
    let windowOver := decide (c.offAt + fld c.det 31 26 * 1000000 ≤ d.now)
    if d.solPhase n = 5 && (closed || windowOver) then
      let d := (d.solTrace n trace).noClosing n;
      (d.setSol n { (d.solOf n) with drive := false }).solRest n
    else d))) ∧
  -- SOL_OPEN_LOAD_CHECK (R215)
  (∀ (s : State) (t n : Nat) (raw : Int), exec (.solOpenLoadCheck t n raw) s = .next (after s (
    let d : Dev := s.dev.advance t
    let c := d.solOf n
    let mA := d.solAmps n raw
    if d.energised n && !c.checked && decide (c.start + 500000 ≤ d.now) then
      if mA < 50 then
        let k := c.openRun + 1
        let d := d.setSol n { c with checked := true, openRun := k }
        let d := (d.solSample n raw).satF (Reg.SOL_FCNT n) 7 0
        let d := (d.solTrip n 1 (decide (3 ≤ k))).unmeasure n
        d.solEvent n 0x4005 [.w k]
      else (d.setSol n { c with checked := true, openRun := 0 }).solSample n raw
    else d))) ∧
  -- SOL_OVERCURRENT (R215)
  (∀ (s : State) (t n : Nat) (raw : Int), exec (.solOvercurrent t n raw) s = .next (after s (
    let d : Dev := s.dev.advance t
    let c := d.solOf n
    if 7500 ≤ d.solAmps n raw ∧ d.solPhase n ≤ 5 ∧ d.solPhase n ≠ 0 ∧ !c.tooHigh then
      let k := c.overRun + 1
      let d := d.setSol n { c with tooHigh := true, overRun := k, overAt := d.now }
      let d := (d.solSample n raw).satF (Reg.SOL_FCNT n) 15 8
      let d := d.solTrip n 2 (decide (3 ≤ k))
      let d := d.setSol n { (d.solOf n) with noConf := true };
      (if d.solPhase n = 5 then d.setPhase n 4 else d).solEvent n 0x4006 [.w k]
    else d))) ∧
  -- SOL_DRIVER_OVERTEMP (R215)
  (∀ (s : State) (t n : Nat), exec (.solDriverOvertemp t n) s = .next (after s (
    let d : Dev := s.dev.advance t
    if d.solPhase n = 6 then d
    else
      let d := d.satF (Reg.SOL_FCNT n) 31 24
      let d := ((d.solTrip n 6 false).unmeasure n).setPhase n 6
      d.solEvent n 0x4008 [.h 1]))) ∧
  -- SOL_DRIVER_COOLED (R215)
  (∀ (s : State) (t n : Nat), exec (.solDriverCooled t n) s = .next (after s (
    let d : Dev := s.dev.advance t
    if d.solPhase n = 6 then ((d.solRest n).solResume n).solEvent n 0x4008 [.h 2] else d))) ∧
  -- SOL_COIL_COOLDOWN_END (R215)
  (∀ (s : State) (t n : Nat), exec (.solCoilCooldownEnd t n) s = .next (after s (
    let d : Dev := s.dev.advance t
    let c := d.solOf n
    if c.coolUntil ≠ 0 ∧ c.coolUntil ≤ d.now then ((d.setSol n { c with coolUntil := 0 }).setStale n true).fixTemp n else d))) ∧
  -- SOL_OPENING_DETECT (R208)
  (∀ (s : State) (t n : Nat) (trace : List CoilSample), exec (.solOpeningDetect t n trace) s = .next (after s (
    let d : Dev := s.dev.advance t
    let c := d.solOf n
    if d.bit (Reg.SOL_CTRL n) 30 && d.energised n && !c.opened then
      match openingIn (d.coilRho n) (fld c.det 7 0) (d.coilPoints n trace) with
      | some (k, deep) =>
        let instant := c.start + k * 1000
        if instant ≤ d.now ∧ k ≤ fld c.det 25 20 * 1000 then d.openingFound n instant deep else d
      | none => d
    else d))) ∧
  -- SOL_CLOSING_DETECT (R209)
  (∀ (s : State) (t n : Nat) (trace : List CoilSample), exec (.solClosingDetect t n trace) s = .next (after s (
    let d : Dev := s.dev.advance t
    let c := d.solOf n
    if d.bit (Reg.SOL_CTRL n) 30 && decide (d.solPhase n = 5) && decide (c.closedAt = 0) then
      match closingIn (fld c.det 15 8) (d.coilPoints n trace) with
      | some (k, deep) =>
        let instant := c.slowAt + k * 1000
        if instant ≤ d.now ∧ instant ≤ c.offAt + fld c.det 31 26 * 1000000 then d.closingFound n instant deep else d
      | none => d
    else d))) ∧
  -- SOL_OPEN_WINDOW_END (R208)
  (∀ (s : State) (t n : Nat), exec (.solOpenWindowEnd t n) s = .next (after s (
    let d : Dev := s.dev.advance t
    if d.energised n && decide ((d.solOf n).start + fld (d.solOf n).det 25 20 * 1000000 ≤ d.now) then d.noOpening n else d))) ∧
  -- SOL_PULSE_START (R205)
  (∀ (s : State) (t n : Nat), exec (.solPulseStart t n) s = .next (after s (
    let d : Dev := s.dev.advance t
    let c := d.solOf n
    if c.on && c.train && decide (c.nextPulse ≤ d.now) then
      let d := if d.energised n then d.turnOff n false else d
      let d := d.solStart n false false
      let c := d.solOf n
      let ton := if c.ton = 0 then 0 else pulseOn c.pwm c.level
      if ton = 0 then d.setSol n { c with train := false, ton := 0, pulseOff := 0 }
      else
        d.setSol n { c with
          ton := ton
          nextPulse := c.nextPulse + fld c.pwm 31 16 * 10000
          pulseOff := if d.energised n then c.nextPulse + ton * 10000 else 0 }
    else d))) ∧
  -- SOL_PULSE_OFF (R205)
  (∀ (s : State) (t n : Nat), exec (.solPulseOff t n) s = .next (after s (
    let d : Dev := s.dev.advance t
    let c := d.solOf n
    if c.pulseOff ≠ 0 ∧ c.pulseOff ≤ d.now then
      (d.setSol n { c with pulseOff := 0 }).turnOff n false
    else d))) ∧
  -- SOL_THERM_STALE (R213)
  (∀ (s : State) (t n : Nat), exec (.solThermStale t n) s = .next (after s (
    let d : Dev := s.dev.advance t
    let c := d.solOf n
    if !d.thermStale n && decide (c.sampleAt + 60000000000 ≤ d.now) then (d.setStale n true).fixTemp n else d))) ∧
  -- SOL_OFF_PROBE (R215)
  (∀ (s : State) (t n : Nat) (found : Probe), exec (.solOffProbe t n found) s = .next (after s (
    let d : Dev := s.dev.advance t
    let last := d.f (Reg.SOL_STATUS n) 27 24
    if d.solPhase n ≠ 0 ∧ d.solPhase n ≠ 7 then d
    else
      match found with
      | .good => if last = 3 then d.setF (Reg.SOL_STATUS n) 27 24 0 else d
      | .open_ =>
        if last = 3 ∨ d.solFault n then d else (d.setF (Reg.SOL_STATUS n) 27 24 3).solEvent n 0x4007 [.h 3]
      | .toBattery => if last = 4 ∧ d.solFault n then d else (d.latchSol n 4).solEvent n 0x4007 [.h 4]
      | .toGround => if last = 5 ∧ d.solFault n then d else (d.latchSol n 5).solEvent n 0x4007 [.h 5]))) ∧
  -- SOL_HOLD_LOW (R215)
  (∀ (s : State) (t n : Nat) (trace : List Int), exec (.solHoldLow t n trace) s = .next (after s (
    let d : Dev := s.dev.advance t
    let c := d.solOf n
    let last := (trace.reverse.take 5000).map (d.solAmps n)
    let under := fun (x : Nat) => decide (2 * x + fld c.hd 20 12 < 2 * d.holdI n)
    let low := decide (5000 ≤ last.length) && last.all under
    let back := match last with | x :: _ => !under x | [] => false
    let was := d.bit (Reg.SOL_STATUS n) 19
    if decide (d.solPhase n = 3) && (low || back) then
      let d := (d.solTrace n trace).setBit (Reg.SOL_STATUS n) 19 low
      if low && !was then d.solEvent n 0x400F [.w (meanOf last)] else d
    else d))) ∧
  -- SOL_FEED_UV (R215)
  (∀ (s : State) (t die : Nat) (mV : List Nat), exec (.solFeedUv t die mV) s = .next (after s (
    let d : Dev := s.dev.advance t
    let i : Nat := die
    let l : List Nat := mV
    match mean10 l with
    | none => d
    | some mV =>
      if mV < 7000 ∧ d.bit (Reg.SOL_DIE_STATUS i) 6 = false then
        let d := (d.wr (Reg.SOL_FEED_V i) (wd mV)).setBit (Reg.SOL_DIE_STATUS i) 6 true
        let d := (dieSols i).foldl Dev.solUnder d
        d.event (2 + i) 0x4010 [.h i, .w mV]
      else d))) ∧
  -- SOL_FEED_RECOVER (R215)
  (∀ (s : State) (t die : Nat) (mV : List Nat), exec (.solFeedRecover t die mV) s = .next (after s (
    let d : Dev := s.dev.advance t
    let i : Nat := die
    let l : List Nat := mV
    match mean10 l with
    | none => d
    | some mV =>
      if 7800 ≤ mV ∧ d.bit (Reg.SOL_DIE_STATUS i) 6 then
        let d := (d.wr (Reg.SOL_FEED_V i) (wd mV)).setBit (Reg.SOL_DIE_STATUS i) 6 false
        let d := (dieSols i).foldl Dev.solResume d
        d.event (2 + i) 0x4010 [.h i, .w mV]
      else d))) ∧
  -- SOL_FAULT_CLEAR (R216), as a register write
  (∀ (s : State) (t m n : Nat), exec (.solFaultClear t (.reg m) n) s = .next (after s (
    (s.dev.advance t).byMaster m (Reg.SOL_CMD n) true (fun d =>
        if d.solFault n && d.solClearable n then d.solClear n else d)))) ∧
  -- SOL_FAULT_CLEAR (R216), as a dictionary request
  (∀ (s : State) (t : Nat) (r : Req) (n : Nat), exec (.solFaultClear t (.dict r) n) s = .next (after s (
    (s.dev.advance t).dictVal r 0x4127 (n + 1) 1 1 (fun d =>
        if !d.solClearable n then d.no 0x0401 else (if d.solFault n then d.solClear n else d).yes)))) ∧
  -- SOL_FCNT_CLEAR (R216)
  (∀ (s : State) (t m n : Nat), exec (.solFcntClear t m n) s = .next (after s (
    (s.dev.advance t).byMaster m (Reg.SOL_CMD n) true (fun d => d.wr (Reg.SOL_FCNT n) 0)))) ∧
  -- SOL_TEST_PULSE (R221)
  (∀ (s : State) (t : Nat) (r : Req) (n v : Nat), exec (.solTestPulse t r n v) s = .next (after s (
    (s.dev.advance t).dictVal r 0x4129 (n + 1) 2 v (fun d => d.testPulse n v)))) ∧
  -- BOOST_READY_CHANGE (R198)
  (∀ (s : State) (t die : Nat) (mV : List Nat), exec (.boostReadyChange t die mV) s = .next (after s (
    let d : Dev := s.dev.advance t
    match railMv mV with | some v => d.boostReading die v | none => d))) ∧
  -- BOOST_FAULT (R199)
  (∀ (s : State) (t die : Nat) (mV : List Nat), exec (.boostFault t die mV) s = .next (after s (
    let d : Dev := s.dev.advance t
    let i : Nat := die
    let l : List Nat := mV
    let x := d.solDieOf i
    match railMv l with
    | none => d
    | some mV =>
      if d.boostTarget i * 8 ≤ mV * 10 then d.boostReading i mV
      else if d.bit (Reg.SOL_DIE_CTRL i) 0 && !d.bit (Reg.SOL_DIE_STATUS i) 0 && !x.stopped && decide (x.notReadyAt + 100000000 ≤ d.now) then
        let was := d.bit (Reg.SOL_DIE_STATUS i) 3
        let d := (d.wr (Reg.SOL_BOOST_V i) (wd mV)).setBit (Reg.SOL_DIE_STATUS i) 3 true
        let d := (d.setSolDie i { x with stopped := true, faultAt := d.now }).fixCharging i
        if was then d else d.event (2 + i) 0x4002 [.h i, .w mV]
      else d))) ∧
  -- BOOST_RESTART (R199)
  (∀ (s : State) (t die : Nat), exec (.boostRestart t die) s = .next (after s (
    let d : Dev := s.dev.advance t
    let i : Nat := die
    let x := d.solDieOf i
    if x.stopped && decide (x.faultAt + 1000000000 ≤ d.now) then
      (d.setSolDie i { x with stopped := false, notReadyAt := d.now }).fixCharging i
    else d))) ∧
  -- BOOST_CHARGE_COMPLETE (R200)
  (∀ (s : State) (t die charge : Nat), exec (.boostChargeComplete t die charge) s = .next (after s (
    let d : Dev := s.dev.advance t
    let i : Nat := die
    if d.boostRuns i then
      let from_ := (d.solDieOf i).chargeFrom
      let d := (d.boostReading i (d.boostTarget i)).setSolDie i { ((d.boostReading i (d.boostTarget i)).solDieOf i) with chargeFrom := none }
      match from_ with
      | none => d
      | some v =>
        let uF := charge * 1000 / (d.boostTarget i - v)
        let d := d.wr (Reg.SOL_CAP_EST i) (wd (min 65535 uF))
        if uF < 400 ∨ 6000 < uF then
          ((d.setBit (Reg.SOL_DIE_STATUS i) 4 true).fixCharging i).event (2 + i) 0x4003 [.h i, .w uF]
        else d
    else d))) ∧
  -- BOOST_OVERVOLT (R200)
  (∀ (s : State) (t die : Nat) (mV : List Nat), exec (.boostOvervolt t die mV) s = .next (after s (
    let d : Dev := s.dev.advance t
    let i : Nat := die
    let l : List Nat := mV
    let ms := means10 l.length l
    let top := ms.foldl max 0
    if 10 < ms.length ∧ ms.all (fun x => decide (66000 < x)) ∧ (d.solDieOf i).exceeds = false then
      let d := (d.boostReading i (ms.getLast?.getD 0)).setBit (Reg.SOL_DIE_STATUS i) 5 true
      let x := d.solDieOf i;
      ((d.setSolDie i { x with exceeds := true }).fixCharging i).event (2 + i) 0x4004 [.h i, .w top]
    else d))) ∧
  -- BOOST_OVERVOLT_END (R200)
  (∀ (s : State) (t die : Nat) (mV : List Nat), exec (.boostOvervoltEnd t die mV) s = .next (after s (
    let d : Dev := s.dev.advance t
    let i : Nat := die
    let l : List Nat := mV
    let x := d.solDieOf i
    match railMv l with
    | none => d
    | some mV => if x.exceeds && decide (mV < d.boostTarget i) then (d.setSolDie i { x with exceeds := false }).boostReading i mV else d))) ∧
  -- BOOST_CAP_CLEAR (R200), as a register write
  (∀ (s : State) (t m die : Nat), exec (.boostCapClear t (.reg m) die) s = .next (after s (
    (s.dev.advance t).byMaster m (Reg.SOL_DIE_CTRL die) true (fun d =>
        if d.serviceOpen then d.capClear die else d)))) ∧
  -- BOOST_CAP_CLEAR (R200), as a dictionary request
  (∀ (s : State) (t : Nat) (r : Req) (die : Nat), exec (.boostCapClear t (.dict r) die) s = .next (after s (
    (s.dev.advance t).dictVal r 0x4100 (9 + die) 1 1 (fun d => (d.capClear die).yes)))) ∧
  -- SENSE_REPLICA_READ (R207)
  (∀ (s : State) (t die : Nat) (tenths : Int), exec (.senseReplicaRead t die tenths) s = .next (after s (
    let d : Dev := s.dev.advance t
    let i : Nat := die
    let x := d.solDieOf i
    let d := d.setSolDie i { x with replicaAt := d.now }
    if -400 ≤ tenths ∧ tenths ≤ 400 then
      (d.wr (Reg.SOL_OFFS_REP i) (wd (unsx 16 tenths))).setBit (Reg.SOL_DIE_STATUS i) 7 false
    else d.senseFails i tenths))) ∧
  -- SENSE_OFFSET_TIMEOUT (R215)
  (∀ (s : State) (t die : Nat), exec (.senseOffsetTimeout t die) s = .next (after s (
    let d := s.dev.advance t
    if (d.solDieOf die).replicaAt + 5000000 ≤ d.now then d.senseFails die (sx 16 (d.f (Reg.SOL_OFFS_REP die) 15 0)) else d)))

/-- Every command of a Louvre module or a chain answers a next state behind the close gate, with the queue as it was, and the device that the right side spells out: what the rules named before each clause give it, and where its condition does not hold no change but the time. What the spec leaves open at these points is the model's choice (log entries 63, 64, 110). -/
def Obligations.LouvreCommands : Prop :=
  -- LV_PERIOD_START (R228)
  (∀ (s : State) (t n : Nat), exec (.lvPeriodStart t n) s = .next (after s (
    let d : Dev := s.dev.advance t
    let b := d.lvNext n
    if d.lvRunning n && !d.lvFrozen n && decide (b ≤ d.fine) then (d.lvTurn n b).routeConds n else d))) ∧
  -- LV_COMPARE (R230)
  (∀ (s : State) (t n j : Nat), exec (.lvCompare t n j) s = .next (after s (
    let d : Dev := s.dev.advance t
    let x := d.lvMod n
    let v := x.cmp.getD j 0
    if d.lvRunning n && !d.lvFrozen n && decide (j < 4) && !bitOf x.fired j && decide (v ≤ x.p) && decide (x.start + 5 * v ≤ d.fine)
        && decide (x.start + 5 * v ≤ d.lvNext n) then
      let d := d.setLv n { x with fired := x.fired + 2 ^ j }
      let d := if d.bit (Reg.LV_TRIG n) j then d.linePulse (n / 8) (4 * (n % 8) + j) else d
      let c := d.f (Reg.LV_CTRL n) 6 0
      if d.bit (Reg.LV_TRIG n) (4 + j) && decide (c < 64) then (List.range 16).foldl (fun d i => d.raise (16 * c + i) 6) d else d
    else d))) ∧
  -- LV_COMMIT (R228)
  (∀ (s : State) (t m n : Nat), exec (.lvCommit t m n) s = .next (after s (
    (s.dev.advance t).byMaster m (Reg.LV_COMMIT_REG n) true (fun (d : Dev) =>
      let x := d.lvMod n
      let s := d.lvStaged n;
      (d.setLv n { x with commits := (x.dueSet s.at_).toList ++ [s] }).setBit (Reg.LV_STATUS n) 1 true)))) ∧
  -- LV_ENABLE (R234), as a register write
  (∀ (s : State) (t m n : Nat), exec (.lvEnable t (.reg m) n) s = .next (after s (
    (s.dev.advance t).byMaster m (Reg.LV_CTRL n) true (fun d =>
        d.lvCtrlWrite m n (putBit (d.rd (Reg.LV_CTRL n)) 31 true))))) ∧
  -- LV_ENABLE (R234), as a dictionary request
  (∀ (s : State) (t : Nat) (r : Req) (n : Nat), exec (.lvEnable t (.dict r) n) s = .next (after s (
    (s.dev.advance t).dictVal r 0x5100 (n + 1) 1 1 (fun d => (d.lvEnableWrite n).yes)))) ∧
  -- LV_DISABLE (R234), as a register write
  (∀ (s : State) (t m n : Nat), exec (.lvDisable t (.reg m) n) s = .next (after s (
    (s.dev.advance t).byMaster m (Reg.LV_CTRL n) true (fun d =>
        d.lvCtrlWrite m n (putBit (d.rd (Reg.LV_CTRL n)) 31 false))))) ∧
  -- LV_DISABLE (R234), as a dictionary request
  (∀ (s : State) (t : Nat) (r : Req) (n : Nat), exec (.lvDisable t (.dict r) n) s = .next (after s (
    (s.dev.advance t).dictVal r 0x5100 (n + 1) 1 0 (fun d => (d.lvOff n 1).yes)))) ∧
  -- LV_CMD_TIMEOUT (R235)
  (∀ (s : State) (t n : Nat), exec (.lvCmdTimeout t n) s = .next (after s (
    let d : Dev := s.dev.advance t
    if d.haltWaits s.pending (d.f (Reg.LV_CTRL n) 6 0) then d else d.lvTimeout n))) ∧
  -- LV_SYNC_PULSE (R232)
  (∀ (s : State) (t n : Nat), exec (.lvSyncPulse t n) s = .next (after s (
    let d : Dev := s.dev.advance t
    let x := d.lvMod n
    if n % 8 = 0 ∨ d.bit (Reg.LV_CTRL n) 29 = false then d
    else if d.chainOpen (n / 8) then
      (if d.lvRunning n && !d.lvFrozen n then
        d.setLv n { x with restartAt := x.restartAt ++ [d.now * 32 + 5 * (d.rd (Reg.LV_SYNC_PHASE n)).toNat] }
      else d)
    else
      let was := d.bit (Reg.LV_STATUS n) 6
      let d := (d.setLv n { x with ignored := x.ignored + 1 }).setBit (Reg.LV_STATUS n) 6 true
      if was then d else d.event (2 + n / 8) 0x5086 [.h n]))) ∧
  -- LV_RESYNC (R231), as a register write
  (∀ (s : State) (t m die : Nat), exec (.lvResync t (.reg m) die) s = .next (after s (
    (s.dev.advance t).byMaster m (Reg.LV_CHAIN die) true (fun (d : Dev) =>
      let i : Nat := die
      let x := d.chainOf i;
      (d.setChain i { x with resyncUntil := d.now + 100000000 }).chainNote i 2)))) ∧
  -- LV_RESYNC (R231), as a dictionary request
  (∀ (s : State) (t : Nat) (r : Req) (die : Nat), exec (.lvResync t (.dict r) die) s = .next (after s (
    (s.dev.advance t).dictVal r 0x5111 (die + 1) 1 1 (fun d => (d.lvResync die).yes)))) ∧
  -- LV_CHAIN_TIMEOUT (R231)
  (∀ (s : State) (t die : Nat), exec (.lvChainTimeout t die) s = .next (after s (
    let d : Dev := s.dev.advance t
    let i : Nat := die
    let x := d.chainOf i
    if x.resyncUntil ≠ 0 ∧ x.resyncUntil ≤ d.now then (d.setChain i { x with resyncUntil := 0 }).chainNote i 2 else d))) ∧
  -- LV_TEST (R231), as a register write
  (∀ (s : State) (t m die v : Nat), exec (.lvTest t (.reg m) die v) s = .next (after s (
    (s.dev.advance t).byMaster m (Reg.LV_CHAIN die) true (fun d =>
        if d.inField && decide (v % 2 = 1) then d.reject m (Reg.LV_CHAIN die) else d.lvTest die v)))) ∧
  -- LV_TEST (R231), as a dictionary request
  (∀ (s : State) (t : Nat) (r : Req) (die v : Nat), exec (.lvTest t (.dict r) die v) s = .next (after s (
    (s.dev.advance t).dictVal r 0x5110 (die + 1) 1 v (fun d =>
        if 1 < v then d.no 0x0301 else if d.inField && decide (v = 1) then d.no 0x0401 else (d.lvTest die v).yes)))) ∧
  -- LV_CARRIER_EDGE (R226)
  (∀ (s : State) (t n p : Nat), exec (.lvCarrierEdge t n p) s = .next (after s (
    let d : Dev := s.dev.advance t
    let x := d.lvMod n
    if d.lvRunning n && decide (p < 2) then
      let dl := d.lvDelay n p
      d.setLv n (x.setPair p ((x.pair p).carrierTo dl.1 dl.2 (x.at_ d.fine)))
    else d))) ∧
  -- LV_OUTPUT_EDGE (R227)
  (∀ (s : State) (t n k : Nat), exec (.lvOutputEdge t n k) s = .next (after s (
    let d : Dev := s.dev.advance t
    if decide (k < 4) then
      let d := d.lvCarrier n (k / 2)
      let x := d.lvMod n
      if d.lvRunning n then
        (d.setLv n (x.setPair (k / 2) ((x.pair (k / 2)).outTo (decide (k % 2 = 1)) (x.at_ d.fine)))).routeConds n
      else d
    else d))) ∧
  -- LV_SYNC_RESTART (R232)
  (∀ (s : State) (t n : Nat), exec (.lvSyncRestart t n) s = .next (after s (
    let d : Dev := s.dev.advance t
    let x := d.lvMod n
    match x.firstRestart with
    | none => d
    | some r =>
      if d.lvRunning n && !d.lvFrozen n && decide (r ≤ d.fine) && decide (r ≤ x.start + 5 * x.p) then (d.lvTurn n r).routeConds n else d)))

/-- Every command of a Hinge slot answers a next state behind the close gate, with the queue as it was, and the device that the right side spells out: what the rules named before each clause give it, and where its condition does not hold no change but the time. What the spec leaves open at these points is the model's choice (log entries 65, 110). -/
def Obligations.HingeCommands : Prop :=
  -- HINGE_SAMPLE (R244)
  (∀ (s : State) (t g : Nat), exec (.hingeSample t g) s = .next (after s (
    let d : Dev := s.dev.advance t
    if d.hgOn g && d.hgLeads g then
      match d.hgInstant g with
      | none => d
      | some t0 =>
        let due := d.hgDue g t0 4
        if due.any (fun s => (d.hgSampled s t0).any (fun m => d.hgWaiting m t0)) then d else d.hgServe t0 due
    else d))) ∧
  -- HINGE_COMMIT (R258), as a register write
  (∀ (s : State) (t m g : Nat), exec (.hingeCommit t (.reg m) g) s = .next (after s (
    (s.dev.advance t).byMaster m (Reg.HG_COMMIT_REG (hgDie g)) true (fun (d : Dev) =>
      let bad := d.hgBpBad g
      let d := d.hgCommit g
      if bad then d.reject m (Reg.HG_BP (hgDie g) (hgSlot g) 0) else d)))) ∧
  -- HINGE_COMMIT (R258), as a dictionary request
  (∀ (s : State) (t : Nat) (r : Req) (g : Nat), exec (.hingeCommit t (.dict r) g) s = .next (after s (
    (s.dev.advance t).dictVal r (0x5010 + g) 0x2C 1 1 (fun d => d.hgCommitObj g)))) ∧
  -- HINGE_SLOT_ENABLE (R259), as a register write
  (∀ (s : State) (t m g : Nat), exec (.hingeSlotEnable t (.reg m) g) s = .next (after s (
    (s.dev.advance t).byMaster m (hgReg Reg.HG_SCTRL g) true (fun (d : Dev) =>
      if d.hgCtrl g 31 31 = 1 then d
      else if d.hgReserved g then d.reject m (hgReg Reg.HG_SCTRL g)
      else if d.bit (Reg.HG_CTRL (hgDie g)) 0 then d.hgEnable g
      else d)))) ∧
  -- HINGE_SLOT_ENABLE (R259), as a dictionary request
  (∀ (s : State) (t : Nat) (r : Req) (g : Nat), exec (.hingeSlotEnable t (.dict r) g) s = .next (after s (
    (s.dev.advance t).dictVal r (0x5010 + g) 1 1 1 (fun d =>
        if d.hgCtrl g 31 31 = 1 then d.yes else d.hgEnableObj g)))) ∧
  -- HINGE_SLOT_DISABLE (R259), as a register write
  (∀ (s : State) (t m g : Nat), exec (.hingeSlotDisable t (.reg m) g) s = .next (after s (
    (s.dev.advance t).byMaster m (hgReg Reg.HG_SCTRL g) true (fun (d : Dev) =>
      let cause : Nat := 1
      if d.hgCtrl g 31 31 = 0 then d
      else
        let x := d.hgOf g
        let led := d.hgLeaders (hgDie g)
        let d := d.setHg g { x with result := none, lastAt := 0, barred := false }
        let d := (d.setBit (hgReg Reg.HG_SCTRL g) 31 false).hgStat g 0 false
        let d := d.setBit (Reg.HG_STATUS (hgDie g)) (hgSlot g) false
        let d : Dev := { d with hyst := d.hyst.filter (fun p => !hystOf g p) };
        (d.event (2 + hgDie g) 0x5001 [.h g, .h cause]).hgJudge (hgDie g) led)))) ∧
  -- HINGE_SLOT_DISABLE (R259), as a dictionary request
  (∀ (s : State) (t : Nat) (r : Req) (g : Nat), exec (.hingeSlotDisable t (.dict r) g) s = .next (after s (
    (s.dev.advance t).dictVal r (0x5010 + g) 1 1 0 (fun d => (d.hgDisable g 1).yes)))) ∧
  -- HINGE_DISABLE_ALL (R259), as a register write
  (∀ (s : State) (t m die : Nat), exec (.hingeDisableAll t (.reg m) die) s = .next (after s (
    (s.dev.advance t).byMaster m (Reg.HG_CTRL die) true (fun (d : Dev) =>
      let i : Nat := die
      let d := (dieSlots i).foldl (fun (d : Dev) g => d.hgDisable g 2) d
      d.setBit (Reg.HG_CTRL i) 0 false)))) ∧
  -- HINGE_DISABLE_ALL (R259), as a dictionary request
  (∀ (s : State) (t : Nat) (r : Req) (die : Nat), exec (.hingeDisableAll t (.dict r) die) s = .next (after s (
    (s.dev.advance t).dictVal r 0x5000 (die + 1) 1 0 (fun d => (d.hgDisableAll die).yes)))) ∧
  -- AI_TRIGGERED_CONVERSION (R289)
  (∀ (s : State) (t n : Nat), exec (.aiTriggeredConversion t n) s = .next (after s (
    ((s.dev.advance t).hgTimerTrigger n).aiTrigStart n)))

/-- Every command of a load switch or of a digital channel answers a next state behind the close gate, with the queue as it was, and the device that the right side spells out: what the rules named before each clause give it, and where its condition does not hold no change but the time. What the spec leaves open at these points is the model's choice (log entries 62, 109). -/
def Obligations.LoadSwitchCommands : Prop :=
  -- LS_DIRECT_COMMAND (R265), as a register write
  (∀ (s : State) (t m n v : Nat), exec (.lsDirectCommand t (.reg m) n v) s = .next (after s (
    (s.dev.advance t).byMaster m (Reg.LS_DIRECT n) true (fun d =>
        if d.taken 1 n then d.reject m (Reg.LS_DIRECT n) else d.lsDirect n v)))) ∧
  -- LS_DIRECT_COMMAND (R265), as a dictionary request
  (∀ (s : State) (t : Nat) (r : Req) (n v : Nat), exec (.lsDirectCommand t (.dict r) n v) s = .next (after s (
    (s.dev.advance t).dictVal r 0x4202 (n + 1) 2 v (fun d =>
        if d.taken 1 n then d.no 0x0401 else (d.lsDirect n v).yes)))) ∧
  -- DIO_DIRECT_COMMAND (R265), as a register write
  (∀ (s : State) (t m n v : Nat), exec (.dioDirectCommand t (.reg m) n v) s = .next (after s (
    (s.dev.advance t).byMaster m (Reg.DIO_DIRECT n) true (fun d =>
        if d.taken 2 n then d.reject m (Reg.DIO_DIRECT n) else d.dioDirect n v)))) ∧
  -- DIO_DIRECT_COMMAND (R265), as a dictionary request
  (∀ (s : State) (t : Nat) (r : Req) (n v : Nat), exec (.dioDirectCommand t (.dict r) n v) s = .next (after s (
    (s.dev.advance t).dictVal r 0x4214 (n + 1) 1 v (fun d =>
        if 1 < v then d.no 0x0301 else if d.taken 2 n then d.no 0x0401 else (d.dioDirect n v).yes)))) ∧
  -- LS_CURRENT_LIMIT (R267)
  (∀ (s : State) (t n : Nat) (limited : Bool), exec (.lsCurrentLimit t n limited) s = .next (after s (
    let d : Dev := s.dev.advance t
    let on : Bool := limited
    let was := d.bit (Reg.LS_STATUS n) 22
    let d := d.setBit (Reg.LS_STATUS n) 22 on
    if on && !was then d.lsEvent n 0x6001 [.h 1] else d))) ∧
  -- LS_THERMAL_SHUTDOWN (R267)
  (∀ (s : State) (t n : Nat), exec (.lsThermalShutdown t n) s = .next (after s (
    let d : Dev := s.dev.advance t
    if d.bit (Reg.LS_STATUS n) 21 then d
    else
      let c := d.lsOf n
      let now := d.now
      let trips := now :: c.trips.filter (fun x => decide (now ≤ x + 10000000000))
      let d := (d.setLs n { c with trips := trips.take 8 }).setBit (Reg.LS_STATUS n) 21 true
      let d := d.lsEvent n 0x6001 [.h 2]
      if 8 ≤ trips.length then
        let d := (d.setBit (Reg.LS_STATUS n) 30 true).setF (Reg.LS_STATUS n) 27 24 1;
        (d.lsEvent n 0x6002 []).lsConds n
      else d.lsConds n))) ∧
  -- LS_THERMAL_RESTORE (R267)
  (∀ (s : State) (t n : Nat), exec (.lsThermalRestore t n) s = .next (after s (
    let d : Dev := s.dev.advance t
    d.setBit (Reg.LS_STATUS n) 21 false))) ∧
  -- LS_FAULT_CLEAR (R267), as a register write
  (∀ (s : State) (t m n : Nat), exec (.lsFaultClear t (.reg m) n) s = .next (after s (
    (s.dev.advance t).byMaster m (Reg.LS_CMD n) true (fun d => if d.lsAsksOff n then d.lsClear n else d)))) ∧
  -- LS_FAULT_CLEAR (R267), as a dictionary request
  (∀ (s : State) (t : Nat) (r : Req) (n : Nat), exec (.lsFaultClear t (.dict r) n) s = .next (after s (
    (s.dev.advance t).dictVal r 0x4205 (n + 1) 1 1 (fun d =>
        if d.lsAsksOff n then (d.lsClear n).yes else d.no 0x0401)))) ∧
  -- LS_FEED_UV (R268)
  (∀ (s : State) (t die mV : Nat), exec (.lsFeedUv t die mV) s = .next (after s (
    let d : Dev := s.dev.advance t
    let i : Nat := die
    let d0 := d.wr (Reg.LS_FEED_V i) (wd mV)
    if 7000 ≤ mV ∨ d.bit (Reg.LS_STATUS (12 * i)) 20 then d
    else
      let d := ((dieLs i).foldl (fun d n => d.setBit (Reg.LS_STATUS n) 20 true) d0).dieConds i
      d.event (2 + i) 0x6005 [.h i, .w mV]))) ∧
  -- LS_FEED_RECOVER (R268)
  (∀ (s : State) (t die mV : Nat), exec (.lsFeedRecover t die mV) s = .next (after s (
    let d : Dev := s.dev.advance t
    let i : Nat := die
    if 7800 ≤ mV ∧ d.bit (Reg.LS_STATUS (12 * i)) 20 then
      let d := (dieLs i).foldl Dev.lsBack (d.wr (Reg.LS_FEED_V i) (wd mV))
      d.event (2 + i) 0x6005 [.h i, .w mV]
    else d))) ∧
  -- LS_PWM_PERIOD (R269)
  (∀ (s : State) (t n mV : Nat), exec (.lsPwmPeriod t n mV) s = .next (after s (
    let d : Dev := s.dev.advance t
    let c := d.lsOf n
    if pulses (d.f (Reg.LS_CTRL n) 30 29) c.level && decide (c.periodAt + 5000000 ≤ d.now) then
      ((d.wr (Reg.LS_FEED_V (lsDie n)) (wd mV)).lsPeriod n).lsConds n
    else d))) ∧
  -- LS_DWELL_END (R270)
  (∀ (s : State) (t die : Nat) (mA : List Nat), exec (.lsDwellEnd t die mA) s = .next (after s (
    let d : Dev := s.dev.advance t
    let i : Nat := die
    let c := d.loadDieOf i
    match c.dwells with
    | [] => d
    | x :: xs =>
      let instant := c.dwellAt + ((senseCrossing x.opening (mA.take 100) 1).getD 0) * 10000
      let crossed := (senseCrossing x.opening (mA.take 100) 1).isSome && decide (instant ≤ d.now)
      if crossed || decide (c.dwellAt + 1000000 ≤ d.now) then
        let now := d.now
        let rest := xs.dropWhile (fun y => decide (y.fireFt + 1000000 < now))
        let d := d.setLoadDie i { c with dwells := rest, dwellAt := now }
        if crossed && x.measured then d.measure x.id instant x.opening (decide (instant ≤ x.fireFt + 1000000) && decide (x.fireFt ≤ instant)) false none
        else d
      else d))) ∧
  -- LS_SENSE_SCAN (R270)
  (∀ (s : State) (t n : Nat) (mA : List Nat), exec (.lsSenseScan t n mA) s = .next (after s (
    let d : Dev := s.dev.advance t
    let samples : List Nat := mA
    if d.mayVisit n then
      let mA := meanOf (samples.take 10)
      let c := d.lsOf n
      let th := lsThreshold n
      let cond := if d.lsFull n && decide (mA < th) then 1 else if d.lsOffAsked n && decide (th < mA) then 2 else 0
      let full := if lsRating n = 5 then 10000 else 30000
      let d := d.wr (Reg.LS_CURR n) (wd (min full mA))
      let d := d.setLs n { c with visitedAt := d.now, cond := cond, condAt := if cond = c.cond then c.condAt else d.now }
      let d := if cond = 1 then d else d.setBit (Reg.LS_STATUS n) 19 false
      if cond = 2 then d else d.setBit (Reg.LS_STATUS n) 18 false
    else d))) ∧
  -- LS_OPEN_LOAD (R271)
  (∀ (s : State) (t n : Nat), exec (.lsOpenLoad t n) s = .next (after s (
    let d : Dev := s.dev.advance t
    let cond : Nat := 1
    let bit : Nat := 19
    let code : Nat := 0x6003
    let c := d.lsOf n
    let holds := if cond = 1 then d.lsFull n else d.lsOffAsked n
    if c.cond = cond ∧ holds ∧ c.condAt + 10000000 ≤ d.now ∧ d.bit (Reg.LS_STATUS n) bit = false then
      (d.setBit (Reg.LS_STATUS n) bit true).lsEvent n code [.w (d.f (Reg.LS_CURR n) 15 0)]
    else d))) ∧
  -- LS_LEAKAGE (R271)
  (∀ (s : State) (t n : Nat), exec (.lsLeakage t n) s = .next (after s (
    let d : Dev := s.dev.advance t
    let cond : Nat := 2
    let bit : Nat := 18
    let code : Nat := 0x6004
    let c := d.lsOf n
    let holds := if cond = 1 then d.lsFull n else d.lsOffAsked n
    if c.cond = cond ∧ holds ∧ c.condAt + 10000000 ≤ d.now ∧ d.bit (Reg.LS_STATUS n) bit = false then
      (d.setBit (Reg.LS_STATUS n) bit true).lsEvent n code [.w (d.f (Reg.LS_CURR n) 15 0)]
    else d))) ∧
  -- DIO_INPUT_CHANGE (R274)
  (∀ (s : State) (t n : Nat) (r : List Nat), exec (.dioInputChange t n r) s = .next (after s (
    let d := s.dev.advance t
    if d.dioMode n = 1 then d.dioInput n r else d))) ∧
  -- DIO_OUTPUT_PROTECT (R275)
  (∀ (s : State) (t n : Nat) (limited hot : Bool), exec (.dioOutputProtect t n limited hot) s = .next (after s (
    let d : Dev := s.dev.advance t
    if d.dioMode n = 2 then
      let wasL := d.bit (Reg.DIO_STATUS n) 19
      let wasH := d.bit (Reg.DIO_STATUS n) 18
      let d := (d.setBit (Reg.DIO_STATUS n) 19 limited).setBit (Reg.DIO_STATUS n) 18 hot
      let d := if limited && !wasL then d.dioEvent n 0x6020 [.h 1] else d
      if hot && !wasH then d.dioEvent n 0x6020 [.h 2] else d
    else d))) ∧
  -- DIO_GROUP_UV (R275)
  (∀ (s : State) (t g mV : Nat), exec (.dioGroupUv t g mV) s = .next (after s (
    let d : Dev := s.dev.advance t
    if 7000 ≤ mV then d
    else
      let was := bitOf d.groupLow g
      let d : Dev := { d.wr (Reg.DIO_GRP_V g) (wd mV) with groupLow := putBits d.groupLow g g 1 }
      let d := (groupDios g).foldl (fun (d : Dev) n => if d.dioMode n = 2 then d.setBit (Reg.DIO_STATUS n) 17 true else d) d
      if was then d else d.event (2 + g / 4) 0x6023 [.h g, .w mV]))) ∧
  -- DIO_GROUP_RECOVER (R275)
  (∀ (s : State) (t g mV : Nat), exec (.dioGroupRecover t g mV) s = .next (after s (
    let d : Dev := s.dev.advance t
    if 7800 ≤ mV then
      let was := bitOf d.groupLow g
      let d : Dev := { d.wr (Reg.DIO_GRP_V g) (wd mV) with groupLow := putBits d.groupLow g g 0 }
      let d := (groupDios g).foldl (fun d n => d.setBit (Reg.DIO_STATUS n) 17 false) d
      if was then d.event (2 + g / 4) 0x6023 [.h g, .w mV] else d
    else d))) ∧
  -- DIO_READBACK_MISMATCH (R276)
  (∀ (s : State) (t n : Nat) (r : List Nat), exec (.dioReadbackMismatch t n r) s = .next (after s (
    let d : Dev := s.dev.advance t
    let rs : List Nat := r
    let highs := (rs.map (fun r => decide (4500 < r))).reverse
    match highs with
    | [] => d
    | high :: _ =>
    let d := d.dioConds n
    let since := (SMap.get (fun _ => DioAsk.reset) d.dioAsk n).since
    let long := decide (100 ≤ highs.length) && (highs.take 100).all (fun h => h == high) && decide (since + 1000000 ≤ d.now)
    if d.dioMode n = 2 then
      let low := d.dioAsked n && !high && (long || d.bit (Reg.DIO_STATUS n) 16)
      let exceeds := !d.dioAsked n && high && (long || d.bit (Reg.DIO_STATUS n) 15)
      let wasL := d.bit (Reg.DIO_STATUS n) 16
      let wasH := d.bit (Reg.DIO_STATUS n) 15
      let d := ((d.setBit (Reg.DIO_STATUS n) 16 low).setBit (Reg.DIO_STATUS n) 15 exceeds).setBit (Reg.DIO_STATUS n) 23 high
      let d := if low && !wasL then d.dioEvent n 0x6021 [.h 1] else d
      if exceeds && !wasH then d.dioEvent n 0x6021 [.h 2] else d
    else d))) ∧
  -- LS_PULSE_OFF (R269)
  (∀ (s : State) (t n : Nat), exec (.lsPulseOff t n) s = .next (after s (
    let d : Dev := s.dev.advance t
    let c := d.lsOf n
    if c.pulseOn && decide (c.ton < 500) && decide (c.periodAt + c.ton * 10000 ≤ d.now) then
      d.setLs n { c with pulseOn := false }
    else d)))

/-- Every command of a watchdog, a safety pair, the all-close line or an analog input answers a next state behind the close gate, with the queue as it was, and the device that the right side spells out: what the rules named before each clause give it, and where its condition does not hold no change but the time. What the spec leaves open at these points is the model's choice (log entries 66 to 68). -/
def Obligations.SafetyAndAnalogCommands : Prop :=
  -- WDG_KICK (R278)
  (∀ (s : State) (t m die token : Nat), exec (.wdgKick t m die token) s = .next (after s (
    ((s.dev.advance t).expireFirst s.pending die).byMaster m (Reg.WDG_KICK_REG die) true (fun d => d.remapSwitches.wdgKick m die token)))) ∧
  -- WDG_EXPIRE (R277)
  (∀ (s : State) (t die : Nat), exec (.wdgExpire t die) s = .next (after s (
    let d : Dev := s.dev.advance t
    let i : Nat := die
    let long := !d.fabricOn || decide ((d.loadDieOf i).kickAt + d.wdgTimeout i * 950000 ≤ d.now)
    if d.wdgState i == 1 && !d.wdgHold i && long then d.wdgExpireNow i else d))) ∧
  -- WDG_HOLD_SET (R280)
  (∀ (s : State) (t : Nat) (r : Req) (die : Nat), exec (.wdgHoldSet t r die) s = .next (after s (
    (s.dev.advance t).dictVal r 0x4222 (die + 1) 1 1 (fun d => d.holdSet r die)))) ∧
  -- WDG_HOLD_CLEAR (R280)
  (∀ (s : State) (t : Nat) (r : Req) (die : Nat), exec (.wdgHoldClear t r die) s = .next (after s (
    (s.dev.advance t).dictVal r 0x4222 (die + 1) 1 0 (fun d => (d.setHold die false 0 (d.levelOf r)).yes)))) ∧
  -- WDG_TIMEOUT_WRITE (R280)
  (∀ (s : State) (t : Nat) (r : Req) (die v : Nat), exec (.wdgTimeoutWrite t r die v) s = .next (after s (
    (s.dev.advance t).dictVal r 0x4220 (die + 1) 2 v (fun d => d.timeoutWrite die v)))) ∧
  -- WDG_OWNER_WRITE (R280)
  (∀ (s : State) (t : Nat) (r : Req) (die v : Nat), exec (.wdgOwnerWrite t r die v) s = .next (after s (
    (s.dev.advance t).dictVal r 0x4221 (die + 1) 2 v (fun d => d.ownerWrite die v)))) ∧
  -- FAILSAFE_WRITE (R279)
  (∀ (s : State) (t : Nat) (r : Req) (die kind v : Nat), exec (.failsafeWrite t r die kind v) s = .next (after s (
    (s.dev.advance t).dictVal r (if kind = 0 then 0x4225 else if kind = 1 then 0x4226 else 0x4227) (die + 1)
        (if kind = 0 then 4 else 2) v (fun d => d.failsafeWrite die kind v)))) ∧
  -- SAFETY_INPUT_CHANGE (R282)
  (∀ (s : State) (t p a b : Nat), exec (.safetyInputChange t p a b) s = .next (after s (
    let d : Dev := s.dev.advance t
    if d.pairOn p then
      let ua := decide (d.pairZone (d.pairA p) a = 1)
      let ub := decide (d.pairZone (d.pairB p) b = 1)
      let d := (d.pairSample (d.pairA p) a).pairSample (d.pairB p) b
      let d := (d.setBit (Reg.SIN_STATUS p) 2 ua).setBit (Reg.SIN_STATUS p) 3 ub
      let was := SMap.get (fun _ => 0) d.pairAt p
      let since := if ua = ub then 0 else if was = 0 then d.now + 1 else was
      let d := if ua = ub then d.pairAgree p was else d
      let n := d.f (Reg.SIN_CTRL p) 9 0
      let stood := d.f (Reg.SIN_STATUS p) 25 16
      let cnt := if ua = ub then 0 else d.discTick p
      let d := d.pairSince p since (if ua = ub then 0 else d.now + 1)
      let d := d.setF (Reg.SIN_STATUS p) 25 16 (if stood = n ∧ ua ≠ ub then n else cnt)
      let d := if cnt = n ∧ stood ≠ n ∧ d.discLatched p = false then d.discLatch p else d
      d.setPair p (if d.discLatched p then 2 else if ua && ub then 1 else 0)
    else d))) ∧
  -- DISCREPANCY_LATCH (R283)
  (∀ (s : State) (t p : Nat), exec (.discrepancyLatch t p) s = .next (after s (
    let d : Dev := s.dev.advance t
    let n := d.f (Reg.SIN_CTRL p) 9 0
    let since := SMap.get (fun _ => 0) d.pairAt p
    if d.pairOn p && decide (since ≠ 0) && !d.discLatched p && (!d.fabricOn || decide (since + (n - 1) * 950000 ≤ d.now + 1)) then
      d.discLatch p
    else d))) ∧
  -- SIN_ACK (R284)
  (∀ (s : State) (t : Nat) (r : Req) (p : Nat), exec (.sinAck t r p) s = .next (after s (
    (s.dev.advance t).dictVal r 0x4235 (p + 1) 1 1 (fun d =>
        if d.activeWaits s.pending t p then d.no 0x0401 else d.pairAck p)))) ∧
  -- SIN_ENABLE (R281)
  (∀ (s : State) (t : Nat) (r : Req) (p : Nat), exec (.sinEnable t r p) s = .next (after s (
    (s.dev.advance t).dictVal r 0x4230 (p + 1) 1 1 (fun d => d.pairEnable p)))) ∧
  -- SIN_DISABLE (R281)
  (∀ (s : State) (t : Nat) (r : Req) (p : Nat), exec (.sinDisable t r p) s = .next (after s (
    (s.dev.advance t).dictVal r 0x4230 (p + 1) 1 0 (fun d => d.pairDisable p)))) ∧
  -- ACL_CHANNEL_CHANGE (R286)
  (∀ (s : State) (t die chan : Nat) (ua : List Nat), exec (.aclChannelChange t die chan ua) s = .next (after s (
    let d := s.dev.advance t
    match aclReading ua with | some (permit, exceeds) => d.aclChange die chan permit exceeds | none => d))) ∧
  -- ACL_DISCREPANCY_LATCH (R286)
  (∀ (s : State) (t die : Nat), exec (.aclDiscrepancyLatch t die) s = .next (after s (
    let d : Dev := s.dev.advance t
    let i : Nat := die
    let x := d.loadDieOf i
    if decide (x.aclAt ≠ 0) && !d.discLatched (8 + i) && (!d.fabricOn || decide (x.aclAt + 99 * 950000 ≤ d.now + 1)) then
      let d : Dev := { d with disc := d.disc + 2 ^ (8 + i) }
      let d := ((d.setF (Reg.ACL_STATUS i) 22 16 100).incOb Obj.AclDiscrepancyCount).discFeed 8 100 100
      let d := d.aclUpdate i
      let d := d.event (2 + i) 0x6041 [.h i, .h (if d.bit (Reg.ACL_STATUS i) 0 then 0 else 1)]
      d.closeUpdate (2 + i)
    else d))) ∧
  -- ACL_ACK (R286)
  (∀ (s : State) (t : Nat) (r : Req), exec (.aclAck t r) s = .next (after s (
    (s.dev.advance t).dictVal r 0x4240 2 1 1 (fun d =>
        if permitWaits s.pending t then d.no 0x0401 else d.aclAck)))) ∧
  -- ALL_CLOSE_REPEAT (R327)
  (∀ (s : State) (t : Nat), exec (.allCloseRepeat t) s = .next (after s (
    let d := s.dev.advance t
    if d.closed && decide (d.ib.closeSentAt + 2000000 ≤ d.now) then d.allCloseSend else d))) ∧
  -- SILL_CLOSE_REPEAT (R307)
  (∀ (s : State) (t : Nat), exec (.sillCloseRepeat t) s = .next (after s (
    let d := s.dev.advance t
    if d.closed then (List.range 16).foldl (fun (d : Dev) n =>
      if (d.link n).holdUntil ≤ d.now + 1000000 then d.sillCloseOn n else d) d
    else d))) ∧
  -- AI_CONVERSION_DONE (R289)
  (∀ (s : State) (t n code : Nat), exec (.aiConversionDone t n code) s = .next (after s ((s.dev.advance t).aiDone n code))) ∧
  -- AI_SCAN_CONVERSION (R289)
  (∀ (s : State) (t n : Nat), exec (.aiScanConversion t n) s = .next (after s (
    let d : Dev := s.dev.advance t
    let x := d.aiOf n
    let i := aiDie n
    let c := d.loadDieOf i
    let per := (d.rd (Reg.AI_PERIOD n)).toNat * 1000
    let turn := d.now / per * per + 1
    if d.bit (Reg.AI_CTRL n) 23 && d.aiMode n != 0 && decide (x.scanFor < turn) && c.conv.isNone
        && decide (c.lastConv ≤ d.now + 1 - 10000) then
      (d.setLoadDie i { c with conv := some (n, false, d.now), lastConv := d.now + 1 }).setAi n { x with scanFor := turn }
    else d))) ∧
  -- AI_STALE (R290)
  (∀ (s : State) (t n : Nat), exec (.aiStale t n) s = .next (after s (
    let d : Dev := s.dev.advance t
    if d.bit (Reg.AI_CTRL n) 23 && d.aiMode n != 0
        && decide ((d.aiOf n).resultAt + 3 * (d.rd (Reg.AI_PERIOD n)).toNat * 1000 ≤ d.now) then
      (d.setBit (Reg.AI_STATUS n) 3 true).aiValid n
    else d))) ∧
  -- AI_OVERLOAD (R288)
  (∀ (s : State) (t n : Nat), exec (.aiOverload t n) s = .next (after s (
    let d : Dev := s.dev.advance t
    if d.aiMode n = 3 then
      let x := d.aiOf n
      let was := d.bit (Reg.AI_STATUS n) 7
      let d := ((d.setAi n { x with offAt := d.now }).setBit (Reg.AI_STATUS n) 7 true).aiValid n
      if was then d else d.event (2 + aiDie n) 0x6050 [.h n, .h 4]
    else d))) ∧
  -- AI_SHUNT_RETRY (R288)
  (∀ (s : State) (t n : Nat), exec (.aiShuntRetry t n) s = .next (after s (
    let d : Dev := s.dev.advance t
    if d.bit (Reg.AI_STATUS n) 7 && decide ((d.aiOf n).offAt + 100000000 ≤ d.now) then
      (d.setBit (Reg.AI_STATUS n) 7 false).aiValid n
    else d))) ∧
  -- SENSOR_SUPPLY_TRIP (R288)
  (∀ (s : State) (t die mA : Nat), exec (.sensorSupplyTrip t die mA) s = .next (after s (
    let d : Dev := s.dev.advance t
    let i : Nat := die
    if d.bit (Reg.AI_DIE_STATUS i) 0 then
      let d := (d.setBit (Reg.AI_DIE_STATUS i) 0 false).setBit (Reg.AI_DIE_STATUS i) 1 true
      let d := (List.range 8).foldl (fun (d : Dev) j => (d.setBit (Reg.AI_STATUS (8 * i + j)) 2 true).aiValid (8 * i + j)) d
      d.event (2 + i) 0x6051 [.h i, .w mA]
    else d)))

/-- Every command of a Sill link answers a next state behind the close gate, with the queue as it was, and the device that the right side spells out: what the rules named before each clause give it, and where its condition does not hold no change but the time. What the spec leaves open at these points is the model's choice (log entries 69, 116). -/
def Obligations.SillCommands : Prop :=
  -- SILL_ENABLE (R299), as a register write
  (∀ (s : State) (t m n : Nat), exec (.sillEnable t (.reg m) n) s = .next (after s (
    (s.dev.advance t).byMaster m (Reg.SL_CTRL n) true (fun (d : Dev) =>
      let was := d.bit (Reg.SL_CTRL n) 31
      let d := d.setBit (Reg.SL_CTRL n) 31 true
      if !was then d.setLinkState n 1 else d)))) ∧
  -- SILL_ENABLE (R299), as a dictionary request
  (∀ (s : State) (t : Nat) (r : Req) (n : Nat), exec (.sillEnable t (.dict r) n) s = .next (after s (
    (s.dev.advance t).dictVal r 0x4300 (n + 1) 1 1 (fun d =>
        if d.inField then d.no 0x0401 else (d.sillEnable n true).yes)))) ∧
  -- SILL_SYMBOL_LOCK (R299)
  (∀ (s : State) (t n : Nat), exec (.sillSymbolLock t n) s = .next (after s (
    let d := s.dev.advance t
    if d.linkState n = 1 then d.sillEnumerate n else d))) ∧
  -- SILL_IDENTITY_RX (R299)
  (∀ (s : State) (t n sym : Nat) (b : List Byte), exec (.sillIdentityRx t n sym b) s = .next (after s (
    let d : Dev := s.dev.advance t
    if !d.bit (Reg.SL_CTRL n) 31 || decide (16 ≤ n) then d
    else
      let d := d.symErrors n sym
      if !sillCrcOk b then d.badUp n
      else
        let d := d.goodUp n
        if byteAt b 0 = 0x82 ∧ leAt b 2 2 = 11 then d.identity n b
        else if byteAt b 0 = 0x86 ∧ leAt b 2 2 = 140 + 8 * byteAt b 140 then d.sillStatus n (tileReport b)
        else d.incF (Reg.SL_ERR n) 15 0))) ∧
  -- SILL_ENUM_COMPLETE (R299)
  (∀ (s : State) (t n : Nat) (rts : List Nat), exec (.sillEnumComplete t n rts) s = .next (after s (
    let d : Dev := s.dev.advance t
    let l := d.link n
    if d.linkState n = 2 ∧ l.lastIdentAt + 50000 ≤ d.now then
      let d := d.setF (Reg.SL_STATUS n) 12 8 l.answers
      let d := d.loseFrom n l.answers
      let d := (List.range l.answers).foldl (fun (d : Dev) t =>
        let x := d.tile n t
        let d := d.sillSend n 0x06 t []
        match rts[t]? with
        | none => d.setTile n t { x with missed := x.missed + 1 }
        | some rt =>
          let off := (rt - 1000) / 2
          let d := (d.setTile n t { x with offset := off }).wr (Reg.SL_TOFF n t) (wd off)
          d.sillSend n 0x05 t (leBytes off 4 ++ leBytes (d.f (Reg.SL_CTRL n) 13 8) 1)) d
      (d.setLinkState n 3).linkNote n true
    else d))) ∧
  -- SILL_TIME_FRAME (R298)
  (∀ (s : State) (t : Nat), exec (.sillTimeFrame t) s = .next (after s (
    let d : Dev := s.dev.advance t
    if d.fabricOn && decide (d.now % 1000000 = 0) then
      (List.range 16).foldl (fun (d : Dev) n =>
        if d.bit (Reg.SL_CTRL n) 31 then d.sillSend n 0x01 sillAll (leBytes d.now 8 ++ leBytes d.ftClass 1) else d) d
    else d))) ∧
  -- SILL_POLL (R309)
  (∀ (s : State) (t n : Nat), exec (.sillPoll t n) s = .next (after s (
    let d : Dev := s.dev.advance t
    let l := d.link n
    if d.linkRunning n && l.polled.isNone && decide (l.lastPollAt + d.f (Reg.SL_CTRL n) 7 0 * 50000 ≤ d.now) then
      match d.nextPoll n l.pollNext with
      | none => d
      | some t => (d.setLink n { l with polled := some t, pollNext := (t + 1) % 16, lastPollAt := d.now }).sillSend n 0x06 t []
    else d))) ∧
  -- SILL_STATUS_RX (R309)
  (∀ (s : State) (t n sym : Nat) (b : List Byte), exec (.sillStatusRx t n sym b) s = .next (after s (
    let d : Dev := s.dev.advance t
    if lossWaits s.pending t n then d else d.sillUp n sym b))) ∧
  -- SILL_POLL_TIMEOUT (R308)
  (∀ (s : State) (t n : Nat), exec (.sillPollTimeout t n) s = .next (after s (
    let d : Dev := s.dev.advance t
    let l := d.link n
    match l.polled with
    | none => d
    | some t =>
      if l.lastPollAt + 50000 ≤ d.now then
        let d := d.setLink n { l with polled := none }
        let x := d.tile n t
        let k := x.missed + 1
        let d := d.setTile n t { x with missed := k }
        if k < 3 then d
        else if t = 0 then d.loseLink n
        else
          let l := d.link n;
          (d.setLink n { l with reenumAt := d.now }).loseFrom n t
      else d))) ∧
  -- SILL_LINK_LOSS (R308)
  (∀ (s : State) (t n sym : Nat), exec (.sillLinkLoss t n sym) s = .next (after s (((s.dev.advance t).symErrors n sym).loseLink n))) ∧
  -- SILL_REENUM_TIMER (R308)
  (∀ (s : State) (t n : Nat), exec (.sillReenumTimer t n) s = .next (after s (
    let d : Dev := s.dev.advance t
    let l := d.link n
    if d.bit (Reg.SL_CTRL n) 31 && (d.anyLost n || decide (d.linkState n = 4)) && decide (l.reenumAt + 1000000000 ≤ d.now) then
      if d.linkState n = 4 then (d.setLink n { l with reenumAt := d.now }).setLinkState n 1
      else if d.linkState n = 3 then d.sillEnumerate n
      else d.setLink n { l with reenumAt := d.now }
    else d))) ∧
  -- SILL_REENUMERATE (R299), as a register write
  (∀ (s : State) (t m n : Nat), exec (.sillReenumerate t (.reg m) n) s = .next (after s (
    (s.dev.advance t).byMaster m (Reg.SL_CTRL n) true (fun d => if d.serviceOpen then d.reenumerate n else d)))) ∧
  -- SILL_REENUMERATE (R299), as a dictionary request
  (∀ (s : State) (t : Nat) (r : Req) (n : Nat), exec (.sillReenumerate t (.dict r) n) s = .next (after s (
    (s.dev.advance t).dictVal r 0x4305 (n + 1) 1 1 (fun d => (d.reenumerate n).yes))))

/-- Every command of the implement buses answers a next state behind the close gate, with the queue as it was, and the device that the right side spells out: what the rules named before each clause give it, and where its condition does not hold no change but the time. What the spec leaves open at these points is the model's choice (log entries 70 to 73, 112, 113). -/
def Obligations.ImplementBusCommands : Prop :=
  -- IB_FRAME_RX (R318)
  (∀ (s : State) (t port start : Nat) (std remote : Bool) (ident : Nat) (data : List Byte), exec (.ibFrameRx t port start std remote ident data) s = .next (after s (
    let d : Dev := s.dev.advance t
    if d.fabricOn && decide (port < 4) && d.ibEnabled port then
          d.busIn (fun d => d.frameRx port start std remote ident (data.take 64))
        else if d.asleep && d.ib.wakePorts.contains port then d.busSeen port t
        else d))) ∧
  -- NODE_WINDOWS_RESTORE (R325)
  (∀ (s : State) (t port node : Nat), exec (.nodeWindowsRestore t port node) s = .next (after s (
    let d : Dev := s.dev.advance t
    let p : Nat := port
    match d.ibNode p node with
    | none => d
    | some n =>
      if d.fabricOn && n.removed && decide (n.removedAt + 1000 < d.roundNumber) then
        let d := d.withNode p node (fun (n : IbNode) => { n with removed := false, intrusions := [], before := if n.before = 4 then 2 else n.before })
        let d := if d.nodeState p node = 4 then d.setNodeState p node 2 else d;
        (d.nodeConfigure p node).event 0 0x7003 [.h p, .h node]
      else d))) ∧
  -- IB_SILENCE (R328)
  (∀ (s : State) (t : Nat) (r : Req) (v : Nat), exec (.ibSilence t r v) s = .next (after s (
    (s.dev.advance t).dictVal r 0x1306 1 8 v (fun d => d.writeSilence v)))) ∧
  -- IB_SILENCE_RX (R328)
  (∀ (s : State) (t port sender v : Nat), exec (.ibSilenceRx t port sender v) s = .next (after s (
    let d : Dev := s.dev.advance t
    let p : Nat := port
    if !d.fabricOn then d
    else if sender ≠ d.tmst.master ∨ sender = 0 then d.guardRefuse p sender
    else if d.now + 1000000000 < v then d
    else d.silenceTo v))) ∧
  -- SILENCE_END (R328)
  (∀ (s : State) (t : Nat), exec (.silenceEnd t) s = .next (after s (
    let d : Dev := s.dev.advance t
    if d.ib.silenced && decide (d.ib.silenceUntil ≤ d.now) then (d.setSilenced false).silenceNote else d))) ∧
  -- NODE_REPORT_RX (R330)
  (∀ (s : State) (t port node : Nat) (data : List Byte), exec (.nodeReportRx t port node data) s = .next (after s (
    let d : Dev := s.dev.advance t
    let p : Nat := port
    let fn : Nat := 0x10
    let f : Dev → Dev := (fun (d : Dev) => d.nodeReports port node data)
    if !d.fabricOn then d
    else
      let q := d.seqJudge p (0x3E00 + node) fn 0 (leAt data 0 2)
      if q.2 then f q.1 else q.1))) ∧
  -- NODE_STATUS_RX (R331)
  (∀ (s : State) (t port node : Nat) (data : List Byte), exec (.nodeStatusRx t port node data) s = .next (after s (
    let d : Dev := s.dev.advance t
    let p : Nat := port
    let fn : Nat := 0x11
    let f : Dev → Dev := (fun (d : Dev) => d.nodeStatusRx port node data)
    if !d.fabricOn then d
    else
      let q := d.seqJudge p (0x3E00 + node) fn 0 (leAt data 0 2)
      if q.2 then f q.1 else q.1))) ∧
  -- NODE_TIMEOUT (R333)
  (∀ (s : State) (t port node : Nat), exec (.nodeTimeout t port node) s = .next (after s (
    let d : Dev := s.dev.advance t
    let p : Nat := port
    match d.ibNode p node with
    | none => d
    | some n =>
      if d.fabricOn && decide (d.nodeState p node ≠ 3) && decide (n.heardAt + d.ob Obj.NodeTimeout * 1000000 ≤ d.now) then
        let was := d.nodeState p node
        let d := d.withNode p node (fun (n : IbNode) => { n with before := was })
        let d := (d.setNodeState p node 3).event 0 0x7005 [.h p, .h node]
        let d : Dev := { d with ib := { d.ib with tx := d.ib.tx.filter (fun f => !(f.port == p && f.fn == 8 && f.stream == node)) } };
        (d.shq.queue.filter (fun q => q.action != 0 && d.qClass q == 3 && d.qOut q / 64 == p * 64 + node)).foldl Dev.undeliverable d
      else d))) ∧
  -- NODE_CONFIGURE_PERIODIC (R331)
  (∀ (s : State) (t : Nat), exec (.nodeConfigurePeriodic t) s = .next (after s (
    let d : Dev := s.dev.advance t
    if d.fabricOn then
      d.ib.nodes.foldl (fun (d : Dev) n => if n.configAt + 1000000000 ≤ d.now then d.nodeConfigure n.port n.node else d) d
    else d))) ∧
  -- IB_TX_QUEUE (R335)
  (∀ (s : State) (t m port : Nat), exec (.ibTxQueue t m port) s = .next (after s (
    (s.dev.advance t).byMaster m (Reg.IB_TX_CMD port) true (fun (d : Dev) =>
      let p : Nat := port
      let id := (d.rdM m (Reg.IB_TX_ID p)).toNat
      let n := d.fM m (Reg.IB_TX_LEN p) 6 0
      let prio := bitsOf id 28 26
      let fn := bitsOf id 25 20
      if 64 < n then d.txResult m p 3
      else if prio = 0 ∨ fn < 0x30 ∨ bitsOf id 19 6 ≠ d.ob Obj.PackageNumber then
        (d.setBit (Reg.IB_STATUS p) 30 true).txResult m p 2
      else
        let bytes := ((List.range 16).flatMap (fun i => leBytes (d.rdM m (Reg.IB_TX_DATA p i)).toNat 4)).take n
        let x := d.ibPush
          { port := p, prio := prio, fn := fn, stream := bitsOf id 5 0, data := fdPad bytes, entries := [], node := 0, on := false }
        x.1.txResult m p (if x.2 then 0 else 1))))) ∧
  -- IB_FRAME_SEND (R322)
  (∀ (s : State) (t port : Nat), exec (.ibFrameSend t port) s = .next (after s ((s.dev.advance t).frameSend port))) ∧
  -- IB_ERROR_STATE (R315)
  (∀ (s : State) (t port st tec rec : Nat), exec (.ibErrorState t port st tec rec) s = .next (after s (
    let d := s.dev.advance t
    if d.fabricOn then d.ibErrorState port st tec rec else d))) ∧
  -- RENDEZVOUS_BEACON (R336)
  (∀ (s : State) (k : Nat), exec (.rendezvousBeacon k) s = .next (after s ((s.dev.advanceTicks k).beaconStep k))) ∧
  -- RENDEZVOUS_BEACON_RX (R337)
  (∀ (s : State) (k port who : Nat) (data : List Byte), exec (.rendezvousBeaconRx k port who data) s = .next (after s ((s.dev.advanceTicks k).beaconRx k port who data))) ∧
  -- RENDEZVOUS_PARTNER_LOST (R337)
  (∀ (s : State) (k port who : Nat), exec (.rendezvousPartnerLost k port who) s = .next (after s ((s.dev.advanceTicks k).partnerLost k port who))) ∧
  -- RENDEZVOUS_WAKE_RETRY (R337)
  (∀ (s : State) (k port who : Nat), exec (.rendezvousWakeRetry k port who) s = .next (after s ((s.dev.advanceTicks k).wakeRetry k port who))) ∧
  -- IB_WAKE_PATTERN (R338)
  (∀ (s : State) (k port : Nat), exec (.ibWakePattern k port) s = .next (after s ((s.dev.advanceTicks k).ibWake port 1))) ∧
  -- IB_RX_OBJECT_RELEASE (R334)
  (∀ (s : State) (t port obj : Nat), exec (.ibRxObjectRelease t port obj) s = .next (after s (
    let d : Dev := s.dev.advance t
    let p : Nat := port
    let o : Nat := obj
    { d with ib := { d.ib with objects := d.ib.objects.filter (fun x =>
    !(x.port == p && x.obj == o && !x.node && decide (x.heardAt + 60000000000 ≤ d.now))) } })))

/-- Every command of the Transom answers a next state behind the close gate, with the queue as it was, and the device that the right side spells out: what the rules named before each clause give it, and where its condition does not hold no change but the time. What the spec leaves open at these points is the model's choice (log entries 75). -/
def Obligations.TransomCommands : Prop :=
  -- TRANSOM_FRAME_RX (R347)
  (∀ (s : State) (t lane : Nat) (toField : Bool) (b : List Byte), exec (.transomFrameRx t lane toField b) s = .next (after s (
    let d : Dev := s.dev.advance t
    if !d.fabricOn then d
    else
      let c := transomFault toField b
      if c = 0 then d else d.transomDrop lane (byteAt b 0) (Config.cause 0x7010 c)))) ∧
  -- LANE_DOWN (R345)
  (∀ (s : State) (t lane : Nat), exec (.laneDown t lane) s = .next (after s (
    let d := s.dev.advance t
    if d.fabricOn then d.setTrLane lane false else d))) ∧
  -- HOST_STOP_WRITE (R349)
  (∀ (s : State) (t : Nat) (r : Req) (v : Nat), exec (.hostStopWrite t r v) s = .next (after s (
    (s.dev.advance t).dictVal r 0x1100 3 1 v (fun d => d.writeHostStop v)))) ∧
  -- HOST_STOP_ASSERT (R349)
  (∀ (s : State) (t : Nat) (firmware : Bool), exec (.hostStopAssert t firmware) s = .next (after s (
    let d : Dev := s.dev.advance t
    let d := if firmware then d.fwStopSet true else d
    if !d.fabricOn || d.tr.laneStop then d
    else
      let src := if d.ob Obj.HostStop = 1 then 2 else if d.tr.fwStop then 3 else 1;
      ({ d with tr := { d.tr with laneStop := true, source := if d.bit Reg.TR_STATUS 2 then d.tr.source else src } } : Dev).stopUpdate))) ∧
  -- HOST_STOP_RELEASE (R349)
  (∀ (s : State) (t : Nat) (firmware : Bool), exec (.hostStopRelease t firmware) s = .next (after s (
    let d : Dev := s.dev.advance t
    let d := if firmware then d.fwStopSet false else d
    if d.fabricOn && !d.tr.laneLost && !d.stopAsked then ({ d with tr := { d.tr with laneStop := false } } : Dev).stopUpdate else d))) ∧
  -- STOP_LANE_LOST (R349)
  (∀ (s : State) (t : Nat), exec (.stopLaneLost t) s = .next (after s (
    let d : Dev := s.dev.advance t
    if !d.fabricOn || d.tr.laneLost then d
    else
      let was := d.bit Reg.TR_STATUS 2
      let d : Dev := { d with tr := { d.tr with laneLost := true, source := if was then d.tr.source else 4 } }
      let d := (d.setBit Reg.TR_LANES 8 false).event 0 0x7012 [.h 1]
      d.stopUpdate))) ∧
  -- STOP_LANE_RETURN (R349)
  (∀ (s : State) (t : Nat), exec (.stopLaneReturn t) s = .next (after s (
    let d : Dev := s.dev.advance t
    if !d.fabricOn || (!d.tr.laneLost && d.bit Reg.TR_LANES 8) then d
    else
      let lost := d.tr.laneLost
      let d : Dev := { d with tr := { d.tr with laneLost := false, laneStop := d.bit Reg.TR_STATUS 2 } }
      let d := d.setBit Reg.TR_LANES 8 true
      let d := if lost then d.event 0 0x7012 [.h 2] else d
      d.stopUpdate))) ∧
  -- POSE_IN_DATAGRAM (R350)
  (∀ (s : State) (t : Nat) (b : List Byte), exec (.poseInDatagram t b) s = .next (after s (
    let d : Dev := s.dev.advance t
    if !d.hostOn then d
    else if b.length < 1 ∨ 1004 < b.length then d.transomDrop 1 3 (Config.cause 0x7010 3)
    else
      let q := d.tr.poseQ
      let d := if 64 ≤ q.length then d.transomDrop 1 3 (Config.cause 0x7010 5) else d
      let q := if 64 ≤ q.length then q.drop 1 else q;
      ({ d with tr := { d.tr with poseQ := q ++ [(d.hostNow, !d.laneValid, b)] } } : Dev).bump))) ∧
  -- POSE_IN (R350)
  (∀ (s : State) (t : Nat), exec (.poseIn t) s = .next (after s (
    let d : Dev := s.dev.advance t
    match d.fabricOn, d.laneFor 1, d.tr.poseQ with
    | true, some lane, (stamp, un, b) :: rest =>
      let d : Dev := { d with tr := { d.tr with poseQ := rest } }
      let m : TrMsg :=
        { kind := 3, lane := 1, toField := true, stamp := stamp, unaligned := un, payload := b, next := [], port := 0 }
      (d.crossNow m lane).poseWrite stamp un b
    | _, _, _ => d))) ∧
  -- AS_APPLIED_OUT (R351)
  (∀ (s : State) (t m : Nat), exec (.asAppliedOut t m) s = .next (after s (
    (s.dev.advance t).byMaster m Reg.TR_TX_CMD true (fun (d : Dev) =>
      let n := d.fM m Reg.TR_TX_LEN 11 0
      if n < 1 ∨ 2000 < n then d.reject m Reg.TR_TX_LEN
      else if !d.bit Reg.TR_STATUS 1 then (d.setBit Reg.TR_STATUS 30 true).trResult m 2
      else
        let lane := d.tr.asLane
        let bytes := ((List.range ((n + 3) / 4)).flatMap (fun i => leBytes (d.rdM m (Reg.TR_TX_DATA i)).toNat 4)).take n
        let x := d.crossOut (d.fieldMsg 5 lane bytes (d.asNext bytes))
        if d.crossFull 5 false then (x.setBit Reg.TR_STATUS 30 true).trResult m 1
        else ({ x with tr := { x.tr with asLane := 9 - lane } } : Dev).trResult m 0)))) ∧
  -- KEYHOLE_ATTACH (R355)
  (∀ (s : State) (t : Nat), exec (.keyholeAttach t) s = .next (after s (
    let d : Dev := s.dev.advance t
    let on : Bool := true
    if d.hostOn && d.tr.keyhole != on then
      Dev.event { d with tr := { d.tr with keyhole := on } } 4 0x7016 [.h (if on then 1 else 2)]
    else d))) ∧
  -- KEYHOLE_DETACH (R355)
  (∀ (s : State) (t : Nat), exec (.keyholeDetach t) s = .next (after s (
    let d : Dev := s.dev.advance t
    let on : Bool := false
    if d.hostOn && d.tr.keyhole != on then
      Dev.event { d with tr := { d.tr with keyhole := on } } 4 0x7016 [.h (if on then 1 else 2)]
    else d))) ∧
  -- HOST_LINK_CHANGE (R366)
  (∀ (s : State) (t port : Nat) (up : Bool), exec (.hostLinkChange t port up) s = .next (after s (
    let d : Dev := s.dev.advance t
    let p : Nat := port
    if d.hostOn && decide (p < 3) && d.ob (Obj.HostLinkState p) != b2n up then
      (d.setOb (Obj.HostLinkState p) (b2n up)).event 4 0x7015 [.h p]
    else d)))

/-- Every command of the recorder, of the metering unit and of the firmware-defined objects answers a next state behind the close gate, with the queue as it was, and the device that the right side spells out: what the rules named before each clause give it, and where its condition does not hold no change but the time. What the spec leaves open at these points is the model's choice (log entries 80, 89, 90, 115). -/
def Obligations.RecorderAndMeterCommands : Prop :=
  -- DICT_RESP_WRITE (R413)
  (∀ (s : State) (t m : Nat) (w : Word), exec (.dictRespWrite t m w) s = .next (after s (
    (s.dev.advance t).byMaster m Reg.DICT_RESP true (fun (d : Dev) => d.fwExpire.dictResp w)))) ∧
  -- DICT_READY (R414)
  (∀ (s : State) (t m : Nat), exec (.dictReady t m) s = .next (after s (
    (s.dev.advance t).byMaster m Reg.DICT_CTRL true (fun (d : Dev) =>
      let w : Word := 1;
      (d.regStore m Reg.DICT_CTRL w).fwNext)))) ∧
  -- FIRMWARE_OBJECT_TIMEOUT (R413)
  (∀ (s : State) (t : Nat), exec (.firmwareObjectTimeout t) s = .next (after s (
    let d : Dev := s.dev.advance t
    if !d.fwRuns then
      let all := (match d.dict.fw with | some w => [w] | none => []) ++ d.dict.fwQueue
      let d : Dev := { d with dict := { d.dict with fw := none, fwQueue := [] } }
      all.foldl (fun (d : Dev) w => d.fwRefuse w 0x0401) d
    else
      let late (w : Waiting) : Bool := decide (w.since + fwLimit ≤ d.now)
      let old := d.dict.fwQueue.filter late
      let d : Dev := { d with dict := { d.dict with fwQueue := d.dict.fwQueue.filter (fun w => !late w) } }
      let d := old.foldl (fun (d : Dev) w => d.fwRefuse w 0x0601) d
      match d.dict.fw with
      | some w =>
        if late w then
          let d : Dev := { d with dict := { d.dict with fw := none } };
          ((d.fwRefuse w 0x0601).event 1 0x3032 [.h w.idx, .h w.sub]).fwNext
        else d
      | none => d))) ∧
  -- FIRMWARE_EVENT (R472)
  (∀ (s : State) (t m code : Nat), exec (.firmwareEvent t m code) s = .next (after s (
    (s.dev.advance t).byMaster m Reg.EVT_CODE true (fun (d : Dev) =>
      let code : Nat := (code % 65536)
      if code < 0xD000 then d.reject m Reg.EVT_CODE
      else
        let p (i : Nat) : Param := .w (d.rdM m (Reg.EVT_P i)).toNat
        d.event (if m < engines then dieOf m else 1) code [p 0, p 1, p 2])))) ∧
  -- EVENT_PAGE_WRITE (R473)
  (∀ (s : State) (t : Nat), exec (.eventPageWrite t) s = .next (after s (
    let d : Dev := s.dev.advance t
    if d.rcd.scanDone && d.pageDue then (d.queueEventPage 7 0).queueForerunner else d))) ∧
  -- NOR_PAGE_PROGRAM_DONE (R466)
  (∀ (s : State) (t : Nat), exec (.norPageProgramDone t) s = .next (after s ((s.dev.advance t).progDone))) ∧
  -- NOR_BLOCK_ERASE_DONE (R464)
  (∀ (s : State) (t : Nat), exec (.norBlockEraseDone t) s = .next (after s (
    let d : Dev := s.dev.advance t
    match d.flash.erase with
    | some _ => if d.flash.suspended then d else (Dev.eraseStart { d with flash := { d.flash with erase := none } }).progStart.nvStatus
    | none => d))) ∧
  -- HISTOGRAM_FEED (R476)
  (∀ (s : State) (t m : Nat) (v : Int), exec (.histogramFeed t m v) s = .next (after s (
    (s.dev.advance t).byMaster m Reg.HIST_VAL true (fun (d : Dev) =>
      let h := d.fM m Reg.HIST_NUM 9 0
      let (en, lower, width, src) := d.histDesc h
      if 64 ≤ h ∧ en ∧ src = 0xFFFF ∧ 0 < width then d.histFeed h lower width v v
      else d.setBit Reg.REC_STATUS 30 true)))) ∧
  -- HISTOGRAM_SNAPSHOT (R477)
  (∀ (s : State) (t : Nat), exec (.histogramSnapshot t) s = .next (after s (
    let d : Dev := s.dev.advance t
    if d.rcd.scanDone && decide (d.rcd.snapAt + d.ob Obj.HistSnapshotPeriod * 1000000000 ≤ d.now) then
      ({ d.writeHists with rcd := { d.writeHists.rcd with snapAt := d.now } } : Dev)
    else d))) ∧
  -- HISTOGRAM_SAFETY_WRITE (R477)
  (∀ (s : State) (t : Nat), exec (.histogramSafetyWrite t) s = .next (after s (
    let d : Dev := s.dev.advance t
    if d.rcd.scanDone then d.writeSafetyHists else d))) ∧
  -- RECORDER_SCAN_DONE (R468)
  (∀ (s : State) (t : Nat), exec (.recorderScanDone t) s = .next (after s (
    let d : Dev := s.dev.advance t
    if d.hostOn && !d.rcd.scanDone then d.scanComplete else d))) ∧
  -- RECORDER_CLEAR (R478)
  (∀ (s : State) (t : Nat) (r : Req) (v : Nat), exec (.recorderClear t r v) s = .next (after s (
    (s.dev.advance t).dictVal r 0x7002 4 1 v (fun d => d.recorderClear r (v % 256))))) ∧
  -- PERIOD_CLOSE (R482)
  (∀ (s : State) (t : Nat), exec (.periodClose t) s = .next (after s (
    let d : Dev := s.dev.advance t
    if d.periodDue then d.periodReached else d))) ∧
  -- METER_CHECKPOINT (R484)
  (∀ (s : State) (t : Nat), exec (.meterCheckpoint t) s = .next (after s (
    let d : Dev := s.dev.advance t
    if d.hostOn && decide (d.mtr.checkpointAt + d.ob Obj.MeterCheckpoint * 1000000000 ≤ d.now) then d.checkpoint else d))) ∧
  -- PERIOD_END_WRITE (R482)
  (∀ (s : State) (t : Nat) (r : Req) (v : Nat), exec (.periodEndWrite t r v) s = .next (after s (
    (s.dev.advance t).dictVal r 0x7102 2 8 v (fun d => d.writePeriodEnd (v % 2 ^ 64))))) ∧
  -- ACCOUNTS_CLEAR (R486)
  (∀ (s : State) (t : Nat) (r : Req) (v : Nat), exec (.accountsClear t r v) s = .next (after s (
    (s.dev.advance t).dictVal r 0x7100 4 2 v (fun d => d.accountsClear r (v % 65536))))) ∧
  -- DEVICE_HISTOGRAM_SAMPLE (R476)
  (∀ (s : State) (t : Nat), exec (.deviceHistogramSample t) s = .next (after s (
    let d : Dev := s.dev.advance t
    if d.hostOn then d.deviceHists else d)))

/-! ## Completion -/

/-- Every vector instruction that names no memory completes (R398, R400): where the engine issues it and its operands are ones it lists,
it answers the next state spelled here, from every state. Lanes that the mask leaves out keep their value (`setLanes`). A shift by 32 or
more has a free value (log entry 12), and what the spec leaves open of a float operation is free in the functions named here (log
entries 14 to 18). -/
def Obligations.VectorInstructionsComplete : Prop :=
  ∀ (s : State) (t e : Nat) (vd vs1 vs2 : BitVec 4) (m g lane : BitVec 5), Issues s t e →
    let d := atIssue s t e
    let v1 (i : Nat) : Word := d.lane e vs1.toNat i
    let v2 (i : Nat) : Word := d.lane e vs2.toNat i
    let mask : Nat := if m.toNat = 0 then 0xFFFF else (d.gr e m.toNat).toNat
    let lanes (c : Instr) (f : Nat → Word) : Prop := exec c s = .next (after s (follow (d.setLanes e vd.toNat mask f) e))
    let all (c : Instr) (f : Nat → Word) : Prop := exec c s = .next (after s (follow (d.setLanes e vd.toNat 0xFFFF f) e))
    let gives (c : Instr) (w : Word) : Prop := exec c s = .next (after s (follow (d.setGr e g.toNat w) e))
    let folds (c : Instr) (f : Word → Word → Word) : Prop :=
      gives c ((List.range 15).foldl (fun w i => f w (v1 (i + 1))) (v1 0))
    let shift (k : Nat) (f : Word → Nat → Word) (i : Nat) : Word :=
      if (v2 i).toNat < 32 then f (v1 i) (v2 i).toNat else Config.wideShift k (v1 i) (v2 i)
    lanes (.vadd t e vd vs1 vs2 m) (fun i => v1 i + v2 i) ∧ lanes (.vsub t e vd vs1 vs2 m) (fun i => v1 i - v2 i)
    ∧ lanes (.vmul t e vd vs1 vs2 m) (fun i => v1 i * v2 i) ∧ lanes (.vmulhi t e vd vs1 vs2 m) (fun i => mulHigh (v1 i) (v2 i))
    ∧ lanes (.vand t e vd vs1 vs2 m) (fun i => v1 i &&& v2 i) ∧ lanes (.vor t e vd vs1 vs2 m) (fun i => v1 i ||| v2 i)
    ∧ lanes (.vxor t e vd vs1 vs2 m) (fun i => v1 i ^^^ v2 i)
    ∧ lanes (.vshl t e vd vs1 vs2 m) (shift 0 (fun a n => a <<< n)) ∧ lanes (.vshr t e vd vs1 vs2 m) (shift 1 (fun a n => a >>> n))
    ∧ lanes (.vsar t e vd vs1 vs2 m) (shift 2 (fun a n => a.sshiftRight n))
    ∧ lanes (.vmin t e vd vs1 vs2 m) (fun i => if (v2 i).toInt < (v1 i).toInt then v2 i else v1 i)
    ∧ lanes (.vmax t e vd vs1 vs2 m) (fun i => if (v1 i).toInt < (v2 i).toInt then v2 i else v1 i)
    ∧ lanes (.vminu t e vd vs1 vs2 m) (fun i => if (v2 i).toNat < (v1 i).toNat then v2 i else v1 i)
    ∧ lanes (.vmaxu t e vd vs1 vs2 m) (fun i => if (v1 i).toNat < (v2 i).toNat then v2 i else v1 i)
    ∧ lanes (.vfadd t e vd vs1 vs2 m) (fun i => fAdd (v1 i) (v2 i)) ∧ lanes (.vfsub t e vd vs1 vs2 m) (fun i => fSub (v1 i) (v2 i))
    ∧ lanes (.vfmul t e vd vs1 vs2 m) (fun i => fMul (v1 i) (v2 i)) ∧ lanes (.vfdiv t e vd vs1 vs2 m) (fun i => fDiv (v1 i) (v2 i))
    ∧ lanes (.vfma t e vd vs1 vs2 m) (fun i => fMulAdd (v1 i) (v2 i) (d.lane e vd.toNat i))
    ∧ lanes (.vfmin t e vd vs1 vs2 m) (fun i => fMin (v1 i) (v2 i)) ∧ lanes (.vfmax t e vd vs1 vs2 m) (fun i => fMax (v1 i) (v2 i))
    ∧ lanes (.vfsqrt t e vd vs1 m) (fun i => fSqrt (v1 i)) ∧ lanes (.vffromi t e vd vs1 m) (fun i => fOfInt (swd (v1 i)))
    ∧ lanes (.vftoi t e vd vs1 m) (fun i => fToWord (v1 i))
    ∧ (vd.toNat % 2 = 0 → exec (.vfsct t e vd vs1 m) s = .next (after s (follow
        ((d.setLanes e vd.toNat mask (fun i => fSin (v1 i))).setLanes e (vd.toNat + 1) mask (fun i => fCos (v1 i))) e)))
    ∧ all (.vsel t e vd vs1 vs2 m) (fun i => if bitOf (d.gr e m.toNat).toNat i = true then v1 i else v2 i)
    ∧ gives (.vceq t e g vs1 vs2) (lanesWhere (fun i => decide (v1 i = v2 i)))
    ∧ gives (.vclt t e g vs1 vs2) (lanesWhere (fun i => decide ((v1 i).toInt < (v2 i).toInt)))
    ∧ gives (.vcltu t e g vs1 vs2) (lanesWhere (fun i => decide ((v1 i).toNat < (v2 i).toNat)))
    ∧ gives (.vfclt t e g vs1 vs2) (lanesWhere (fun i => fLt (v1 i) (v2 i)))
    ∧ gives (.vfceq t e g vs1 vs2) (lanesWhere (fun i => fEq (v1 i) (v2 i)))
    ∧ all (.vbcast t e vd g) (fun _ => d.gr e g.toNat)
    ∧ (lane.toNat ≤ 15 → exec (.vins t e vd g lane) s = .next (after s (follow (d.putLane e vd.toNat lane.toNat (d.gr e g.toNat)) e)))
    ∧ (lane.toNat ≤ 15 → gives (.vext t e g vs1 lane) (v1 lane.toNat))
    ∧ folds (.vredadd t e g vs1) (· + ·)
    ∧ folds (.vredmin t e g vs1) (fun a b => if b.toInt < a.toInt then b else a)
    ∧ folds (.vredmax t e g vs1) (fun a b => if a.toInt < b.toInt then b else a)
    ∧ folds (.vredminu t e g vs1) (fun a b => if b.toNat < a.toNat then b else a)
    ∧ folds (.vredmaxu t e g vs1) (fun a b => if a.toNat < b.toNat then b else a)

/-- Every look-ahead command completes with its own effect (R147, R149, R154, R155, R158, R164, R165), under conditions on the state and
the operands alone: the request granted, the master allowed, the fetch valid and a tag free, the datagram without a fault and its source
known or with a slot, a lane up, the source silent for its time. -/
def Obligations.LookaheadCommandsComplete : Prop :=
  ∀ (s : State) (t m e tag slot v off : Nat) (r : Req) (data : List Byte),
    let d := s.dev.advance t
    let takes (c : Instr) (idx sub off : Nat) (data : List Byte) (own : Dev → WRes) : Prop :=
      ∀ x, Granted d r idx sub off data own x → exec c s = .next (after s (served d r idx sub off data x))
    let row (y : Dev) : Int := sx 16 (y.obC (y.stageKey r) Obj.PaneY)
    let col (y : Dev) : Int := sx 16 (y.obC (y.stageKey r) Obj.PaneX)
    let full (y : Dev) : Bool := y.obC (y.stageKey r) Obj.PaneWriteMode == 1
    -- FRAME_LENGTH_WRITE
    takes (.frameLengthWrite t r v) 0x6000 1 0 (leBytes v 2) (fun y => y.writeFrameLength v)
    -- FRM_DONE: the frame is done, or the one that waits behind it begins
    ∧ (MayAct d m Reg.FRM_DONE_REG → d.frameBusy m = true →
        let y : Dev := { d with frame := { d.frame with share := max d.frame.share d.frameShare } }
        exec (.frmDone t m) s = .next (after s (
          if d.bitM m Reg.FRM_STATUS 1 = true then (y.setBitM m Reg.FRM_STATUS 1 false).raise m 0
          else (y.setBusy m false).setBitM m Reg.IRQ_PEND 0 false)))
    -- PANE_CREATE, PANE_DELETE, PANE_CLEAR_COVERAGE, PANE_DATA_WRITE
    ∧ takes (.paneCreate t r) 0x6003 7 0 (leBytes 1 1) (fun y => y.paneCreate (col y) (row y))
    ∧ takes (.paneDelete t r) 0x6003 7 0 (leBytes 2 1) (fun y => if y.levelOf r < 2 then y.no 0x0201 else y.paneDelete (col y) (row y))
    ∧ takes (.paneClearCoverage t r) 0x6003 7 0 (leBytes 3 1)
        (fun y => if y.levelOf r < 2 then y.no 0x0201 else y.paneClear (col y) (row y))
    ∧ takes (.paneDataWrite t r off data) 0x6003 9 off data
        (fun y => if full y = true ∧ y.levelOf r < 2 then y.no 0x0201 else y.paneWrite (col y) (row y) (full y) off data)
    -- PANE_FETCH
    ∧ (let w := fld (d.rdM m Reg.PF_SIZE) 6 0
       let h := fld (d.rdM m Reg.PF_SIZE) 22 16
       let dest := (d.rdM m Reg.PF_DEST).toNat
       MayAct d m Reg.PF_CMD → 1 ≤ w → w ≤ 64 → 1 ≤ h → h ≤ 64 → d.fetchDestOk m dest (16 + w * h) = true →
       freeTag d.look.fetches m 4 0 = some tag →
       exec (.paneFetch t m) s = .next (after s ((d.fetchStart
        { engine := m, tag := tag, x := swd (d.rdM m Reg.PF_X), y := swd (d.rdM m Reg.PF_Y), w := w, h := h
          layer := fld (d.rdM m Reg.PF_SIZE) 25 24, dest := ownAddr m dest, gen := 0, ft := 0, changed := false, first := []
          gone := 0 }).pfResult m tag 0)))
    -- PANE_FETCH_DONE
    ∧ (∀ f, d.look.fetches.find? (fun f => f.engine == e && f.tag == tag) = some f →
        exec (.paneFetchDone t e tag) s = .next (after s (d.fetchDone f)))
    -- TARGET_DATAGRAM: the source is heard and the datagram crosses to the field side
    ∧ (∀ x, d.hostOn = true → d.datagramFault data = none → d.heardSource (leAt data 8 2) (leAt data 4 4) = some x →
        let y : Dev := { x with tr := { x.tr with tgtLane := 5 - x.tr.tgtLane } }
        exec (.targetDatagram t data) s = .next (after s (y.crossOut (y.hostMsg 4 x.tr.tgtLane 2 data))))
    -- TARGET_LIST_IN
    ∧ (d.anyLane = true → exec (.targetListIn t data) s = .next (after s (d.targetListIn data)))
    -- TARGET_SOURCE_TIMEOUT
    ∧ (∀ x, d.srcAt slot = some x → x.live = true → x.lastFt + d.ob Obj.TargetSourceTimeout * 1000000 ≤ d.now →
        exec (.targetSourceTimeout t slot) s = .next (after s (Dev.setLive
          { d with look := { d.look with srcs := d.look.srcs.map (fun (z : TgtSrc) =>
            if z.slot = x.slot then { x with live := false, lostAt := d.now } else z) } } x.slot x.id false)))
    -- TARGET_SOURCE_RELEASE
    ∧ (∀ x, d.srcAt slot = some x → x.live = false → x.lostAt + 60000000000 ≤ d.now →
        exec (.targetSourceRelease t slot) s = .next (after s
          { d with look := { d.look with srcs := d.look.srcs.filter (fun z => z.slot != slot) } }))
end

