-- ==== Sys2Proof/Laws/Gate.lean ====
section
/-! SUPPORT. The close gate and a step: what the gate changes, and what every meaning answers. -/
namespace Sys2Proof.Laws
open Sys2Proof.Machine

/-! ## What the gate leaves alone -/

/-- The forcing half of the gate, over a list of channels. -/
theorem gateFold_regsOnly (ns : List Nat) (d : Dev) :
    ∃ r, ns.foldl (fun (d : Dev) n => if d.energised n then d.setPhase n 4 else d) d = { d with regs := r } := by
  induction ns generalizing d with
  | nil => exact ⟨d.regs, rfl⟩
  | cons n ns ih =>
    simp only [List.foldl_cons]
    split
    · obtain ⟨r, hr⟩ := ih (d.setPhase n 4)
      exact ⟨r, hr⟩
    · exact ih d

/-- The gate writes registers and nothing else. -/
theorem closeGate_regsOnly (d : Dev) : ∃ r, d.closeGate = { d with regs := r } := by
  unfold Dev.closeGate
  split
  · exact ⟨d.regs, rfl⟩
  · simp only
    split
    · exact ⟨_, rfl⟩
    · obtain ⟨r, hr⟩ := gateFold_regsOnly (List.range 64) (d.wr Reg.CLOSE_STATUS (closeWord d.causesNow))
      exact ⟨r, hr⟩

/-- A register that is no SOL_STATUS keeps its value when channels are forced off. -/
theorem gateFold_rd (ns : List Nat) (d : Dev) (a : Nat) (h : ∀ n ∈ ns, a ≠ Reg.SOL_STATUS n) :
    (ns.foldl (fun (d : Dev) n => if d.energised n then d.setPhase n 4 else d) d).rd a = d.rd a := by
  induction ns generalizing d with
  | nil => rfl
  | cons n ns ih =>
    simp only [List.foldl_cons]
    rw [ih _ (fun m hm => h m (List.mem_cons_of_mem _ hm))]
    split
    · exact rd_setF_ne _ _ _ _ _ _ (h n List.mem_cons_self)
    · rfl

theorem gate_solStatus_ne (a : Nat) (h : a < 0x40051000 ∨ 0x40052000 ≤ a) : ∀ n ∈ List.range 64, a ≠ Reg.SOL_STATUS n := by
  intro n hn
  have := List.mem_range.mp hn
  simp only [Reg.SOL_STATUS]
  omega

/-- The gate keeps every register but CLOSE_STATUS and the block of solenoid channels. -/
theorem closeGate_rd (d : Dev) (a : Nat) (hc : a ≠ Reg.CLOSE_STATUS) (h : a < 0x40051000 ∨ 0x40052000 ≤ a) :
    d.closeGate.rd a = d.rd a := by
  unfold Dev.closeGate
  split
  · rfl
  · simp only
    split
    · exact rd_wr_ne _ _ _ _ hc
    · rw [gateFold_rd _ _ _ (gate_solStatus_ne a h), rd_wr_ne _ _ _ _ hc]

theorem closeGate_hostOn (d : Dev) : d.closeGate.hostOn = d.hostOn := by
  obtain ⟨r, h⟩ := closeGate_regsOnly d
  rw [h]
  rfl

/-- Causes are read from registers outside the gate's reach. -/
theorem causesNow_congr (d e : Dev)
    (h : ∀ a, a ≠ Reg.CLOSE_STATUS → (a < 0x40051000 ∨ 0x40052000 ≤ a) → e.rd a = d.rd a) :
    e.causesNow = d.causesNow := by
  have h1 : ∀ p, p < 8 → e.rd (Reg.SIN_CTRL p) = d.rd (Reg.SIN_CTRL p) := fun p hp =>
    h _ (by simp only [Reg.SIN_CTRL, Reg.CLOSE_STATUS]; omega) (by simp only [Reg.SIN_CTRL]; omega)
  have h2 : ∀ p, p < 8 → e.rd (Reg.SIN_STATUS p) = d.rd (Reg.SIN_STATUS p) := fun p hp =>
    h _ (by simp only [Reg.SIN_STATUS, Reg.CLOSE_STATUS]; omega) (by simp only [Reg.SIN_STATUS]; omega)
  have h3 : ∀ i, i < 2 → e.rd (Reg.ACL_STATUS i) = d.rd (Reg.ACL_STATUS i) := fun i hi =>
    h _ (by simp only [Reg.ACL_STATUS, Reg.CLOSE_STATUS]; omega) (by simp only [Reg.ACL_STATUS]; omega)
  have h4 : e.rd Reg.TR_STATUS = d.rd Reg.TR_STATUS :=
    h _ (by simp only [Reg.TR_STATUS, Reg.CLOSE_STATUS]; omega) (by simp only [Reg.TR_STATUS]; omega)
  have hp : ∀ ps : List Nat, (∀ p ∈ ps, p < 8) → ∀ x : Nat,
      ps.foldl (fun a p => a + b2n (e.pairOn p && decide (e.f (Reg.SIN_STATUS p) 1 0 ≠ 1)) * 2 ^ p) x
        = ps.foldl (fun a p => a + b2n (d.pairOn p && decide (d.f (Reg.SIN_STATUS p) 1 0 ≠ 1)) * 2 ^ p) x := by
    intro ps
    induction ps with
    | nil => intro _ x; rfl
    | cons p ps ih =>
      intro hps x
      have hp := hps p List.mem_cons_self
      simp only [List.foldl_cons, Dev.pairOn, Dev.bit, Dev.f, h1 p hp, h2 p hp]
      simp only [Dev.pairOn, Dev.bit, Dev.f] at ih
      exact ih (fun q hq => hps q (List.mem_cons_of_mem _ hq)) _
  unfold Dev.causesNow
  rw [hp (List.range 8) (fun p hp => List.mem_range.mp hp) 0]
  simp only [Dev.bit, h3 0 (by omega), h3 1 (by omega), h4]

theorem closeGate_causesNow (d : Dev) : d.closeGate.causesNow = d.causesNow :=
  causesNow_congr d _ (fun a hc h => closeGate_rd d a hc h)

/-! ## What every meaning answers -/

@[simp] theorem put_eq (s : State) (d : Dev) : s.put d = .next { s with dev := d.closeGate } := rfl

/-- A step with a command in front is that command's meaning on the rest of the queue. -/
theorem step_front (s : State) (c : Instr) (rest : List Instr) (h : s.pending = c :: rest) :
    step s = exec c { s with pending := rest } := by
  unfold step
  rw [h]

/-- An empty queue lets the clock tick. -/
theorem step_idle (s : State) (h : s.pending = []) : step s = s.put s.dev.tick := by
  unfold step
  rw [h]

end Sys2Proof.Laws
end

