-- ==== Sys2Proof/Laws/Exec.lean ====
section
/-! SUPPORT. What a command can do: every meaning ends in `State.put`, so it answers a next state behind the close gate and leaves
the queue alone. -/
namespace Sys2Proof.Laws
open Sys2Proof.Machine

/-- The inversion of every meaning. -/
theorem exec_put (i : Instr) (s : State) : ∃ d, exec i s = s.put d := by
  cases i <;> try exact ⟨_, rfl⟩
  all_goals (rename Via => v; cases v <;> exact ⟨_, rfl⟩)

end Sys2Proof.Laws
end

