-- ==== Sys2Proof/WellFormed.lean ====
section
/-! DEFINITION. Well-formed commands: operands that name a unit of the block that exists, by the counts of the chapters (R15, R66, R77,
R102, R105, R117, R188, R198, R222, R253, R265, R273, R281, R288, R295, R317, R345, R353, R356, R417). A meaning takes every command;
an ill-formed one is one that no wire of the block can carry. -/
namespace Sys2Proof

/-- A master of R417: an engine, a pane cache port, another device agent, the host message agent. -/
def masterOk (m : Nat) : Bool := decide (m < 0x408) || (decide (0x410 ≤ m) && decide (m < 0x418)) || m == 0x420

/-- A request whose fields have the widths of R356. -/
def Req.ok (r : Req) : Bool := decide (r.client < 2 ^ 52) && decide (r.token < 2 ^ 32) && decide (r.tid < 65536)

def Via.ok : Via → Bool
  | .reg m => masterOk m
  | .dict r => r.ok

/-- Addresses of 32 bits, ports of 16, and no more than an Ethernet frame carries. -/
def HostIn.ok : HostIn → Bool
  | .udp src dst sp dp b => decide (src < 2 ^ 32) && decide (dst < 2 ^ 32) && decide (sp < 65536) && decide (dp < 65536) && decide (b.length ≤ 1472)
  | .echo src dst i q b => decide (src < 2 ^ 32) && decide (dst < 2 ^ 32) && decide (i < 65536) && decide (q < 65536) && decide (b.length ≤ 1472)
  | .arp a b => decide (a < 2 ^ 32) && decide (b < 2 ^ 32)

/-- The check of every command. -/
def Instr.wf : Instr → Bool
  | .registerWrite _ m _ _ => masterOk m
  | .lowWordRead _ m _ => masterOk m
  | .dictRead _ r idx sub _ data => r.ok && decide (idx < 65536) && decide (sub < 256) && decide (data.length ≤ 4112)
  | .dictWrite _ r idx sub _ data => r.ok && decide (idx < 65536) && decide (sub < 256) && decide (data.length ≤ 4112)
  | .dictCancel _ r idx sub => r.ok && decide (idx < 65536) && decide (sub < 256)
  | .dictPendingStatus _ => true
  | .canTransferFrame _ port id bytes => decide (port < 2) && decide (id < 536870912) && decide (bytes.length ≤ 4112)
  | .canTransferTimeout _ => true
  | .stagedValueExpire _ => true
  | .refOscRequest _ => true
  | .refOscStable => true
  | .pllLock n => decide (n < 6)
  | .refOscStop _ => true
  | .gnssSampleSubmit _ m _ => masterOk m
  | .gnssSourceInvalidate _ m _ => masterOk m
  | .referenceMessageRx _ bus sender _ _ _ _ _ _ => decide (bus < 4) && decide (sender < 16384)
  | .roundStart _ => true
  | .masterLossElection _ => true
  | .candidateChallenge _ => true
  | .gnssSourceTimeout _ => true
  | .ptpSourceTimeout _ => true
  | .timeMessage _ _ delay port cls => decide (delay < 4294967296) && decide (port < 3) && decide (cls < 4)
  | .ptpMessageRx _ port domain _ _ _ _ _ _ _ _ _ _ => decide (port < 3) && decide (domain < 256)
  | .ptpSyncSend _ => true
  | .timeLanePps _ => true
  | .timeLaneWord _ _ => true
  | .timeLaneTimeout _ => true
  | .porchCalWindow _ _ => true
  | .porchCarryLoad _ => true
  | .fieldTimeSet _ r _ => r.ok
  | .systemEpochWrite _ r _ => r.ok
  | .wallClockWrite _ r _ => r.ok
  | .gpsUtcLeapWrite _ r _ => r.ok
  | .porchMirror _ => true
  | .porchAlarm _ n => decide (n < 4)
  | .latchRequest _ via _ _ => via.ok
  | .latchCancel _ via slot => via.ok && decide (slot < 8)
  | .latchFire _ slot => decide (slot < 8)
  | .latchCopiesDone _ => true
  | .headStatusFrame _ n _ _ => decide (n < 4)
  | .headLinkTimeout _ n => decide (n < 4)
  | .headSupplyTrip _ n _ => decide (n < 4)
  | .headSupplyRetry _ n => decide (n < 4)
  | .headControlRepeat _ => true
  | .integrationEnd _ ch _ _ => decide (ch < 192)
  | .intAlign _ m ch => masterOk m && decide (ch < 192)
  | .codeMemoryWrite _ m _ => masterOk m
  | .acqRequest _ m => masterOk m
  | .acqCaptureDone _ _ => true
  | .acqSearchDone _ _ => true
  | .acqCancel _ m => masterOk m
  | .burstStart _ => true
  | .burstMeasurement _ => true
  | .fiEdge _ n _ => decide (n < 8)
  | .fiTimeout _ n => decide (n < 8)
  | .fiFifoPop _ m n => masterOk m && decide (n < 8)
  | .imuDrdy _ p _ => decide (p < 2)
  | .imuPeriodicTrigger _ p => decide (p < 2)
  | .imuTransferDone _ p data => decide (p < 2) && decide (data.length ≤ 4112)
  | .imuTimeout _ p => decide (p < 2)
  | .poseCommit _ m => masterOk m
  | .fieldOriginWrite _ r sub _ => r.ok && decide (sub < 256)
  | .frameStart _ => true
  | .epBind _ r => r.ok
  | .epUnbind _ r => r.ok
  | .epEnable _ via => via.ok
  | .epDisable _ via => via.ok
  | .epSetAccount _ r => r.ok
  | .epSetLateWindow _ via => via.ok
  | .epClearFault _ r => r.ok
  | .remapRequest _ via => via.ok
  | .remapWithdraw _ via => via.ok
  | .ownLookup _ m => masterOk m
  | .rangeVerifyStore _ r => r.ok
  | .rangeReload _ r => r.ok
  | .frameLengthWrite _ r _ => r.ok
  | .frmDone _ m => masterOk m
  | .paneCreate _ r => r.ok
  | .paneDelete _ r => r.ok
  | .paneClearCoverage _ r => r.ok
  | .paneDataWrite _ r _ data => r.ok && decide (data.length ≤ 4112)
  | .paneFetch _ m => masterOk m
  | .paneFetchDone _ e _ => decide (e < 1024)
  | .targetDatagram _ b => decide (b.length ≤ 4112)
  | .targetListIn _ b => decide (b.length ≤ 4112)
  | .targetSourceTimeout _ slot => decide (slot < 8)
  | .targetSourceRelease _ slot => decide (slot < 8)
  | .queueAction _ m => masterOk m
  | .queueWithdraw _ m => masterOk m
  | .queueReplace _ m => masterOk m
  | .actionFire _ id => decide (id < 262144)
  | .scheduleUndeliverable _ e _ => decide (e < 1024)
  | .measurementWindowClose _ id => decide (id < 262144)
  | .aaRdWrite _ m _ => masterOk m
  | .ledgerRunSubmit _ m => masterOk m
  | .ledgerRecordRx _ port sender b => decide (port < 7) && decide (sender < 16384) && decide (b.length ≤ 4112)
  | .ledgerResendRequest _ _ => true
  | .ledgerResendRx _ port _ _ => decide (port < 7)
  | .ledgerGoneRx _ sender _ _ _ => decide (sender < 16384)
  | .ledgerResendTimeout _ _ => true
  | .ledgerReplay _ r _ => r.ok
  | .ledgerReplayDone _ => true
  | .solBoostEnd _ n _ => decide (n < 64)
  | .solPeakEnd _ n _ => decide (n < 64)
  | .solKneeReached _ n _ => decide (n < 64)
  | .solSlowRecoveryEnd _ n _ => decide (n < 64)
  | .solOpenLoadCheck _ n _ => decide (n < 64)
  | .solOvercurrent _ n _ => decide (n < 64)
  | .solDriverOvertemp _ n => decide (n < 64)
  | .solDriverCooled _ n => decide (n < 64)
  | .solCoilCooldownEnd _ n => decide (n < 64)
  | .solOpeningDetect _ n _ => decide (n < 64)
  | .solClosingDetect _ n _ => decide (n < 64)
  | .solOpenWindowEnd _ n => decide (n < 64)
  | .solPulseStart _ n => decide (n < 64)
  | .solPulseOff _ n => decide (n < 64)
  | .solThermStale _ n => decide (n < 64)
  | .solOffProbe _ n _ => decide (n < 64)
  | .solHoldLow _ n _ => decide (n < 64)
  | .solFeedUv _ die mV => decide (die < 2) && decide (10 ≤ mV.length)
  | .solFeedRecover _ die mV => decide (die < 2) && decide (10 ≤ mV.length)
  | .solFaultClear _ via n => via.ok && decide (n < 64)
  | .solFcntClear _ m n => masterOk m && decide (n < 64)
  | .solTestPulse _ r n _ => r.ok && decide (n < 64)
  | .boostReadyChange _ die mV => decide (die < 2) && decide (10 ≤ mV.length)
  | .boostFault _ die mV => decide (die < 2) && decide (10 ≤ mV.length)
  | .boostRestart _ die => decide (die < 2)
  | .boostChargeComplete _ die _ => decide (die < 2)
  | .boostOvervolt _ die mV => decide (die < 2) && decide (110 ≤ mV.length)
  | .boostOvervoltEnd _ die mV => decide (die < 2) && decide (10 ≤ mV.length)
  | .boostCapClear _ via die => via.ok && decide (die < 2)
  | .senseReplicaRead _ die _ => decide (die < 2)
  | .senseOffsetTimeout _ die => decide (die < 2)
  | .lvPeriodStart _ n => decide (n < 16)
  | .lvCompare _ n j => decide (n < 16) && decide (j < 4)
  | .lvCommit _ m n => masterOk m && decide (n < 16)
  | .lvEnable _ via n => via.ok && decide (n < 16)
  | .lvDisable _ via n => via.ok && decide (n < 16)
  | .lvCmdTimeout _ n => decide (n < 16)
  | .lvSyncPulse _ n => decide (n < 16)
  | .lvResync _ via die => via.ok && decide (die < 2)
  | .lvChainTimeout _ die => decide (die < 2)
  | .lvTest _ via die _ => via.ok && decide (die < 2)
  | .hingeSample _ g => decide (g < 32)
  | .hingeCommit _ via g => via.ok && decide (g < 32)
  | .hingeSlotEnable _ via g => via.ok && decide (g < 32)
  | .hingeSlotDisable _ via g => via.ok && decide (g < 32)
  | .hingeDisableAll _ via die => via.ok && decide (die < 2)
  | .lsDirectCommand _ via n _ => via.ok && decide (n < 24)
  | .dioDirectCommand _ via n _ => via.ok && decide (n < 32)
  | .lsCurrentLimit _ n _ => decide (n < 24)
  | .lsThermalShutdown _ n => decide (n < 24)
  | .lsThermalRestore _ n => decide (n < 24)
  | .lsFaultClear _ via n => via.ok && decide (n < 24)
  | .lsFeedUv _ die _ => decide (die < 2)
  | .lsFeedRecover _ die _ => decide (die < 2)
  | .lsPwmPeriod _ n _ => decide (n < 24)
  | .lsDwellEnd _ die _ => decide (die < 2)
  | .lsSenseScan _ n _ => decide (n < 24)
  | .lsOpenLoad _ n => decide (n < 24)
  | .lsLeakage _ n => decide (n < 24)
  | .dioInputChange _ n _ => decide (n < 32)
  | .dioOutputProtect _ n _ _ => decide (n < 32)
  | .dioGroupUv _ g _ => decide (g < 8)
  | .dioGroupRecover _ g _ => decide (g < 8)
  | .dioReadbackMismatch _ n _ => decide (n < 32)
  | .wdgKick _ m die _ => masterOk m && decide (die < 2)
  | .wdgExpire _ die => decide (die < 2)
  | .wdgHoldSet _ r die => r.ok && decide (die < 2)
  | .wdgHoldClear _ r die => r.ok && decide (die < 2)
  | .wdgTimeoutWrite _ r die _ => r.ok && decide (die < 2)
  | .wdgOwnerWrite _ r die _ => r.ok && decide (die < 2)
  | .failsafeWrite _ r die kind _ => r.ok && decide (die < 2) && decide (kind < 3)
  | .safetyInputChange _ p _ _ => decide (p < 8)
  | .discrepancyLatch _ p => decide (p < 8)
  | .sinAck _ r p => r.ok && decide (p < 8)
  | .sinEnable _ r p => r.ok && decide (p < 8)
  | .sinDisable _ r p => r.ok && decide (p < 8)
  | .aclChannelChange _ die chan _ => decide (die < 2) && decide (chan < 2)
  | .aclDiscrepancyLatch _ die => decide (die < 2)
  | .aclAck _ r => r.ok
  | .allCloseRepeat _ => true
  | .sillCloseRepeat _ => true
  | .aiTriggeredConversion _ n => decide (n < 16)
  | .aiConversionDone _ n _ => decide (n < 16)
  | .aiScanConversion _ n => decide (n < 16)
  | .aiStale _ n => decide (n < 16)
  | .aiOverload _ n => decide (n < 16)
  | .aiShuntRetry _ n => decide (n < 16)
  | .sensorSupplyTrip _ die _ => decide (die < 2)
  | .sillEnable _ via n => via.ok && decide (n < 16)
  | .sillSymbolLock _ n => decide (n < 16)
  | .sillIdentityRx _ n _ b => decide (n < 16) && decide (b.length ≤ 4112)
  | .sillEnumComplete _ n rts => decide (n < 16) && decide (rts.length ≤ 16)
  | .sillTimeFrame _ => true
  | .sillPoll _ n => decide (n < 16)
  | .sillStatusRx _ n _ b => decide (n < 16) && decide (b.length ≤ 4112)
  | .sillPollTimeout _ n => decide (n < 16)
  | .sillLinkLoss _ n _ => decide (n < 16)
  | .sillReenumTimer _ n => decide (n < 16)
  | .sillReenumerate _ via n => via.ok && decide (n < 16)
  | .ibFrameRx _ port _ _ _ _ data => decide (port < 4) && decide (data.length ≤ 4112)
  | .nodeWindowsRestore _ port node => decide (port < 4) && decide (node < 64)
  | .ibSilence _ r _ => r.ok
  | .ibSilenceRx _ port sender _ => decide (port < 4) && decide (sender < 16384)
  | .silenceEnd _ => true
  | .nodeReportRx _ port node data => decide (port < 4) && decide (node < 64) && decide (data.length ≤ 4112)
  | .nodeStatusRx _ port node data => decide (port < 4) && decide (node < 64) && decide (data.length ≤ 4112)
  | .nodeTimeout _ port node => decide (port < 4) && decide (node < 64)
  | .nodeConfigurePeriodic _ => true
  | .ibTxQueue _ m port => masterOk m && decide (port < 4)
  | .ibFrameSend _ port => decide (port < 4)
  | .ibErrorState _ port _ _ _ => decide (port < 4)
  | .rendezvousBeacon _ => true
  | .rendezvousBeaconRx _ port _ data => decide (port < 4) && decide (data.length ≤ 4112)
  | .rendezvousPartnerLost _ port _ => decide (port < 4)
  | .rendezvousWakeRetry _ port _ => decide (port < 4)
  | .ibWakePattern _ port => decide (port < 4)
  | .transomFrameRx _ lane _ b => decide (lane < 9) && decide (b.length ≤ 4112)
  | .laneDown _ lane => decide (lane < 9)
  | .laneRetrain _ lane _ => decide (lane < 9)
  | .hostStopWrite _ r _ => r.ok
  | .hostStopAssert _ _ => true
  | .hostStopRelease _ _ => true
  | .stopLaneLost _ => true
  | .stopLaneReturn _ => true
  | .poseInDatagram _ b => decide (b.length ≤ 4112)
  | .poseIn _ => true
  | .asAppliedOut _ m => masterOk m
  | .udpDatagramRx _ port x => decide (port < 3) && x.ok
  | .keyholeAttach _ => true
  | .keyholeDetach _ => true
  | .configJournalCommit _ _ => true
  | .configCompactionDone _ => true
  | .restoreDefaults _ r => r.ok
  | .packageNumberWrite _ r _ => r.ok
  | .addR _ e _ _ _ => decide (e < 1024)
  | .subR _ e _ _ _ => decide (e < 1024)
  | .andR _ e _ _ _ => decide (e < 1024)
  | .orR _ e _ _ _ => decide (e < 1024)
  | .xorR _ e _ _ _ => decide (e < 1024)
  | .shl _ e _ _ _ => decide (e < 1024)
  | .shr _ e _ _ _ => decide (e < 1024)
  | .sar _ e _ _ _ => decide (e < 1024)
  | .clt _ e _ _ _ => decide (e < 1024)
  | .cltu _ e _ _ _ => decide (e < 1024)
  | .mul _ e _ _ _ => decide (e < 1024)
  | .mulhi _ e _ _ _ => decide (e < 1024)
  | .mulhiu _ e _ _ _ => decide (e < 1024)
  | .quo _ e _ _ _ => decide (e < 1024)
  | .quou _ e _ _ _ => decide (e < 1024)
  | .modR _ e _ _ _ => decide (e < 1024)
  | .modu _ e _ _ _ => decide (e < 1024)
  | .min _ e _ _ _ => decide (e < 1024)
  | .max _ e _ _ _ => decide (e < 1024)
  | .minu _ e _ _ _ => decide (e < 1024)
  | .maxu _ e _ _ _ => decide (e < 1024)
  | .lzc _ e _ _ => decide (e < 1024)
  | .bitc _ e _ _ => decide (e < 1024)
  | .addk _ e _ _ _ => decide (e < 1024)
  | .andk _ e _ _ _ => decide (e < 1024)
  | .ork _ e _ _ _ => decide (e < 1024)
  | .xork _ e _ _ _ => decide (e < 1024)
  | .cltk _ e _ _ _ => decide (e < 1024)
  | .hik _ e _ _ => decide (e < 1024)
  | .shk _ e _ _ _ => decide (e < 1024)
  | .ldw _ e _ _ _ => decide (e < 1024)
  | .ldh _ e _ _ _ => decide (e < 1024)
  | .ldhu _ e _ _ _ => decide (e < 1024)
  | .ldb _ e _ _ _ => decide (e < 1024)
  | .ldbu _ e _ _ _ => decide (e < 1024)
  | .stw _ e _ _ _ => decide (e < 1024)
  | .sth _ e _ _ _ => decide (e < 1024)
  | .stb _ e _ _ _ => decide (e < 1024)
  | .ldd _ e _ _ _ => decide (e < 1024)
  | .std _ e _ _ _ => decide (e < 1024)
  | .breq _ e _ _ _ => decide (e < 1024)
  | .brne _ e _ _ _ => decide (e < 1024)
  | .brlt _ e _ _ _ => decide (e < 1024)
  | .brge _ e _ _ _ => decide (e < 1024)
  | .brltu _ e _ _ _ => decide (e < 1024)
  | .brgeu _ e _ _ _ => decide (e < 1024)
  | .go _ e _ => decide (e < 1024)
  | .call _ e _ => decide (e < 1024)
  | .gor _ e _ _ => decide (e < 1024)
  | .callr _ e _ _ _ => decide (e < 1024)
  | .addD _ e _ _ _ => decide (e < 1024)
  | .subD _ e _ _ _ => decide (e < 1024)
  | .cltuD _ e _ _ _ => decide (e < 1024)
  | .cltD _ e _ _ _ => decide (e < 1024)
  | .fadd _ e _ _ _ => decide (e < 1024)
  | .fsub _ e _ _ _ => decide (e < 1024)
  | .fmul _ e _ _ _ => decide (e < 1024)
  | .fdiv _ e _ _ _ => decide (e < 1024)
  | .fsqrt _ e _ _ => decide (e < 1024)
  | .fmin _ e _ _ _ => decide (e < 1024)
  | .fmax _ e _ _ _ => decide (e < 1024)
  | .fclt _ e _ _ _ => decide (e < 1024)
  | .fceq _ e _ _ _ => decide (e < 1024)
  | .ffromi _ e _ _ => decide (e < 1024)
  | .ftoi _ e _ _ => decide (e < 1024)
  | .fsct _ e _ _ => decide (e < 1024)
  | .fang _ e _ _ _ => decide (e < 1024)
  | .atadd _ e _ _ _ => decide (e < 1024)
  | .atswp _ e _ _ _ => decide (e < 1024)
  | .atmin _ e _ _ _ => decide (e < 1024)
  | .atmax _ e _ _ _ => decide (e < 1024)
  | .atcas _ e _ _ _ => decide (e < 1024)
  | .vadd _ e _ _ _ _ => decide (e < 1024)
  | .vsub _ e _ _ _ _ => decide (e < 1024)
  | .vmul _ e _ _ _ _ => decide (e < 1024)
  | .vmulhi _ e _ _ _ _ => decide (e < 1024)
  | .vand _ e _ _ _ _ => decide (e < 1024)
  | .vor _ e _ _ _ _ => decide (e < 1024)
  | .vxor _ e _ _ _ _ => decide (e < 1024)
  | .vshl _ e _ _ _ _ => decide (e < 1024)
  | .vshr _ e _ _ _ _ => decide (e < 1024)
  | .vsar _ e _ _ _ _ => decide (e < 1024)
  | .vmin _ e _ _ _ _ => decide (e < 1024)
  | .vmax _ e _ _ _ _ => decide (e < 1024)
  | .vminu _ e _ _ _ _ => decide (e < 1024)
  | .vmaxu _ e _ _ _ _ => decide (e < 1024)
  | .vsel _ e _ _ _ _ => decide (e < 1024)
  | .vfadd _ e _ _ _ _ => decide (e < 1024)
  | .vfsub _ e _ _ _ _ => decide (e < 1024)
  | .vfmul _ e _ _ _ _ => decide (e < 1024)
  | .vfma _ e _ _ _ _ => decide (e < 1024)
  | .vfdiv _ e _ _ _ _ => decide (e < 1024)
  | .vfsqrt _ e _ _ _ => decide (e < 1024)
  | .vfmin _ e _ _ _ _ => decide (e < 1024)
  | .vfmax _ e _ _ _ _ => decide (e < 1024)
  | .vffromi _ e _ _ _ => decide (e < 1024)
  | .vftoi _ e _ _ _ => decide (e < 1024)
  | .vfsct _ e _ _ _ => decide (e < 1024)
  | .vld _ e _ _ _ => decide (e < 1024)
  | .vst _ e _ _ _ => decide (e < 1024)
  | .vlds _ e _ _ _ _ => decide (e < 1024)
  | .vsts _ e _ _ _ _ => decide (e < 1024)
  | .vgath _ e _ _ _ _ => decide (e < 1024)
  | .vceq _ e _ _ _ => decide (e < 1024)
  | .vclt _ e _ _ _ => decide (e < 1024)
  | .vcltu _ e _ _ _ => decide (e < 1024)
  | .vfclt _ e _ _ _ => decide (e < 1024)
  | .vfceq _ e _ _ _ => decide (e < 1024)
  | .vbcast _ e _ _ => decide (e < 1024)
  | .vins _ e _ _ _ => decide (e < 1024)
  | .vext _ e _ _ _ => decide (e < 1024)
  | .vredadd _ e _ _ => decide (e < 1024)
  | .vredmin _ e _ _ => decide (e < 1024)
  | .vredmax _ e _ _ => decide (e < 1024)
  | .vredminu _ e _ _ => decide (e < 1024)
  | .vredmaxu _ e _ _ => decide (e < 1024)
  | .qput _ e _ _ => decide (e < 1024)
  | .qwd _ e _ => decide (e < 1024)
  | .qrep _ e _ _ => decide (e < 1024)
  | .latr _ e _ _ => decide (e < 1024)
  | .latc _ e _ => decide (e < 1024)
  | .fdone _ e => decide (e < 1024)
  | .wait _ e => decide (e < 1024)
  | .ien _ e => decide (e < 1024)
  | .idis _ e => decide (e < 1024)
  | .iret _ e => decide (e < 1024)
  | .sync _ e => decide (e < 1024)
  | .brk _ e => decide (e < 1024)
  | .interruptEntry _ e => decide (e < 1024)
  | .engTimerMatch _ e => decide (e < 1024)
  | .engDoorbell _ m _ => masterOk m
  | .dictRespWrite _ m _ => masterOk m
  | .dictReady _ m => masterOk m
  | .firmwareObjectTimeout _ => true
  | .deadboltRelease _ r _ => r.ok
  | .clusterHalt _ r _ => r.ok
  | .clusterResume _ r _ => r.ok
  | .keyProgram _ r data => r.ok && decide (data.length ≤ 4112)
  | .keyRevoke _ r data => r.ok && decide (data.length ≤ 4112)
  | .sessionChallenge _ r _ => r.ok
  | .sessionResponse _ r data => r.ok && decide (data.length ≤ 4112)
  | .sessionEnd _ r _ => r.ok
  | .sessionIdleTimeout _ _ => true
  | .sessionLifetimeExpire _ _ => true
  | .sessionSecretWrite _ r _ data => r.ok && decide (data.length ≤ 4112)
  | .windowExtraWrite _ r sub _ data => r.ok && decide (sub < 256) && decide (data.length ≤ 4112)
  | .feedClassChange _ _ _ _ => true
  | .feedOverload _ _ _ => true
  | .powerFail _ _ => true
  | .holdupDeadline _ => true
  | .holdupEnd _ => true
  | .powerFailEnd _ => true
  | .holdupMeasure _ _ => true
  | .clusterPowerRequest _ r _ data => r.ok && decide (data.length ≤ 4112)
  | .fabricReady _ region => decide (region < 8)
  | .clusterPowerUpDone _ c => decide (c < 64)
  | .clusterCodeLoaded _ c => decide (c < 64)
  | .powerRequestParked _ r => r.ok
  | .powerRequestStandby _ r => r.ok
  | .powerRequestReady _ r => r.ok
  | .powerRequestField _ r => r.ok
  | .standbyEntered _ => true
  | .parkedEntered _ => true
  | .wakeSource _ _ => true
  | .hostWakeLine _ => true
  | .parkedWakeDone _ => true
  | .dieTempHigh _ die _ => decide (die < 2)
  | .dieTempStop _ die _ => decide (die < 2)
  | .dieTempRecover _ die _ => decide (die < 2)
  | .dieSensorTimeout _ die => decide (die < 2)
  | .memoryScrub _ _ => true
  | .pairingFrameRx _ port sender _ data => decide (port < 4) && decide (sender < 16384) && decide (data.length ≤ 4112)
  | .pairPartnerLost _ => true
  | .firmwareEvent _ m _ => masterOk m
  | .eventPageWrite _ => true
  | .norPageProgramDone _ => true
  | .norBlockEraseDone _ => true
  | .histogramFeed _ m _ => masterOk m
  | .histogramSnapshot _ => true
  | .histogramSafetyWrite _ => true
  | .recorderScanDone _ => true
  | .recorderClear _ r _ => r.ok
  | .periodClose _ => true
  | .meterCheckpoint _ => true
  | .periodEndWrite _ r _ => r.ok
  | .accountsClear _ r _ => r.ok
  | .coldStart _ _ _ _ => true
  | .packageReset _ r => r.ok
  | .packageResetClearLatch _ r => r.ok
  | .resetButton _ => true
  | .startPorchDone _ _ => true
  | .startPowerDieResetDone _ => true
  | .startConfigLoaded _ _ _ => true
  | .startImageChecked _ => true
  | .startEnginesLoaded _ => true
  | .startReady _ => true
  | .startInService _ _ m => masterOk m
  | .startFailed _ _ m => masterOk m
  | .startAttemptTimeout _ => true
  | .updateBegin _ r slot => r.ok && decide (slot < 2)
  | .updateEraseDone _ => true
  | .updateData _ r _ data => r.ok && decide (data.length ≤ 4112)
  | .updateVerify _ r => r.ok
  | .updateAbandon _ r => r.ok
  | .dioReadbackChange _ n _ => decide (n < 32)
  | .lvCarrierEdge _ n p => decide (n < 16) && decide (p < 2)
  | .lvOutputEdge _ n k => decide (n < 16) && decide (k < 4)
  | .lvSyncRestart _ n => decide (n < 16)
  | .lsPulseOff _ n => decide (n < 24)
  | .ibRxObjectRelease _ port obj => decide (port < 4) && decide (obj < 256)
  | .hostLinkChange _ port _ => decide (port < 3)
  | .deviceAgentViolation _ m _ _ => masterOk m
  | .deviceHistogramSample _ => true
  | .porchPairRefresh _ => true
  | .temperatureSensorIgnored _ die _ => decide (die < 2)
  | .nodeLeadCommit _ e _ => decide (e < 1024)

end Sys2Proof
end

