-- ==== Sys2Proof/Tests/Slice0.lean ====
section
/-! SUPPORT. The model's own tests: the checks of commands refuse an ill-formed one, small steps against the spec's own numbers, and for
every statement with hypotheses a state and operands that meet them. -/
namespace Sys2Proof.Tests
open Sys2Proof Sys2Proof.Machine

/-! ## Well-formed commands: one ill-formed command for each kind of check -/

def someReq : Req := { transport := .he0, client := 1, token := 0, tid := 1 }

theorem test_wf_master_gap : Instr.wf (.registerWrite 0 0x408 0x40000020 0) = false := by decide
theorem test_wf_master_host_agent : Instr.wf (.registerWrite 0 0x420 0x40000020 0) = true := by decide
theorem test_wf_engine : Instr.wf (.addR 0 1024 1 2 3) = false := by decide
theorem test_wf_tid : Instr.wf (.dictRead 0 { someReq with tid := 65536 } 0x1000 1 0 []) = false := by decide
theorem test_wf_index : Instr.wf (.dictRead 0 someReq 65536 1 0 []) = false := by decide
theorem test_wf_subindex : Instr.wf (.dictRead 0 someReq 0x1000 256 0 []) = false := by decide
theorem test_wf_via : Instr.wf (.lvEnable 0 (.reg 0x409) 0) = false := by decide
theorem test_wf_die : Instr.wf (.wdgExpire 0 2) = false := by decide
theorem test_wf_solenoid : Instr.wf (.solPeakEnd 0 64 []) = false := by decide
theorem test_wf_load_switch : Instr.wf (.lsThermalShutdown 0 24) = false := by decide
theorem test_wf_dio : Instr.wf (.dioReadbackMismatch 0 32 []) = false := by decide
theorem test_wf_analog_input : Instr.wf (.aiStale 0 16) = false := by decide
theorem test_wf_louvre_module : Instr.wf (.lvPeriodStart 0 16) = false := by decide
theorem test_wf_hinge_slot : Instr.wf (.hingeSample 0 32) = false := by decide
theorem test_wf_sill_link : Instr.wf (.sillPoll 0 16) = false := by decide
theorem test_wf_bus : Instr.wf (.ibFrameSend 0 4) = false := by decide
theorem test_wf_node : Instr.wf (.nodeTimeout 0 0 64) = false := by decide
theorem test_wf_lane : Instr.wf (.laneDown 0 9) = false := by decide
theorem test_wf_endpoint : Instr.wf (.actionFire 0 262144) = false := by decide
theorem test_wf_channel : Instr.wf (.intAlign 0 0 192) = false := by decide
theorem test_wf_head : Instr.wf (.headLinkTimeout 0 4) = false := by decide
theorem test_wf_frequency_input : Instr.wf (.fiTimeout 0 8) = false := by decide
theorem test_wf_pll : Instr.wf (.pllLock 6) = false := by decide
theorem test_wf_latch_slot : Instr.wf (.latchFire 0 8) = false := by decide
theorem test_wf_cluster : Instr.wf (.clusterPowerUpDone 0 64) = false := by decide
theorem test_wf_ordinary : Instr.wf (.solPeakEnd 0 63 []) = true := by decide

/-! ## States for the witnesses -/

/-- A package in Ready: cluster 0 powered, engine 0 released at the start of its instruction store. -/
def readyDev : Dev :=
  { Dev.reset with
    pstate := .ready
    regs := [(Reg.PWR_DOM 0, 1)]
    eng := [(0, { Eng.reset with running := true })] }

def readyState : State := { dev := readyDev, pending := [] }

/-- The same with a register and a general register of engine 0 at chosen values. -/
def withReg (k : Nat) (w : Word) : State := { readyState with dev := readyDev.wr k w }
def withGr (n : Nat) (w : Word) : State := { readyState with dev := readyDev.setGr 0 n w }

/-! ## Engines -/

/-- Witness of every statement about an issued instruction. -/
theorem engine_issues : Issues readyState 0 0 := ⟨by decide, by decide⟩

/-- Witness of VectorInstructionsComplete and of the masked clauses with an even and an odd vd, and of both clauses about a lane number. -/
theorem vector_clauses : Issues readyState 0 0 ∧ (2 : BitVec 4).toNat % 2 = 0 ∧ (3 : BitVec 4).toNat % 2 = 1
    ∧ (15 : BitVec 5).toNat ≤ 15 ∧ 15 < (16 : BitVec 5).toNat := ⟨engine_issues, by decide, by decide, by decide, by decide⟩

/-- Witness of StoreFrame, for each width: an aligned address of the working area. -/
theorem store_reaches_memory : Issues readyState 0 0
    ∧ ((atIssue readyState 0 0).gr 0 0 + (0x7FF8 : BitVec 16).signExtend 32).toNat % 8 = 0
    ∧ (atIssue (withGr 1 0x8000) 0 0).mayWrite 0 0x8000 4 = true ∧ (atIssue (withGr 1 0x8000) 0 0).mayWrite 0 0x8000 2 = true
    ∧ (atIssue (withGr 1 0x8000) 0 0).mayWrite 0 0x8000 1 = true ∧ (atIssue (withGr 1 0x8000) 0 0).mayWrite 0 0x8000 8 = true
    ∧ isRegAddr 0x8000 = false ∧ ((atIssue (withGr 1 0x8000) 0 0).gr 0 1 + (0 : BitVec 16).signExtend 32).toNat = 0x8000
    ∧ Issues (withGr 1 0x8000) 0 0 ∧ (2 : BitVec 5).toNat % 2 = 0 :=
  ⟨engine_issues, by decide, by decide, by decide, by decide, by decide, by decide, by decide, ⟨by decide, by decide⟩, by decide⟩

theorem engine_not_frozen : (0 : Nat) < engines ∧ readyDev.frozen 0 = false ∧ (1 : Nat) < engines ∧ (1 : Nat) ≠ 0 := by decide
theorem engine_frozen : ((withReg (Reg.DB_FROZEN 0) 1).dev.advance 0).frozen 0 = true := by decide
theorem general_register_clauses : (0 : Nat) < 32 ∧ (31 : Nat) < 32 ∧ (31 : Nat) ≠ 0 := by decide
theorem fault_outside_handler : (0 : Nat) < engines ∧ (6 : Nat) < 16 ∧ readyDev.handler 0 = false := by decide

/-- An engine with IE 1, DOORBELL enabled and pending. -/
def interrupted : State :=
  { readyState with dev := ((readyDev.setIe 0 true).wrM 0 Reg.IRQ_EN 8).wrM 0 Reg.IRQ_PEND 8 }

theorem interrupt_is_due : (interrupted.dev.advance 0).runs 0 = true ∧ (interrupted.dev.advance 0).ie 0 = true
    ∧ (interrupted.dev.advance 0).handler 0 = false ∧ (interrupted.dev.advance 0).irqNow 0 ≠ 0 := by decide

/-- ADDK of g0 and 5 to g1, through a step: the sum is there and the program counter has moved on. -/
theorem test_addk_step : ∃ s', step { readyState with pending := [.addk 0 0 1 0 5] } = .next s'
    ∧ s'.dev.gr 0 1 = 5 ∧ s'.dev.pcOf 0 = 0x160004 := ⟨_, rfl, by decide, by decide⟩

/-- QUOU by zero gives 0xFFFF_FFFF and MODU the dividend (R398). -/
theorem test_quou_zero : quoU 7 0 = 0xFFFFFFFF ∧ modU 7 0 = 7 := by decide
/-- The leading zeros and the set bits of a word (R398). -/
theorem test_lzc_bitc : leadZeros 0 = 32 ∧ leadZeros 1 = 31 ∧ leadZeros 0x80000000 = 0 ∧ setBits 0xF0F0 = 8 := by decide
/-- A pair of g31 and above is no pair: only an even register may be named (R390). -/
theorem test_pair_register : pairReg 30 = true ∧ pairReg 31 = false := by decide

/-! ## Steps and the close state -/

theorem reset_steps : ∃ s', step State.reset = .next s' := ⟨_, rfl⟩

/-- A package whose host stop holds. -/
def stopped : Dev := readyDev.setBit Reg.TR_STATUS 2 true

/-- Witnesses of the clauses of CloseGateFrame: host power off, a register outside the gate's reach, no cause, a channel that does not
drive while a cause holds. -/
theorem gate_clauses : Dev.reset.hostOn = false ∧ (0 : Nat) ≠ Reg.CLOSE_STATUS ∧ (∀ n, n < 64 → (0 : Nat) ≠ Reg.SOL_STATUS n)
    ∧ readyDev.causesNow = 0 ∧ stopped.causesNow = 512 ∧ stopped.energised 63 = false := by decide

/-- The host stop shows as bit 9 and the state as bit 31 (R287). -/
theorem test_host_stop_shown : stopped.closeGate.rd Reg.CLOSE_STATUS = 0x80000200 := by decide +kernel
/-- A channel in hold goes to fast recovery while a cause holds (R287, R202). -/
theorem test_close_forces_recovery : ((stopped.setPhase 5 3).closeGate).solPhase 5 = 4 := by decide +kernel

/-! ## Time -/

theorem fabric_runs : readyDev.fabricOn = true ∧ readyDev.rd Reg.FT_RATE = 0 ∧ readyDev.time.ft % 2 ^ 31 = 0 := by decide
/-- At the nominal rate FT advances by 2 ns, then by 3 ns (R42). -/
theorem test_tick : readyDev.tick.now = 2 ∧ readyDev.tick.tick.now = 5 := by decide

/-! ## Registers -/

/-- Witness of RegisterFieldsTakeLegalValues: IRQ_BASE with a table that does not lie in the instruction store. -/
theorem register_clauses : ∃ r, regRow Reg.IRQ_BASE = some r ∧ r.wo = false
    ∧ (r.merge (readyDev.rdM 0 Reg.IRQ_BASE) 0).2 = true := ⟨_, rfl, by decide, by decide⟩

/-- A write outside the range leaves the field and sets CFG_REJECT of block ENG (R8). -/
theorem test_irq_base_rejected : (readyDev.regStore 0 Reg.IRQ_BASE 0).rdM 0 Reg.IRQ_BASE = 0x160000
    ∧ (readyDev.regStore 0 Reg.IRQ_BASE 0).bitM 0 Reg.ENG_STATUS 31 = true := by decide
/-- Reserved bits are ignored (R7). -/
theorem test_reserved_bits : (readyDev.regStore 0 Reg.ENG_CTRL 0xFFFFFFFF).rdM 0 Reg.ENG_CTRL = 0x0001000F := by decide

/-- Witnesses of SixtyFourBitReads for the low and the high word. -/
theorem half_clauses : regPlace Reg.ENG_TMR_LO = 0x40000010 ∧ openReg 0x40000010 = false ∧ halfOf 0x40000010 = 1
    ∧ regPlace 0x40000014 = 0x40000014 ∧ openReg 0x40000014 = false ∧ halfOf 0x40000014 = 2 := by decide

/-! ## Shutter queue -/

def entry (index action level : Nat) : QEntry :=
  { engine := 0, index := index, gen := 0, fireFt := 100, slot := 0, id := 1, action := action, epoch := 1, level := level
    late := 0, stale := false, committed := false, sent := false, undeliv := false }

theorem firing_clauses : ([entry 1 1 9, entry 2 0 0].any (fun q => q.action == 0) = true)
    ∧ ([entry 1 1 9, entry 2 2 5].any (fun q => q.action == 0) = false ∧ [entry 1 1 9, entry 2 2 5].any (fun q => q.action == 2) = true)
    ∧ ([entry 1 1 9, entry 2 1 5].any (fun q => q.action == 0) = false ∧ [entry 1 1 9, entry 2 1 5].any (fun q => q.action == 2) = false
      ∧ [entry 1 1 9, entry 2 1 5].any (fun q => q.action == 1) = true) := by decide

/-- Off wins; an on beside a level fires as an on at the level's Level; of several ons the last (R177). -/
theorem test_same_tick : (decides [entry 1 1 9, entry 2 0 0]).map (fun q => q.handle) = some 2
    ∧ (decides [entry 2 2 5, entry 1 1 9]).map (fun q => q.handle) = some 2
    ∧ firedAction [entry 2 2 5, entry 1 1 9] (entry 2 2 5) = 1
    ∧ (decides [entry 1 1 9, entry 2 1 5]).map (fun q => q.handle) = some 2 := by decide

/-! ## Recorder -/

theorem firmware_event_clauses : (0 : Nat) < engines ∧ (readyDev.advance 0).runs 0 = true
    ∧ ((withReg (regKey 1 (Reg.WIN_LIM 0)) 0x40100000).dev.wr (regKey 1 (Reg.WIN_BASE 0)) 0x40100005).mayWrite 0 Reg.EVT_CODE 4 = true
    ∧ (0xD000 : Nat) % 65536 < 0xD001 ∧ (0xCFFF : Nat) % 65536 < 0xD000
    ∧ readyDev.rcd.staged.length < stagingRoom ∧ readyDev.bit Reg.DB_FROZEN_DEV 12 = false ∧ readyDev.frozen 0x410 = false := by decide

/-- MayAct of an engine that may write EVT_CODE, and of another agent. -/
theorem firmware_may_act : MayAct ((withReg (regKey 1 (Reg.WIN_LIM 0)) 0x40100000).dev.wr (regKey 1 (Reg.WIN_BASE 0)) 0x40100005) 0 Reg.EVT_CODE
    ∧ MayAct readyDev 0x410 Reg.EVT_CODE :=
  ⟨⟨fun _ => by decide, fun h => absurd h (by decide)⟩, ⟨fun h => absurd h (by decide), fun _ => by decide⟩⟩

theorem histogram_width : (0 : Int) < 1 ∧ (1 : Nat) ≤ 30 := by decide
/-- Where Lower is 0 and Width is 1, bin x + 1 counts the value x (R476). -/
theorem test_cause_bin : histBin 0 1 4 = 5 ∧ histBin 0 1 (-1) = 0 ∧ histBin 0 1 30 = 31 := by decide
/-- Three parameters of 8, 4 and 2 bytes: the last does not fit in 12, and none follows it (R471). -/
theorem test_truncated : (placeParams [.q 1, .w 2, .h 3] 12).2 = true ∧ (placeParams [.q 1, .w 2, .h 3] 12).1.length = 12 := by decide

/-! ## Look-ahead: a state and operands for every clause of LookaheadCommandsComplete -/

/-- A package in Ready with lane 0 up and a session of level 3; the pane (0, 0) exists. -/
def clientDev : Dev :=
  { readyDev.wr Reg.TR_LANES 1 with
    sec := { readyDev.sec with sessions :=
      [{ token := 9, transport := .he0, client := 1, level := 3, openedAt := 0, lastAt := 0, endedAt := none }] } }
def paneDev : Dev := clientDev.addPane 0 0
def sessReq : Req := { someReq with token := 9 }

theorem frame_length_granted : ∃ x, Granted clientDev sessReq 0x6000 1 0 (leBytes 250 2) (fun y => y.writeFrameLength 250) x :=
  ⟨_, by decide +kernel, by decide +kernel, by decide +kernel, by decide +kernel, by decide +kernel, rfl⟩
theorem pane_create_granted : ∃ x, Granted clientDev sessReq 0x6003 7 0 (leBytes 1 1)
    (fun y => y.paneCreate (sx 16 (y.obC (y.stageKey sessReq) Obj.PaneX)) (sx 16 (y.obC (y.stageKey sessReq) Obj.PaneY))) x :=
  ⟨_, by decide +kernel, by decide +kernel, by decide +kernel, by decide +kernel, by decide +kernel, rfl⟩
theorem pane_delete_granted : ∃ x, Granted paneDev sessReq 0x6003 7 0 (leBytes 2 1)
    (fun y => if y.levelOf sessReq < 2 then y.no 0x0201 else
      y.paneDelete (sx 16 (y.obC (y.stageKey sessReq) Obj.PaneX)) (sx 16 (y.obC (y.stageKey sessReq) Obj.PaneY))) x :=
  ⟨_, by decide +kernel, by decide +kernel, by decide +kernel, by decide +kernel, by decide +kernel, rfl⟩
theorem pane_clear_granted : ∃ x, Granted paneDev sessReq 0x6003 7 0 (leBytes 3 1)
    (fun y => if y.levelOf sessReq < 2 then y.no 0x0201 else
      y.paneClear (sx 16 (y.obC (y.stageKey sessReq) Obj.PaneX)) (sx 16 (y.obC (y.stageKey sessReq) Obj.PaneY))) x :=
  ⟨_, by decide +kernel, by decide +kernel, by decide +kernel, by decide +kernel, by decide +kernel, rfl⟩
/-- In either mode of a PaneData write. -/
theorem pane_data_granted (full : Bool) : ∃ x, Granted paneDev sessReq 0x6003 9 0 [5]
    (fun y => if full = true ∧ y.levelOf sessReq < 2 then y.no 0x0201 else
      y.paneWrite (sx 16 (y.obC (y.stageKey sessReq) Obj.PaneX)) (sx 16 (y.obC (y.stageKey sessReq) Obj.PaneY)) full 0 [5]) x := by
  cases full <;> exact ⟨_, by decide +kernel, by decide +kernel, by decide +kernel, by decide +kernel, by decide +kernel, rfl⟩

/-- Engine 0 with its windows over the device registers and its frame running, and a fetch of 64 by 1 cells to its working area. -/
def framing : Dev :=
  (((readyDev.wr (regKey 1 (Reg.WIN_LIM 0)) 0x40100000).wr (regKey 1 (Reg.WIN_BASE 0)) 0x40000005).setBusy 0 true).wrM 0 Reg.PF_SIZE 0x00010040
    |>.wrM 0 Reg.PF_DEST 0x8000

theorem frame_done_clauses : MayAct framing 0 Reg.FRM_DONE_REG ∧ framing.frameBusy 0 = true ∧ MayAct framing 0 Reg.PF_CMD
    ∧ fld (framing.rdM 0 Reg.PF_SIZE) 6 0 = 64 ∧ fld (framing.rdM 0 Reg.PF_SIZE) 22 16 = 1
    ∧ framing.fetchDestOk 0 (framing.rdM 0 Reg.PF_DEST).toNat (16 + 64 * 1) = true
    ∧ freeTag framing.look.fetches 0 4 0 = some 0 :=
  ⟨⟨fun _ => by decide +kernel, fun h => absurd h (by decide)⟩, by decide +kernel,
    ⟨fun _ => by decide +kernel, fun h => absurd h (by decide)⟩, by decide +kernel, by decide +kernel, by decide +kernel, by decide +kernel⟩

def aFetch : Fetch :=
  { engine := 0, tag := 3, x := 0, y := 0, w := 1, h := 1, layer := 0, dest := 0x8000, gen := 0, ft := 0, changed := false, first := []
    gone := 0 }
theorem fetch_done_clause : ([aFetch].find? (fun f => f.engine == 0 && f.tag == 3)) = some aFetch := by decide

/-- A source that is listed and known, and an empty datagram of it (16 bytes, no records) with a newer sequence number. -/
def aSource (live : Bool) : TgtSrc := { slot := 2, id := 7, lastSeq := 1, lastFt := 0, live := live, lostAt := 0 }
def sourceDev (live : Bool) (ft : Nat) : Dev :=
  { (clientDev.setOb (Obj.TargetSourceId 0) 7).advance ft with look := { clientDev.look with srcs := [aSource live] } }
def aDatagram : List Byte := [1, 0, 0, 0, 2, 0, 0, 0, 7, 0, 0, 0, 0, 0, 0, 0]

theorem datagram_clause : ∃ x, (sourceDev true 0).hostOn = true ∧ (sourceDev true 0).datagramFault aDatagram = none
    ∧ (sourceDev true 0).heardSource (leAt aDatagram 8 2) (leAt aDatagram 4 4) = some x := ⟨_, by decide +kernel, by decide +kernel, rfl⟩
theorem list_in_clause : clientDev.anyLane = true := by decide +kernel
theorem source_timeout_clause : (sourceDev true 60000000000).srcAt 2 = some (aSource true)
    ∧ 0 + (sourceDev true 60000000000).ob Obj.TargetSourceTimeout * 1000000 ≤ (sourceDev true 60000000000).now := by decide +kernel
theorem source_release_clause : (sourceDev false 60000000000).srcAt 2 = some (aSource false)
    ∧ 0 + 60000000000 ≤ (sourceDev false 60000000000).now := by decide +kernel

/-! ## The queue -/

/-- A command that waits for a later millisecond, and one of the same cycle, which is looked at (log entry 104). -/
theorem quiet_queue : ([.laneDown 1000000 1, .refOscStable] : List Instr).all (wellAfter State.reset.dev (.actionFire 0 1)) = true
    ∧ wellAfter State.reset.dev (.actionFire 0 1) (.wdgExpire 0 0) = false := by decide +kernel

/-! ## Places -/

/-- The example of R16: endpoint 0x2B7A5 belongs to engine 695, in region 5, cluster 43, die 1. -/
theorem test_default_owner : 0x2B7A5 / 256 = 695 ∧ regionOf 695 = 5 ∧ clusterOf 695 = 43 ∧ dieOf 695 = 1 := by decide

/-- The block takes no words. -/
theorem test_no_table_word : decodeTableWord 16 0xFFFF = none ∧ (readyState.withFetchWord 16 0xFFFF).pending = [] := ⟨rfl, rfl⟩

end Sys2Proof.Tests
end

section
/-! Register writes, field by field (R7, R8). A write is a fold over the fields of the register's row. Fields of one row do not
meet, so each is decided by its own step of the fold; a rejected write then sets CFG_REJECT, which nothing later in the write
clears. -/
namespace Sys2Proof.Laws
open Sys2Proof.Machine

/-! ## The register map -/

/-- A field lies within a word. -/
def FieldInWord (f : RegField) : Prop := f.lo ≤ f.hi ∧ f.hi < 32

/-- Fields that do not share a bit. -/
def FieldsApart (f g : RegField) : Prop := f.hi < g.lo ∨ g.hi < f.lo

/-- A row's fields lie within the word and do not meet. -/
def RowLaid (r : RegRow) : Prop := (∀ f ∈ r.fields, FieldInWord f) ∧ r.fields.Pairwise FieldsApart

theorem fieldsApart_comm {f g : RegField} (h : FieldsApart f g) : FieldsApart g f := Or.symm h

/-- Every row of the register map is laid out so: a finite check, block by block. -/
theorem blockRows_laid (a : Nat) : ∀ r ∈ blockRows a, RowLaid r := by
  unfold blockRows RowLaid FieldInWord FieldsApart
  split <;> decide

theorem regRow_laid {a : Nat} {r : RegRow} (h : regRow a = some r) : RowLaid r := by
  unfold regRow at h
  split at h
  · exact blockRows_laid 0x400B0000 r (List.mem_of_find?_eq_some h)
  · exact blockRows_laid a r (List.mem_of_find?_eq_some h)

/-! ## One field of a write -/

theorem fld_lt (w : Word) (hi lo : Nat) : fld w hi lo < 2 ^ (hi + 1 - lo) := Nat.mod_lt _ (Nat.two_pow_pos _)

/-- What one field does with the word written: the step of `RegRow.merge`. -/
def takeField (w : Word) (p : Word × Bool) (f : RegField) : Word × Bool :=
  if f.accepts (fld w f.hi f.lo) then (putFld p.1 f.hi f.lo (fld w f.hi f.lo), p.2) else (p.1, true)

theorem merge_eq_foldl (r : RegRow) (cur w : Word) : r.merge cur w = r.fields.foldl (takeField w) (cur, false) := rfl

theorem takeField_same (w : Word) (p : Word × Bool) (f : RegField) (h : FieldInWord f) :
    fld (takeField w p f).1 f.hi f.lo
      = if f.accepts (fld w f.hi f.lo) = true then fld w f.hi f.lo else fld p.1 f.hi f.lo := by
  unfold takeField
  split
  · rw [fld_put_same _ _ _ _ h.1 h.2, Nat.mod_eq_of_lt (fld_lt w f.hi f.lo)]
  · rfl

theorem takeField_apart (w : Word) (p : Word × Bool) (f g : RegField) (hf : FieldInWord f) (hg : FieldInWord g)
    (h : FieldsApart f g) : fld (takeField w p f).1 g.hi g.lo = fld p.1 g.hi g.lo := by
  unfold takeField
  split
  · exact fld_put_apart _ _ _ _ _ _ hf.1 hf.2 hg.1 (fieldsApart_comm h)
  · rfl

theorem takeField_rejected (w : Word) (p : Word × Bool) (f : RegField) :
    (takeField w p f).2 = (p.2 || !f.accepts (fld w f.hi f.lo)) := by
  cases h : f.accepts (fld w f.hi f.lo) <;> simp [takeField, h]

/-! ## All fields of a write -/

/-- A field that meets none of those written keeps its value. -/
theorem foldl_takeField_apart (w : Word) (g : RegField) (hg : FieldInWord g) (fs : List RegField) (p : Word × Bool)
    (hfs : ∀ f ∈ fs, FieldInWord f) (h : ∀ f ∈ fs, FieldsApart f g) :
    fld (fs.foldl (takeField w) p).1 g.hi g.lo = fld p.1 g.hi g.lo := by
  induction fs generalizing p with
  | nil => rfl
  | cons f fs ih =>
    obtain ⟨hf, hfs⟩ := List.forall_mem_cons.mp hfs
    obtain ⟨ha, h⟩ := List.forall_mem_cons.mp h
    rw [List.foldl_cons, ih _ hfs h, takeField_apart w p f g hf hg ha]

/-- Each of the fields written is decided by its own step: those before and after it leave it alone. -/
theorem foldl_takeField_mem (w : Word) (g : RegField) (fs : List RegField) (p : Word × Bool)
    (hfs : ∀ f ∈ fs, FieldInWord f) (hap : fs.Pairwise FieldsApart) (hm : g ∈ fs) :
    fld (fs.foldl (takeField w) p).1 g.hi g.lo
      = if g.accepts (fld w g.hi g.lo) = true then fld w g.hi g.lo else fld p.1 g.hi g.lo := by
  induction fs generalizing p with
  | nil => exact absurd hm List.not_mem_nil
  | cons f fs ih =>
    obtain ⟨hf, hrest⟩ := List.forall_mem_cons.mp hfs
    obtain ⟨ha, hap⟩ := List.pairwise_cons.mp hap
    rw [List.foldl_cons]
    rcases List.mem_cons.mp hm with rfl | hm
    · rw [foldl_takeField_apart w g hf fs _ hrest (fun f hf => fieldsApart_comm (ha f hf)), takeField_same w p g hf]
    · rw [ih _ hrest hap hm, takeField_apart w p f g hf (hrest g hm) (ha g hm)]

theorem foldl_takeField_rejected (w : Word) (fs : List RegField) (p : Word × Bool) :
    (fs.foldl (takeField w) p).2 = (p.2 || fs.any (fun f => !f.accepts (fld w f.hi f.lo))) := by
  induction fs generalizing p with
  | nil => simp
  | cons f fs ih => rw [List.foldl_cons, ih, takeField_rejected, List.any_cons, Bool.or_assoc]

theorem merge_field {r : RegRow} (hr : RowLaid r) (cur w : Word) {f : RegField} (hf : f ∈ r.fields) :
    fld (r.merge cur w).1 f.hi f.lo
      = if f.accepts (fld w f.hi f.lo) = true then fld w f.hi f.lo else fld cur f.hi f.lo :=
  foldl_takeField_mem w f r.fields (cur, false) hr.1 hr.2 hf

theorem merge_rejected (r : RegRow) (cur w : Word) :
    (r.merge cur w).2 = r.fields.any (fun f => !f.accepts (fld w f.hi f.lo)) := by
  rw [merge_eq_foldl, foldl_takeField_rejected, Bool.false_or]

/-! ## CFG_REJECT -/

/-- Setting a bit clears no other bit of any register. -/
theorem bit_setBit_true_of_bit (d : Dev) (a i b j : Nat) (hi : i < 32) (h : d.bit b j = true) :
    (d.setBit a i true).bit b j = true := by
  by_cases hb : b = a
  · subst hb
    by_cases hj : j = i
    · subst hj
      exact bit_setBit_same d b j true hi
    · rw [bit_setBit_ne d b i j true hi hj, h]
  · rw [Dev.bit, rd_setBit_ne d a i b true hb]
    exact h

theorem bit_congr {d e : Dev} (h : e.regs = d.regs) (b j : Nat) : e.bit b j = d.bit b j := by
  simp only [Dev.bit, Dev.rd, h]

theorem setBit_regs_congr {d e : Dev} (h : e.regs = d.regs) (a i : Nat) (v : Bool) :
    (e.setBit a i v).regs = (d.setBit a i v).regs := by
  simp only [Dev.setBit, Dev.wr, Dev.rd, h]

@[simp] theorem incOb_regs (d : Dev) (k : Nat) : (d.incOb k).regs = d.regs := rfl

/-- All that staging a record does to the registers: nothing, or REC_STATUS bit 29 is set where the record is dropped (R473). -/
theorem stageRec_regs (d : Dev) (origin code : Nat) (ps : List Param) (flags : Nat) :
    (d.stageRec origin code ps flags).regs = d.regs
    ∨ (d.stageRec origin code ps flags).regs = (d.setBit Reg.REC_STATUS 29 true).regs := by
  unfold Dev.stageRec
  dsimp only
  split
  · exact .inl rfl
  · right
    dsimp only
    exact setBit_regs_congr (incOb_regs d Obj.EventsDropped) Reg.REC_STATUS 29 true

/-- A recorded event clears no bit of any register. -/
theorem bit_event_of_bit (d : Dev) (origin code : Nat) (ps : List Param) (b j : Nat) (h : d.bit b j = true) :
    (d.event origin code ps).bit b j = true := by
  rcases stageRec_regs d origin code ps 0 with e | e
  · rw [Dev.event, bit_congr e, h]
  · rw [Dev.event, bit_congr e, bit_setBit_true_of_bit d _ _ b j (by decide) h]

/-- Wherever a block keeps CFG_REJECT (log entry 34), it is a bit of a 32-bit word. -/
theorem rejectOf_bit_lt (m a : Nat) : (rejectOf m a).bit < 32 := by
  unfold rejectOf
  dsimp only
  split <;> (repeat' split) <;> simp only [Nat.reduceLT]

theorem bitM_setBitM_same (d : Dev) (m a i : Nat) (b : Bool) (h : i < 32) : (d.setBitM m a i b).bitM m a i = b :=
  bit_setBit_same d (bankKey m a) i b h

/-- A rejection leaves CFG_REJECT of the block set (R8): the hinge servo's own bit and the event come after it and clear nothing. -/
theorem reject_sets_cfgReject (d : Dev) (m a : Nat) : (d.reject m a).bitM m (rejectOf m a).reg (rejectOf m a).bit = true := by
  unfold Dev.reject
  extract_lets r was d1 d2
  have h1 : d1.bitM m r.reg r.bit = true := bitM_setBitM_same d m r.reg r.bit true (rejectOf_bit_lt m a)
  have h2 : d2.bitM m r.reg r.bit = true := by
    unfold d2
    split
    · exact bit_setBit_true_of_bit _ _ 31 _ _ (by decide) h1
    · exact h1
  split
  · exact h2
  · split <;> exact bit_event_of_bit _ _ _ _ _ _ h2

/-- A rejected write of an ordinary register ends in `Dev.reject`. -/
theorem regStore_of_rejected (d : Dev) (m a : Nat) (w : Word) {r : RegRow} (hr : regRow a = some r) (hwo : r.wo = false)
    (hrej : (r.merge (d.rdM m a) w).2 = true) :
    d.regStore m a w = (d.wrM m a ((r.merge (d.rdM m a) w).1 &&& ~~~(w &&& wd r.w1c))).reject m a := by
  simp [Dev.regStore, hr, hwo, hrej]

end Sys2Proof.Laws

namespace Sys2Proof
open Sys2Proof.Machine Sys2Proof.Laws

/-- Settles O14: fields of a row do not meet, so the fold of a write decides each by itself; and what follows CFG_REJECT in a
rejected write only sets bits. -/
theorem registerFieldsTakeLegalValues : Obligations.RegisterFieldsTakeLegalValues := by
  unfold Obligations.RegisterFieldsTakeLegalValues
  refine ⟨fun a r cur w hr => ⟨fun f hf => merge_field (regRow_laid hr) cur w hf, merge_rejected r cur w⟩, ?_⟩
  intro d m a w r hr hwo hrej
  rw [regStore_of_rejected d m a w hr hwo hrej]
  exact reject_sets_cfgReject _ m a

end Sys2Proof
end

section
/-! How accesses are judged: a master's write of a register (R22, R420), and a client's request before its owner sees it (R29, R356).
One rule for each way a judgement can end. -/
namespace Sys2Proof.Laws
open Sys2Proof.Machine

/-! ## Accesses of masters -/

section
variable {d : Dev} {m a : Nat} {k : Dev → Dev}

theorem byMaster_of_not_runs (write : Bool) (hm : m < engines) (hr : d.runs m = false) : d.byMaster m a write k = d := by
  simp [Dev.byMaster, hm, hr]

theorem byMaster_of_frozen (write : Bool) (hm : engines ≤ m) (hf : d.frozen m = true) : d.byMaster m a write k = d := by
  simp [Dev.byMaster, Nat.not_lt.mpr hm, hf]

/-- An engine's write outside its windows ends in a freeze with cause 2; `k` has no part in it. -/
theorem byMaster_write_outside (hm : m < engines) (hr : d.runs m = true) (hw : d.mayWrite m (busAddr a) 4 = false) :
    d.byMaster m a true k = (d.louvreWrong m (busAddr a)).freeze m 2 (busAddr a) (d.engine m).pc := by
  simp [Dev.byMaster, hm, hr, hw]

theorem byMaster_write_of_mayAct (h : MayAct d m a) : d.byMaster m a true k = k d := by
  obtain ⟨hengine, hother⟩ := h
  by_cases hm : m < engines
  · obtain ⟨hr, hw⟩ := hengine hm
    simp [Dev.byMaster, hm, hr, hw]
  · simp [Dev.byMaster, hm, hother (Nat.not_lt.mp hm)]

end

/-! ## Requests of clients -/

section
variable {d : Dev} {r : Req} {op idx sub off : Nat} {data : List Byte} {k : Dev → Dev}

theorem withRequest_of_hostOff (hp : d.hostOn = false) : d.withRequest r op idx sub off data k = d := by
  simp [Dev.withRequest, hp]

/-- A Tid whose response is kept is answered from it, or with 0x0302 where the content differs. -/
theorem withRequest_of_kept {x : Kept} (hp : d.hostOn = true) (hx : d.keptFor r = some x) :
    d.withRequest r op idx sub off data k
      = if x.content = reqContent op idx sub off r.token data then d.sendHere r x.status x.code idx sub off x.more x.data
        else (d.incOb Obj.DictAborts).sendHere r 1 0x0302 idx sub off false [] := by
  simp [Dev.withRequest, hp, hx]

theorem withRequest_of_mustWait (hp : d.hostOn = true) (hx : d.keptFor r = none) (hw : d.mustWait r idx = true) :
    d.withRequest r op idx sub off data k = d.waitToCross r op idx sub off data := by
  simp [Dev.withRequest, hp, hx, hw]

theorem withRequest_of_arrives (hp : d.hostOn = true) (hx : d.keptFor r = none) (hw : d.mustWait r idx = false) :
    d.withRequest r op idx sub off data k = k (d.letThrough r op idx sub off data) := by
  simp [Dev.withRequest, hp, hx, hw]

end

end Sys2Proof.Laws

namespace Sys2Proof
open Sys2Proof.Machine Sys2Proof.Laws

/-- Settles O13, by the rules of `Dev.byMaster`: an engine and another master are judged apart, and `MayAct` is what is left of
both. -/
theorem masterAccessJudged : Obligations.MasterAccessJudged := by
  unfold Obligations.MasterAccessJudged
  intro d m a k
  split
  case isTrue hm =>
    split
    case isTrue hr => exact byMaster_of_not_runs true hm hr
    case isFalse hr =>
      rw [Bool.not_eq_false] at hr
      split
      case isTrue hw => exact byMaster_write_outside hm hr hw
      case isFalse hw =>
        rw [Bool.not_eq_false] at hw
        exact byMaster_write_of_mayAct ⟨fun _ => ⟨hr, hw⟩, fun h => absurd hm (Nat.not_lt.mpr h)⟩
  case isFalse hm =>
    split
    case isTrue hf => exact byMaster_of_frozen true (Nat.not_lt.mp hm) hf
    case isFalse hf =>
      exact byMaster_write_of_mayAct ⟨fun h => absurd h hm, fun _ => Bool.eq_false_iff.mpr hf⟩

/-- Settles O15: `Dev.withRequest` decides up to the wait for a lane, by its rules; what follows for a request that arrives is the
server's own order in `Dev.dictWriteWith`. -/
theorem dictionaryWriteJudged : Obligations.DictionaryWriteJudged := by
  unfold Obligations.DictionaryWriteJudged
  intro d r idx sub off data own
  unfold Dev.dictWriteWith
  split
  case isTrue hp => exact withRequest_of_hostOff hp
  case isFalse hp =>
    rw [Bool.not_eq_false] at hp
    split
    case h_1 x hx => exact withRequest_of_kept hp hx
    case h_2 hx =>
      split
      case isTrue hw => exact withRequest_of_mustWait hp hx hw
      case isFalse hw => exact withRequest_of_arrives hp hx (Bool.eq_false_iff.mpr hw)

end Sys2Proof
end

section
/-! Field time: what a fabric cycle adds to FT (R42), and what a command's time does to it (R45). -/
namespace Sys2Proof.Laws
open Sys2Proof.Machine

/-! ## The count and its fraction -/

theorem now_eq_of_ft (d : Dev) {ft : Nat} (h : d.time.ft = ft) : d.now = ft / 2 ^ 32 := congrArg (· / 2 ^ 32) h

/-- The model's signed reading of a word is the two's-complement one. -/
theorem swd_eq_toInt (w : Word) : swd w = w.toInt := by
  have hw := w.isLt
  rw [swd, sx, BitVec.toInt_eq_toNat_cond, Nat.mod_eq_of_lt hw]
  split <;> split <;> omega

/-! ## The porch side of a clock tick -/

/-- Porch ticks touch the porch alone. -/
theorem advanceTicks_eq_porch (d : Dev) (k : Nat) : d.advanceTicks k = { d with porch := (d.advanceTicks k).porch } := by
  unfold Dev.advanceTicks
  split <;> rfl

/-- A part of a porch tick touches the porch alone. -/
theorem tickPart_eq_porch (d : Dev) : d.tickPart = { d with porch := d.tickPart.porch } := by
  unfold Dev.tickPart
  dsimp only
  split
  · rfl
  · split
    · rfl
    · rw [advanceTicks_eq_porch]

/-! ## A fabric cycle -/

/-- A fabric cycle touches the count and the porch alone. -/
theorem tick_eq_of_fabricOn {d : Dev} (h : d.fabricOn = true) :
    d.tick = { d with
      time := { d.time with ft := ((d.time.ft : Int) + 10737418240 + (d.rd Reg.FT_RATE).toInt).toNat }
      porch := d.tick.porch } := by
  rw [Dev.tick, if_pos h, tickPart_eq_porch, swd_eq_toInt]

theorem tick_ft_of_fabricOn {d : Dev} (h : d.fabricOn = true) :
    d.tick.time.ft = ((d.time.ft : Int) + 10737418240 + (d.rd Reg.FT_RATE).toInt).toNat :=
  congrArg (·.time.ft) (tick_eq_of_fabricOn h)

/-- The increment is positive at every rate, so the count needs no floor at 0. -/
theorem tick_ft_int_of_fabricOn {d : Dev} (h : d.fabricOn = true) :
    (d.tick.time.ft : Int) = d.time.ft + 5 * 2 ^ 31 + (d.rd Reg.FT_RATE).toInt := by
  have hrate := BitVec.le_toInt (d.rd Reg.FT_RATE)
  rw [tick_ft_of_fabricOn h]
  omega

theorem tick_ft_nominal {d : Dev} (h : d.fabricOn = true) (hr : d.rd Reg.FT_RATE = 0) :
    d.tick.time.ft = d.time.ft + 5 * 2 ^ 31 := by
  have hi := tick_ft_int_of_fabricOn h
  have h0 : (0 : Word).toInt = 0 := BitVec.toInt_zero
  rw [hr, h0] at hi
  omega

theorem rd_tick_of_fabricOn {d : Dev} (h : d.fabricOn = true) (a : Nat) : d.tick.rd a = d.rd a :=
  congrArg (·.rd a) (tick_eq_of_fabricOn h)

theorem fabricOn_tick {d : Dev} (h : d.fabricOn = true) : d.tick.fabricOn = true :=
  (congrArg Dev.fabricOn (tick_eq_of_fabricOn h)).trans h

/-- Two nominal increments are 5 ns. -/
theorem tick_tick_ft_nominal {d : Dev} (h : d.fabricOn = true) (hr : d.rd Reg.FT_RATE = 0) :
    d.tick.tick.time.ft = d.time.ft + 5 * 2 ^ 32 := by
  have hr' : d.tick.rd Reg.FT_RATE = 0 := (rd_tick_of_fabricOn h Reg.FT_RATE).trans hr
  rw [tick_ft_nominal (fabricOn_tick h) hr', tick_ft_nominal h hr]
  omega

/-! ## A command's time -/

/-- A command's time touches the count alone. -/
theorem advance_eq_ft (d : Dev) (t : Nat) :
    d.advance t = { d with time := { d.time with ft := (d.advance t).time.ft } } := by
  unfold Dev.advance
  split <;> rfl

theorem advance_of_not_fabricOn {d : Dev} (h : d.fabricOn = false) (t : Nat) : d.advance t = d := by
  simp [Dev.advance, h]

theorem now_advance_of_fabricOn {d : Dev} (h : d.fabricOn = true) (t : Nat) : (d.advance t).now = max d.now t := by
  unfold Dev.advance
  by_cases ht : d.now < t
  · rw [if_pos (by simp [h, ht]), Nat.max_eq_right (Nat.le_of_lt ht)]
    exact Nat.mul_div_cancel t (Nat.two_pow_pos 32)
  · rw [if_neg (by simp [ht]), Nat.max_eq_left (Nat.not_lt.mp ht)]

end Sys2Proof.Laws

namespace Sys2Proof
open Sys2Proof.Machine Sys2Proof.Laws

/-- Settles O11: no rate makes the increment negative; and at the nominal rate the first of two cycles carries into the whole
nanosecond, or leaves the carry to the second, by the half below the visible FT. -/
theorem fabricCycleAddsIncrement : Obligations.FabricCycleAddsIncrement := by
  unfold Obligations.FabricCycleAddsIncrement
  refine ⟨fun _ => rfl, fun _ h => tick_ft_int_of_fabricOn h, ?_⟩
  intro d h hr _
  have h0 : d.now = d.time.ft / 2 ^ 32 := rfl
  have h1 := now_eq_of_ft d.tick (tick_ft_nominal h hr)
  have h2 := now_eq_of_ft d.tick.tick (tick_tick_ft_nominal h hr)
  by_cases hcarry : d.time.ft % 2 ^ 32 < 2 ^ 31
  · left
    omega
  · right
    omega

/-- Settles O12: `Dev.advance` writes the count or nothing, and its value is the later of the two times while the fabric clock
runs. -/
theorem fieldTimeNeverGoesBack : Obligations.FieldTimeNeverGoesBack := by
  unfold Obligations.FieldTimeNeverGoesBack
  intro d t
  refine ⟨?_, now_advance_le d t, advance_eq_ft d t⟩
  split
  case isTrue h => exact now_advance_of_fabricOn h t
  case isFalse h => rw [advance_of_not_fabricOn (Bool.eq_false_iff.mpr h) t]

end Sys2Proof
end

section
/-! Look-ahead commands (R147 to R165): what each means, what its request, fetch or source comes to once nothing stands against it,
and that it then completes. -/
namespace Sys2Proof.Laws
open Sys2Proof.Machine

/-! ## Granted requests -/

/-- A granted write passes every check of the server, so its owner's part decides what is left. -/
theorem dictWriteWith_of_granted {d x : Dev} {r : Req} {idx sub off : Nat} {data : List Byte} {own : Dev → WRes}
    (h : Granted d r idx sub off data own x) : d.dictWriteWith r idx sub off data own = served d r idx sub off data x := by
  obtain ⟨hpower, hkept, hwait, hcode, hcompact, hown⟩ := h
  rw [Dev.dictWriteWith, withRequest_of_arrives hpower hkept hwait]
  simp [hcode, hcompact, hown, served]

/-! ## Frames -/

/-- FRM_DONE of a running frame (R149): one that waits behind it begins, or the engine's frame is over. -/
theorem frmDone_of_frameBusy {d : Dev} {m : Nat} (h : d.frameBusy m = true) :
    let y : Dev := { d with frame := { d.frame with share := max d.frame.share d.frameShare } }
    d.frmDone m =
      if d.bitM m Reg.FRM_STATUS 1 = true then (y.setBitM m Reg.FRM_STATUS 1 false).raise m 0
      else (y.setBusy m false).setBitM m Reg.IRQ_PEND 0 false :=
  if_pos h

/-! ## Pane commands -/

/-- The pane that a client's commands are about stands in the column of its staged PaneX (R155). -/
abbrev stagedCol (d : Dev) (r : Req) : Int := sx 16 (d.obC (d.stageKey r) Obj.PaneX)
/-- … and in the row of its staged PaneY. -/
abbrev stagedRow (d : Dev) (r : Req) : Int := sx 16 (d.obC (d.stageKey r) Obj.PaneY)

section
variable (d : Dev) (r : Req)

theorem paneCommand_create : d.paneCommand r 1 = d.paneCreate (stagedCol d r) (stagedRow d r) := rfl

theorem paneCommand_delete :
    d.paneCommand r 2 = if d.levelOf r < 2 then d.no 0x0201 else d.paneDelete (stagedCol d r) (stagedRow d r) := rfl

theorem paneCommand_clear :
    d.paneCommand r 3 = if d.levelOf r < 2 then d.no 0x0201 else d.paneClear (stagedCol d r) (stagedRow d r) := rfl

theorem paneDataWrite_eq (off : Nat) (data : List Byte) :
    let full := d.obC (d.stageKey r) Obj.PaneWriteMode == 1
    d.paneDataWrite r off data = if full = true ∧ d.levelOf r < 2 then d.no 0x0201
      else d.paneWrite (stagedCol d r) (stagedRow d r) full off data := by
  simp only [Dev.paneDataWrite, Bool.and_eq_true, decide_eq_true_eq]

end

/-! ## Pane fetches -/

/-- PF_CMD 1 of a rectangle of 1 to 64 cells each way to a permitted destination starts a fetch under the lowest free tag (R158). -/
theorem paneFetch_of_accepted {d : Dev} {m tag : Nat} :
    let w := fld (d.rdM m Reg.PF_SIZE) 6 0
    let h := fld (d.rdM m Reg.PF_SIZE) 22 16
    let dest := (d.rdM m Reg.PF_DEST).toNat
    1 ≤ w → w ≤ 64 → 1 ≤ h → h ≤ 64 → d.fetchDestOk m dest (16 + w * h) = true → freeTag d.look.fetches m 4 0 = some tag →
    d.paneFetch m = (d.fetchStart
      { engine := m, tag := tag, x := swd (d.rdM m Reg.PF_X), y := swd (d.rdM m Reg.PF_Y), w := w, h := h
        layer := fld (d.rdM m Reg.PF_SIZE) 25 24, dest := ownAddr m dest, gen := 0, ft := 0, changed := false, first := []
        gone := 0 }).pfResult m tag 0 := by
  intro w h dest hw hw' hh hh' hdest htag
  have hsize : ¬(w = 0 ∨ 64 < w ∨ h = 0 ∨ 64 < h) := by omega
  rw [Dev.paneFetch, if_neg hsize, if_neg (by simpa using hdest), htag]

/-! ## Target sources -/

/-- A datagram without a fault whose source is known or finds a slot is passed on, on M2 and M3 alternately (R164, R347). -/
theorem targetDatagram_of_heard {d x : Dev} {data : List Byte} (hp : d.hostOn = true) (hf : d.datagramFault data = none)
    (hx : d.heardSource (leAt data 8 2) (leAt data 4 4) = some x) :
    let y : Dev := { x with tr := { x.tr with tgtLane := 5 - x.tr.tgtLane } }
    d.targetDatagram data = y.crossOut (y.hostMsg 4 x.tr.tgtLane 2 data) := by
  simp [Dev.targetDatagram, hp, hf, hx]

/-- A live source that was silent for TargetSourceTimeout is live no longer (R165). -/
theorem targetTimeout_of_silent {d : Dev} {slot : Nat} {x : TgtSrc} (hx : d.srcAt slot = some x) (hl : x.live = true)
    (hs : x.lastFt + d.ob Obj.TargetSourceTimeout * 1000000 ≤ d.now) :
    d.targetTimeout slot = Dev.setLive
      { d with look := { d.look with srcs := d.look.srcs.map (fun (z : TgtSrc) =>
        if z.slot = x.slot then { x with live := false, lostAt := d.now } else z) } } x.slot x.id false := by
  have hnow : ¬d.now < x.lastFt + d.ob Obj.TargetSourceTimeout * 1000000 := Nat.not_lt.mpr hs
  simp [Dev.targetTimeout, hx, Dev.judgeSource, hl, hnow]

/-- A source lost for 60 s gives its slot up (R165). -/
theorem targetRelease_of_lost {d : Dev} {slot : Nat} {x : TgtSrc} (hx : d.srcAt slot = some x) (hl : x.live = false)
    (ht : x.lostAt + 60000000000 ≤ d.now) :
    d.targetRelease slot = { d with look := { d.look with srcs := d.look.srcs.filter (fun z => z.slot != slot) } } := by
  simp [Dev.targetRelease, hx, hl, ht]

/-! ## The commands -/

section
variable (s : State) (t m slot off : Nat) (r : Req) (data : List Byte)

theorem exec_frameLengthWrite (v : Nat) : exec (.frameLengthWrite t r v) s = .next (after s
    ((s.dev.advance t).dictWriteWith r 0x6000 1 0 (leBytes v 2) (fun y => y.writeFrameLength v))) := rfl

theorem exec_frmDone : exec (.frmDone t m) s = .next (after s
    ((s.dev.advance t).byMaster m Reg.FRM_DONE_REG true (fun y => y.frmDone m))) := rfl

theorem exec_paneCreate : exec (.paneCreate t r) s = .next (after s
    ((s.dev.advance t).dictWriteWith r 0x6003 7 0 (leBytes 1 1) (fun y => y.paneCommand r 1))) := rfl

theorem exec_paneDelete : exec (.paneDelete t r) s = .next (after s
    ((s.dev.advance t).dictWriteWith r 0x6003 7 0 (leBytes 2 1) (fun y => y.paneCommand r 2))) := rfl

theorem exec_paneClearCoverage : exec (.paneClearCoverage t r) s = .next (after s
    ((s.dev.advance t).dictWriteWith r 0x6003 7 0 (leBytes 3 1) (fun y => y.paneCommand r 3))) := rfl

theorem exec_paneDataWrite : exec (.paneDataWrite t r off data) s = .next (after s
    ((s.dev.advance t).dictWriteWith r 0x6003 9 off data (fun y => y.paneDataWrite r off data))) := rfl

theorem exec_paneFetch : exec (.paneFetch t m) s = .next (after s
    ((s.dev.advance t).byMaster m Reg.PF_CMD true (fun y => y.paneFetch m))) := rfl

theorem exec_paneFetchDone_of_waits {e tag : Nat} {f : Fetch}
    (hf : (s.dev.advance t).look.fetches.find? (fun f => f.engine == e && f.tag == tag) = some f) :
    exec (.paneFetchDone t e tag) s = .next (after s ((s.dev.advance t).fetchDone f)) := by
  change execPaneFetchDone t e tag s = _
  rw [execPaneFetchDone, hf]
  rfl

theorem exec_targetDatagram : exec (.targetDatagram t data) s = .next (after s ((s.dev.advance t).targetDatagram data)) := rfl

theorem exec_targetListIn : exec (.targetListIn t data) s = .next (after s
    (if (s.dev.advance t).anyLane = true then (s.dev.advance t).targetListIn data else s.dev.advance t)) := rfl

theorem exec_targetSourceTimeout : exec (.targetSourceTimeout t slot) s = .next (after s
    ((s.dev.advance t).targetTimeout slot)) := rfl

theorem exec_targetSourceRelease : exec (.targetSourceRelease t slot) s = .next (after s
    ((s.dev.advance t).targetRelease slot)) := rfl

end

end Sys2Proof.Laws

namespace Sys2Proof
open Sys2Proof.Machine Sys2Proof.Laws

/-- Settles O60, command by command: the meaning of each, past the judgement of its request or its master, is the operation of the
unit; and the conditions leave one branch of that operation. -/
theorem lookaheadCommandsComplete : Obligations.LookaheadCommandsComplete := by
  unfold Obligations.LookaheadCommandsComplete
  intro s t m e tag slot v off r data
  refine ⟨?frameLength, ?frmDone, ?create, ?delete, ?clear, ?paneData, ?fetch, ?fetchDone, ?datagram, ?listIn, ?timeout, ?release⟩
  case frameLength =>
    intro x h
    rw [exec_frameLengthWrite, dictWriteWith_of_granted h]
  case frmDone =>
    intro hact hbusy
    rw [exec_frmDone, byMaster_write_of_mayAct hact, frmDone_of_frameBusy hbusy]
  case create =>
    intro x h
    simp only [exec_paneCreate, paneCommand_create, dictWriteWith_of_granted h]
  case delete =>
    intro x h
    simp only [exec_paneDelete, paneCommand_delete, dictWriteWith_of_granted h]
  case clear =>
    intro x h
    simp only [exec_paneClearCoverage, paneCommand_clear, dictWriteWith_of_granted h]
  case paneData =>
    intro x h
    simp only [exec_paneDataWrite, paneDataWrite_eq, dictWriteWith_of_granted h]
  case fetch =>
    intro w h dest hact hw hw' hh hh' hdest htag
    rw [exec_paneFetch, byMaster_write_of_mayAct hact, paneFetch_of_accepted hw hw' hh hh' hdest htag]
  case fetchDone => exact fun f hf => exec_paneFetchDone_of_waits s t hf
  case datagram =>
    intro x hp hf hx
    rw [exec_targetDatagram, targetDatagram_of_heard hp hf hx]
  case listIn =>
    intro hlane
    rw [exec_targetListIn, if_pos hlane]
  case timeout =>
    intro x hx hl hs
    rw [exec_targetSourceTimeout, targetTimeout_of_silent hx hl hs]
  case release =>
    intro x hx hl ht
    rw [exec_targetSourceRelease, targetRelease_of_lost hx hl ht]

end Sys2Proof
end

section
/-! Entries of one endpoint at one tick (R177): which of them decides, and what it fires as. An action that stands among the entries
has one accepted last; one that does not has none, so the choice passes on to the next row of the table. -/
namespace Sys2Proof.Laws
open Sys2Proof.Machine

variable {qs : List QEntry} {q : QEntry} {action : Nat}

/-! ## The entry accepted last of an action -/

/-- The entry accepted last of an action is one of the entries, and of that action. -/
theorem mem_of_lastOf (h : lastOf qs action = some q) : q ∈ qs ∧ q.action = action := by
  simpa using List.mem_filter.mp (List.mem_of_getLast? h)

/-- None is accepted last exactly if the action does not stand among the entries. -/
theorem lastOf_eq_none_iff : lastOf qs action = none ↔ qs.any (fun q => q.action == action) = false := by
  rw [lastOf, List.getLast?_eq_none_iff, List.filter_eq_nil_iff, List.any_eq_false]

theorem exists_lastOf_of_any (h : qs.any (fun q => q.action == action) = true) : ∃ q, lastOf qs action = some q :=
  Option.ne_none_iff_exists'.mp (mt lastOf_eq_none_iff.mp (Bool.not_eq_false _ ▸ h))

/-! ## The deciding entry, row by row -/

theorem decides_of_off (h : lastOf qs 0 = some q) : decides qs = some q := by simp only [decides, h]

theorem decides_of_level (hoff : lastOf qs 0 = none) (h : lastOf qs 2 = some q) : decides qs = some q := by
  simp only [decides, hoff, h]

theorem decides_of_no_level (hoff : lastOf qs 0 = none) (hlevel : lastOf qs 2 = none) : decides qs = lastOf qs 1 := by
  simp only [decides, hoff, hlevel]

/-! ## What it fires as -/

/-- An off or an on fires as itself, whatever stands beside it. -/
theorem firedAction_of_not_level (qs : List QEntry) (h : q.action ≠ 2) : firedAction qs q = q.action := by
  simp [firedAction, h]

/-- A level fires as an on beside an on. -/
theorem firedAction_of_level (qs : List QEntry) (h : q.action = 2) :
    firedAction qs q = if qs.any (fun x => x.action == 1) then 1 else 2 := by
  simp [firedAction, h]

/-! ## The marks of the firing -/

/-- The action that waits for its measurement carries the marks of its entry. -/
theorem awaitMeasure_carries_marks (d : Dev) (q : QEntry) (e s action : Nat) : ∃ a,
    (d.awaitMeasure q e s action).shq.acts = d.shq.acts ++ [a]
      ∧ a.epoch = q.epoch ∧ a.late = q.late ∧ a.handle = q.handle ∧ a.stale = q.stale ∧ a.level = q.level :=
  ⟨_, rfl, rfl, rfl, rfl, rfl, rfl⟩

end Sys2Proof.Laws

namespace Sys2Proof
open Sys2Proof.Machine Sys2Proof.Laws

/-- Settles O17, row by row of the table of R177; a group's firing is `Dev.fireGroup` written out, and its measurement takes the marks
of the entry it is given. -/
theorem sameTickIsOneFiring : Obligations.SameTickIsOneFiring := by
  unfold Obligations.SameTickIsOneFiring
  refine ⟨?off, ?level, ?on, ?group, awaitMeasure_carries_marks⟩
  case off =>
    intro qs hoff
    obtain ⟨q, hq⟩ := exists_lastOf_of_any hoff
    obtain ⟨hmem, hact⟩ := mem_of_lastOf hq
    have hfired : firedAction qs q = 0 := (firedAction_of_not_level qs (by omega)).trans hact
    exact ⟨q, decides_of_off hq, hq, hmem, hact, hfired⟩
  case level =>
    intro qs hoff hlevel
    obtain ⟨q, hq⟩ := exists_lastOf_of_any hlevel
    obtain ⟨hmem, hact⟩ := mem_of_lastOf hq
    exact ⟨q, decides_of_level (lastOf_eq_none_iff.mpr hoff) hq, hq, hmem, hact, firedAction_of_level qs hact⟩
  case on =>
    intro qs hoff hlevel hon
    obtain ⟨q, hq⟩ := exists_lastOf_of_any hon
    obtain ⟨hmem, hact⟩ := mem_of_lastOf hq
    have hdecides : decides qs = some q := (decides_of_no_level (lastOf_eq_none_iff.mpr hoff) (lastOf_eq_none_iff.mpr hlevel)).trans hq
    have hfired : firedAction qs q = 1 := (firedAction_of_not_level qs (by omega)).trans hact
    exact ⟨q, hdecides, hq, hmem, hact, hfired⟩
  case group => exact fun d qs q closing => rfl

end Sys2Proof
end

section
/-! The close state (R287). Its causes are ten bits, each at its place, so CLOSE_STATUS shows them without overlap; and every step ends
behind the gate that writes CLOSE_STATUS and forces the channels that still drive (log entry 5). -/
namespace Sys2Proof.Laws
open Sys2Proof.Machine

/-! ## Bits added up, each at its place -/

theorem bitOf_eq_testBit (n i : Nat) : bitOf n i = n.testBit i := by
  rw [Nat.testBit_eq_decide_div_mod_eq]
  rfl

/-- The bits `b 0` to `b (k - 1)`, each at its place. -/
def bitSum (b : Nat → Bool) (k : Nat) : Nat := (List.range k).foldl (fun a p => a + b2n (b p) * 2 ^ p) 0

theorem bitSum_succ (b : Nat → Bool) (k : Nat) : bitSum b (k + 1) = 2 ^ k * b2n (b k) + bitSum b k := by
  simp only [bitSum, List.range_succ, List.foldl_append, List.foldl_cons, List.foldl_nil]
  ring

theorem b2n_le_one (b : Bool) : b2n b ≤ 1 := by cases b <;> decide

theorem bitSum_lt (b : Nat → Bool) (k : Nat) : bitSum b k < 2 ^ k := by
  induction k with
  | zero => exact Nat.one_pos
  | succ k ih =>
    have hb : 2 ^ k * b2n (b k) ≤ 2 ^ k * 1 := Nat.mul_le_mul_left _ (b2n_le_one (b k))
    rw [bitSum_succ, pow_succ]
    omega

theorem bitOf_b2n_zero (b : Bool) : bitOf (b2n b) 0 = b := by cases b <;> decide

/-- Above a number below 2^k, bit `k` is the bit that is added there. -/
theorem bitOf_top {x k : Nat} (b : Bool) (hx : x < 2 ^ k) : bitOf (2 ^ k * b2n b + x) k = b := by
  rw [bitOf_eq_testBit, Nat.testBit_two_pow_mul_add _ hx, if_neg (Nat.lt_irrefl k), Nat.sub_self, ← bitOf_eq_testBit,
    bitOf_b2n_zero]

theorem bitOf_below_top {x k i : Nat} (b : Bool) (hx : x < 2 ^ k) (hi : i < k) : bitOf (2 ^ k * b2n b + x) i = bitOf x i := by
  rw [bitOf_eq_testBit, bitOf_eq_testBit, Nat.testBit_two_pow_mul_add _ hx, if_pos hi]

theorem bitOf_bitSum (b : Nat → Bool) {k p : Nat} (hp : p < k) : bitOf (bitSum b k) p = b p := by
  induction k with
  | zero => exact absurd hp (Nat.not_lt_zero p)
  | succ k ih =>
    rw [bitSum_succ]
    rcases Nat.lt_succ_iff_lt_or_eq.mp hp with hlt | heq
    · rw [bitOf_below_top _ (bitSum_lt b k) hlt, ih hlt]
    · rw [heq, bitOf_top _ (bitSum_lt b k)]

/-! ## The causes and the word that shows them -/

/-- The cause that bit `p` of CLOSE_STATUS stands for. -/
def causeAt (d : Dev) (p : Nat) : Bool :=
  if p < 8 then d.pairOn p && decide (d.f (Reg.SIN_STATUS p) 1 0 ≠ 1)
  else if p = 8 then d.bit (Reg.ACL_STATUS 0) 2 || d.bit (Reg.ACL_STATUS 1) 2
  else d.bit Reg.TR_STATUS 2

theorem causesNow_eq_bitSum (d : Dev) : d.causesNow = bitSum (causeAt d) 10 := by
  have hline : causeAt d 8 = (d.bit (Reg.ACL_STATUS 0) 2 || d.bit (Reg.ACL_STATUS 1) 2) := rfl
  have hstop : causeAt d 9 = d.bit Reg.TR_STATUS 2 := rfl
  have hpairs : (List.range 8).foldl (fun a p => a + b2n (d.pairOn p && decide (d.f (Reg.SIN_STATUS p) 1 0 ≠ 1)) * 2 ^ p) 0
      = bitSum (causeAt d) 8 := rfl
  rw [bitSum_succ, bitSum_succ, hline, hstop, Dev.causesNow, hpairs]
  ring

theorem bitOf_causesNow (d : Dev) {p : Nat} (hp : p < 10) : bitOf d.causesNow p = causeAt d p := by
  rw [causesNow_eq_bitSum, bitOf_bitSum _ hp]

theorem causesNow_lt (d : Dev) : d.causesNow < 1024 := by
  rw [causesNow_eq_bitSum]
  exact bitSum_lt _ 10

/-- CLOSE_STATUS has the state at bit 31, above the causes. -/
theorem closeWord_toNat {c : Nat} (hc : c < 1024) : (closeWord c).toNat = 2 ^ 31 * b2n (decide (c ≠ 0)) + c := by
  rw [closeWord, wd_toNat]
  by_cases h : c = 0
  · subst h
    decide
  · simp only [h, if_false, b2n, ne_eq, not_false_eq_true, decide_true, if_true]
    omega

theorem fbit_closeWord_cause {c i : Nat} (hc : c < 1024) (hi : i < 31) : fbit (closeWord c) i = bitOf c i := by
  rw [fbit, closeWord_toNat hc, bitOf_below_top _ (by omega) hi]

theorem fbit_closeWord_state {c : Nat} (hc : c < 1024) : fbit (closeWord c) 31 = decide (c ≠ 0) := by
  rw [fbit, closeWord_toNat hc, bitOf_top _ (by omega)]

theorem fld_closeWord_reserved {c : Nat} (hc : c < 1024) : fld (closeWord c) 30 10 = 0 := by
  have hb := b2n_le_one (decide (c ≠ 0))
  rw [fld, bitsOf, closeWord_toNat hc]
  omega

/-! ## What the gate writes -/

theorem closeGate_of_hostOff {d : Dev} (h : d.hostOn = false) : d.closeGate = d := by simp [Dev.closeGate, h]

theorem closeGate_of_no_cause {d : Dev} (h : d.hostOn = true) (hc : d.causesNow = 0) :
    d.closeGate = d.wr Reg.CLOSE_STATUS (closeWord d.causesNow) := by
  simp [Dev.closeGate, h, hc]

theorem closeGate_of_cause {d : Dev} (h : d.hostOn = true) (hc : d.causesNow ≠ 0) :
    d.closeGate = (List.range 64).foldl (fun (d : Dev) n => if d.energised n then d.setPhase n 4 else d)
      (d.wr Reg.CLOSE_STATUS (closeWord d.causesNow)) := by
  simp [Dev.closeGate, h, hc]

theorem solStatus_ne_closeStatus (n : Nat) : Reg.SOL_STATUS n ≠ Reg.CLOSE_STATUS := by
  simp only [Reg.SOL_STATUS, Reg.CLOSE_STATUS]
  omega

theorem energised_congr {d e : Dev} {n : Nat} (h : e.rd (Reg.SOL_STATUS n) = d.rd (Reg.SOL_STATUS n)) :
    e.energised n = d.energised n := by
  have hphase : e.solPhase n = d.solPhase n := congrArg (fun w => fld w 3 0) h
  rw [Dev.energised, Dev.energised, hphase]

/-- SOL_STATUS of a channel as forcing leaves it: PHASE at fast recovery where the channel drives. -/
def forcedStatus (d : Dev) (n : Nat) : Word :=
  if d.energised n then putFld (d.rd (Reg.SOL_STATUS n)) 3 0 4 else d.rd (Reg.SOL_STATUS n)

theorem forcedStatus_congr {d e : Dev} {n : Nat} (h : e.rd (Reg.SOL_STATUS n) = d.rd (Reg.SOL_STATUS n)) :
    forcedStatus e n = forcedStatus d n := by
  rw [forcedStatus, forcedStatus, energised_congr h, h]

/-- PHASE is bits 3:0, so forcing keeps what stands above it. -/
theorem fld_forcedStatus_above (d : Dev) (n : Nat) : fld (forcedStatus d n) 31 4 = fld (d.rd (Reg.SOL_STATUS n)) 31 4 := by
  unfold forcedStatus
  split
  · exact fld_put_apart _ 3 0 4 31 4 (by decide) (by decide) (by decide) (by decide)
  · rfl

/-- A forced channel does not drive: fast recovery is no phase that does. -/
theorem not_energised_of_forcedStatus {d x : Dev} {n : Nat} (h : x.rd (Reg.SOL_STATUS n) = forcedStatus d n) :
    x.energised n = false := by
  by_cases he : d.energised n = true
  · have hword : x.rd (Reg.SOL_STATUS n) = putFld (d.rd (Reg.SOL_STATUS n)) 3 0 4 := h.trans (if_pos he)
    have hphase : x.solPhase n = 4 := by
      rw [Dev.solPhase, Dev.f, hword]
      exact fld_put_same _ 3 0 4 (by decide) (by decide)
    rw [Dev.energised, hphase]
    decide
  · have hword : x.rd (Reg.SOL_STATUS n) = d.rd (Reg.SOL_STATUS n) := h.trans (if_neg he)
    rw [energised_congr hword, Bool.eq_false_iff.mpr he]

/-- Forcing goes channel by channel: each is decided in its own turn, and no other turn touches it. -/
theorem gateFold_solStatus (m : Nat) {ns : List Nat} (hns : ns.Nodup) (hm : m ∈ ns) (d : Dev) :
    (ns.foldl (fun (d : Dev) n => if d.energised n then d.setPhase n 4 else d) d).rd (Reg.SOL_STATUS m) = forcedStatus d m := by
  have hinj : ∀ n, n ≠ m → Reg.SOL_STATUS m ≠ Reg.SOL_STATUS n := fun n hn => by simp only [Reg.SOL_STATUS]; omega
  induction ns generalizing d with
  | nil => exact absurd hm List.not_mem_nil
  | cons n ns ih =>
    obtain ⟨hn, hns⟩ := List.nodup_cons.mp hns
    rw [List.foldl_cons]
    by_cases heq : n = m
    · subst heq
      rw [gateFold_rd ns _ _ (fun k hk => hinj k (fun h => hn (h ▸ hk)))]
      unfold forcedStatus
      split
      · exact rd_setF d _ 3 0 4 _ |>.trans (if_pos rfl)
      · rfl
    · rw [ih hns (List.mem_of_ne_of_mem (Ne.symm heq) hm)]
      split
      · exact forcedStatus_congr (rd_setF_ne _ _ _ _ _ _ (hinj n heq))
      · rfl

theorem closeGate_closeStatus {d : Dev} (h : d.hostOn = true) : d.closeGate.rd Reg.CLOSE_STATUS = closeWord d.causesNow := by
  by_cases hc : d.causesNow = 0
  · rw [closeGate_of_no_cause h hc, rd_wr_same]
  · rw [closeGate_of_cause h hc, gateFold_rd _ _ _ (fun n _ => (solStatus_ne_closeStatus n).symm), rd_wr_same]

/-- While a cause holds the gate forces every channel. -/
theorem closeGate_solStatus_of_cause {d : Dev} (h : d.hostOn = true) (hc : d.causesNow ≠ 0) {n : Nat} (hn : n < 64) :
    d.closeGate.rd (Reg.SOL_STATUS n) = forcedStatus d n := by
  rw [closeGate_of_cause h hc, gateFold_solStatus n List.nodup_range (List.mem_range.mpr hn)]
  exact forcedStatus_congr (rd_wr_ne _ _ _ _ (solStatus_ne_closeStatus n))

theorem closeGate_solStatus_of_no_cause {d : Dev} (hc : d.causesNow = 0) (n : Nat) :
    d.closeGate.rd (Reg.SOL_STATUS n) = d.rd (Reg.SOL_STATUS n) := by
  cases h : d.hostOn with
  | false => rw [closeGate_of_hostOff h]
  | true => rw [closeGate_of_no_cause h hc, rd_wr_ne _ _ _ _ (solStatus_ne_closeStatus n)]

/-- A SOL_STATUS behind the gate is the one before it, or that as forcing leaves it. -/
theorem closeGate_solStatus_cases (d : Dev) {n : Nat} (hn : n < 64) :
    d.closeGate.rd (Reg.SOL_STATUS n) = d.rd (Reg.SOL_STATUS n) ∨ d.closeGate.rd (Reg.SOL_STATUS n) = forcedStatus d n := by
  cases h : d.hostOn with
  | false => exact .inl (by rw [closeGate_of_hostOff h])
  | true =>
    by_cases hc : d.causesNow = 0
    · exact .inl (closeGate_solStatus_of_no_cause hc n)
    · exact .inr (closeGate_solStatus_of_cause h hc hn)

/-- Registers other than CLOSE_STATUS and the channels' SOL_STATUS are out of the gate's reach. -/
theorem closeGate_rd_of_ne {d : Dev} {a : Nat} (hc : a ≠ Reg.CLOSE_STATUS) (hs : ∀ n, n < 64 → a ≠ Reg.SOL_STATUS n) :
    d.closeGate.rd a = d.rd a := by
  cases h : d.hostOn with
  | false => rw [closeGate_of_hostOff h]
  | true =>
    by_cases hz : d.causesNow = 0
    · rw [closeGate_of_no_cause h hz, rd_wr_ne _ _ _ _ hc]
    · rw [closeGate_of_cause h hz, gateFold_rd _ _ _ (fun n hn => hs n (List.mem_range.mp hn)), rd_wr_ne _ _ _ _ hc]

/-! ## What decides an output, first row first (R265) -/

theorem forcing_iff (d : Dev) (i : Nat) :
    d.forcing i = true ↔ d.wdgState i = 0 ∨ (d.wdgState i = 2 ∧ d.bit (Reg.WDG_CTRL i) 31 = false) := by
  simp [Dev.forcing, Dev.wdgHold]

theorem lsTripped_iff (d : Dev) (n : Nat) : d.lsTripped n = true ↔
    d.bit (Reg.LS_STATUS n) 30 = true ∨ d.bit (Reg.LS_STATUS n) 21 = true ∨ d.bit (Reg.LS_STATUS n) 20 = true := by
  simp [Dev.lsTripped, or_assoc]

/-- No supply, another mode or protection holds a digital output low; else R265 decides what is asked of it. -/
theorem dioLevel_eq_ite (d : Dev) (n : Nat) : d.dioLevel n =
    if d.hostOn = false ∨ d.dioMode n ≠ 2 then false
    else if d.bit (Reg.DIO_STATUS n) 18 = true ∨ d.bit (Reg.DIO_STATUS n) 17 = true then false
    else d.dioAsked n := by
  by_cases hsupply : d.hostOn = false ∨ d.dioMode n ≠ 2
  · rw [if_pos hsupply]
    rcases hsupply with h | h <;> simp [Dev.dioLevel, h]
  by_cases htrip : d.bit (Reg.DIO_STATUS n) 18 = true ∨ d.bit (Reg.DIO_STATUS n) 17 = true
  · rw [if_neg hsupply, if_pos htrip]
    rcases htrip with h | h <;> simp [Dev.dioLevel, h]
  · rw [if_neg hsupply, if_neg htrip]
    simp only [not_or, Bool.not_eq_false, Bool.not_eq_true, not_not] at hsupply htrip
    simp [Dev.dioLevel, hsupply, htrip]

theorem lsOn_of_closed {d : Dev} (h : d.closed = true) (n : Nat) : d.lsOn n = false := by simp [Dev.lsOn, h]

theorem dioLevel_of_closed {d : Dev} (h : d.closed = true) (n : Nat) : d.dioLevel n = false := by
  simp [Dev.dioLevel, Dev.dioAsked, h]

/-! ## Behind the gate the package is close-safe -/

theorem closed_closeGate {d : Dev} (h : d.hostOn = true) : d.closeGate.closed = decide (d.causesNow ≠ 0) := by
  rw [Dev.closed, Dev.bit, closeGate_closeStatus h, fbit_closeWord_state (causesNow_lt d)]

theorem quiet_closeGate {d : Dev} (h : d.hostOn = true) (hc : d.causesNow ≠ 0) : Quiet d.closeGate := by
  have hclosed : d.closeGate.closed = true := (closed_closeGate h).trans (decide_eq_true hc)
  exact ⟨fun n hn => not_energised_of_forcedStatus (closeGate_solStatus_of_cause h hc hn),
    fun n _ => lsOn_of_closed hclosed n, fun n _ => dioLevel_of_closed hclosed n⟩

theorem closeSafe_closeGate (d : Dev) : CloseSafe d.closeGate := by
  unfold CloseSafe CloseShown ClosedQuiet
  rw [closeGate_hostOn, closeGate_causesNow]
  exact ⟨closeGate_closeStatus, quiet_closeGate⟩

theorem closeSafe_of_hostOff {d : Dev} (h : d.hostOn = false) : CloseSafe d :=
  ⟨fun hon => absurd (h.symm.trans hon) Bool.false_ne_true, fun hon => absurd (h.symm.trans hon) Bool.false_ne_true⟩

/-- Every step, with a command or without, ends in `State.put`. -/
theorem step_put (s : State) : ∃ s₀ d, step s = State.put s₀ d := by
  cases h : s.pending with
  | nil => exact ⟨s, s.dev.tick, step_idle s h⟩
  | cons c rest =>
    obtain ⟨d, hd⟩ := exec_put c { s with pending := rest }
    exact ⟨{ s with pending := rest }, d, (step_front s c rest h).trans hd⟩

end Sys2Proof.Laws

namespace Sys2Proof
open Sys2Proof.Machine Sys2Proof.Laws

/-- Settles O5: a step leaves its device behind the close gate, and any device behind the gate is close-safe. That the close state
acts at once, where R287 allows 100 µs, is the model's choice (log entry 5). -/
theorem everyStepLeavesCloseSafe : Obligations.EveryStepLeavesCloseSafe := by
  unfold Obligations.EveryStepLeavesCloseSafe
  intro s s' hstep
  obtain ⟨s₀, d, hput⟩ := step_put s
  have hs' : { s₀ with dev := d.closeGate } = s' := by
    rw [hput, put_eq] at hstep
    exact Host.Outcome.next.inj hstep
  subst hs'
  exact closeSafe_closeGate d

/-- Settles O6: host power is off after reset. -/
theorem resetIsCloseSafe : Obligations.ResetIsCloseSafe := closeSafe_of_hostOff rfl

/-- Settles O7: the causes are a sum of bits with each at its place, and CLOSE_STATUS adds bit 31 above them. -/
theorem closeStatusShowsCauses : Obligations.CloseStatusShowsCauses := by
  unfold Obligations.CloseStatusShowsCauses
  intro d
  have hlt := causesNow_lt d
  refine ⟨fun p hp => ?pair, bitOf_causesNow d (by decide), bitOf_causesNow d (by decide), hlt,
    fun i hi => fbit_closeWord_cause hlt (by omega), fbit_closeWord_state hlt, fld_closeWord_reserved hlt⟩
  case pair =>
    rw [bitOf_causesNow d (by omega)]
    exact if_pos hp

/-- Settles O8: the gate writes CLOSE_STATUS and forces PHASE, bits 3:0 of SOL_STATUS, of the channels that drive. That it acts after
every command is the model's choice (log entry 5). -/
theorem closeGateFrame : Obligations.CloseGateFrame := by
  unfold Obligations.CloseGateFrame
  refine fun d => ⟨closeGate_regsOnly d, closeGate_of_hostOff, fun a hc hs => closeGate_rd_of_ne hc hs, ?above, ?kept⟩
  case above =>
    intro n hn
    rcases closeGate_solStatus_cases d hn with h | h <;> rw [h]
    exact fld_forcedStatus_above d n
  case kept =>
    rintro n hn (hc | he)
    · exact closeGate_solStatus_of_no_cause hc n
    · rcases closeGate_solStatus_cases d hn with h | h <;> rw [h]
      exact if_neg (Bool.eq_false_iff.mp he)

/-- Settles O9: the rows of R265, with the supply (R30) and EN of LS_CTRL as the first. -/
theorem loadSwitchFirstRow : Obligations.LoadSwitchFirstRow := by
  unfold Obligations.LoadSwitchFirstRow
  intro d n
  have hoff : (!d.hostOn || !d.bit (Reg.LS_CTRL n) 31 || d.lsTripped n) = true ↔
      (d.hostOn = false ∨ d.bit (Reg.LS_CTRL n) 31 = false) ∨ d.bit (Reg.LS_STATUS n) 30 = true
        ∨ d.bit (Reg.LS_STATUS n) 21 = true ∨ d.bit (Reg.LS_STATUS n) 20 = true := by
    rw [Bool.or_eq_true, Bool.or_eq_true, Bool.not_eq_true', Bool.not_eq_true', lsTripped_iff]
  rw [Dev.lsOn, if_congr hoff rfl rfl, ite_or, if_congr (forcing_iff d (lsDie n)) rfl rfl]
  rfl

/-- Settles O10: the supply (R30) and the mode, then protection, then the rows of R265 that a load switch has too. -/
theorem digitalOutputFirstRow : Obligations.DigitalOutputFirstRow := by
  unfold Obligations.DigitalOutputFirstRow
  intro d n
  rw [dioLevel_eq_ite, Dev.dioAsked, if_congr (forcing_iff d (dioDie n)) rfl rfl]
  rfl

end Sys2Proof
end

section
/-! Engines between instructions: what an engine's own writes leave alone, when an instruction is issued (R393, R397, R406, R407, R420),
and general registers (R390). -/
namespace Sys2Proof.Laws
open Sys2Proof.Machine

/-! ## General registers -/

theorem gr_zero (d : Dev) (e : Nat) : d.gr e 0 = 0 := rfl

theorem setGr_zero (d : Dev) (e : Nat) (w : Word) : d.setGr e 0 w = d := rfl

theorem setGr_eq_greg (d : Dev) (e n : Nat) (w : Word) : d.setGr e n w = { d with greg := (d.setGr e n w).greg } := by
  unfold Dev.setGr
  split <;> rfl

theorem gr_setGr_same (d : Dev) (e : Nat) {n : Nat} (w : Word) (hn : n ≠ 0) : (d.setGr e n w).gr e n = w := by
  rw [Dev.gr, Dev.setGr, if_neg hn, if_neg hn]
  exact get_set_same _ _ _ _

/-- Registers of all engines lie apart in the store, 32 to an engine. -/
theorem gr_setGr_ne (d : Dev) {e n x k : Nat} (w : Word) (hn : n < 32) (hk : k < 32) (h : x ≠ e ∨ k ≠ n) :
    (d.setGr e n w).gr x k = d.gr x k := by
  unfold Dev.gr Dev.setGr
  split
  · rfl
  · split
    · rfl
    · exact get_set_ne _ _ _ _ _ (by omega)

/-! ## What an engine's own writes leave of the registers and of the engines -/

@[simp] theorem setEngine_regs (d : Dev) (e : Nat) (x : Eng) : (d.setEngine e x).regs = d.regs := rfl
@[simp] theorem setPc_regs (d : Dev) (e a : Nat) : (d.setPc e a).regs = d.regs := rfl
@[simp] theorem putLane_regs (d : Dev) (e r i : Nat) (w : Word) : (d.putLane e r i w).regs = d.regs := rfl

@[simp] theorem setGr_regs (d : Dev) (e n : Nat) (w : Word) : (d.setGr e n w).regs = d.regs := by
  rw [setGr_eq_greg]

@[simp] theorem setGp_regs (d : Dev) (e n v : Nat) : (d.setGp e n v).regs = d.regs := by
  rw [Dev.setGp, setGr_regs, setGr_regs]

@[simp] theorem setLanes_regs (d : Dev) (e vd mask : Nat) (f : Nat → Word) : (d.setLanes e vd mask f).regs = d.regs := by
  refine List.foldlRecOn (List.range 16) _ (motive := fun (x : Dev) => x.regs = d.regs) rfl fun x hx i _ => ?_
  split <;> exact hx

@[simp] theorem engine_setEngine_same (d : Dev) (e : Nat) (x : Eng) : (d.setEngine e x).engine e = x := get_set_same _ _ _ _

theorem pcOf_setPc (d : Dev) (e a : Nat) : (d.setPc e a).pcOf e = a % 2 ^ 32 := by
  rw [Dev.pcOf, Dev.setPc, engine_setEngine_same]

/-- The clock gate opens in the engine's record alone. -/
theorem ungate_eq_eng (d : Dev) (e : Nat) : d.ungate e = { d with eng := (d.ungate e).eng } := by
  unfold Dev.ungate
  split <;> rfl

@[simp] theorem ungate_regs (d : Dev) (e : Nat) : (d.ungate e).regs = d.regs := by rw [ungate_eq_eng]

@[simp] theorem pcOf_ungate (d : Dev) (e : Nat) : (d.ungate e).pcOf e = d.pcOf e := by
  unfold Dev.ungate
  split
  · rw [Dev.pcOf, engine_setEngine_same]
    rfl
  · rfl

/-- Whether a master is frozen stands in registers. -/
theorem frozen_congr {d x : Dev} (h : x.regs = d.regs) (m : Nat) : x.frozen m = d.frozen m := by
  simp only [Dev.frozen, Dev.bit, Dev.rd, h]

/-! ## Issue -/

section
variable {s : State} {t e : Nat}

theorem instr_of_not_issues (k : Dev → Dev) (h : (s.dev.advance t).issues e = false) :
    s.instr t e k = .next (after s (s.dev.advance t)) := by
  simp [State.instr, Dev.issue, h, after]

/-- An engine that issues: its program counter decides between the instruction, fault 3 and a freeze. -/
theorem instr_eq_ite (k : Dev → Dev) (h : (s.dev.advance t).issues e = true) :
    let d := atIssue s t e
    s.instr t e k = .next (after s (
      if inStore (d.pcOf e) = true then k d
      else if d.mayRead e (d.pcOf e) = true then d.fault e 3 (d.pcOf e)
      else d.violate e (d.pcOf e) false)) := by
  rw [State.instr, put_eq, Dev.issue, if_pos h]
  rfl

theorem instr_of_issues (k : Dev → Dev) (h : Issues s t e) : s.instr t e k = .next (after s (k (atIssue s t e))) := by
  obtain ⟨hissues, hstore⟩ := h
  have hpc : inStore ((atIssue s t e).pcOf e) = true := (congrArg inStore (pcOf_ungate _ e)).trans hstore
  rw [instr_eq_ite k hissues, if_pos hpc]

theorem instr_eq_of_issues (h : Issues s t e) {k : Dev → Dev} {x : Dev} (hx : k (atIssue s t e) = x) :
    s.instr t e k = .next (after s x) := by
  rw [instr_of_issues k h, hx]

/-- An engine that issues is not frozen. -/
theorem frozen_of_issues (h : Issues s t e) : (atIssue s t e).frozen e = false := by
  obtain ⟨hissues, -⟩ := h
  rw [atIssue, frozen_congr (ungate_regs _ e)]
  simp only [Dev.issues, Dev.runs, Dev.alive, Bool.and_eq_true, Bool.not_eq_true'] at hissues
  tauto

/-- The next instruction follows where the effect left the registers, and so the freezes, alone. -/
theorem nextPc_of_issues (h : Issues s t e) {x : Dev} (hx : x.regs = (atIssue s t e).regs) : x.nextPc e = follow x e := by
  have hfrozen : x.frozen e = false := (frozen_congr hx e).trans (frozen_of_issues h)
  simp [Dev.nextPc, hfrozen, follow]

/-- An instruction whose effect leaves the device registers alone goes on to the next one. -/
theorem step_of_issues (h : Issues s t e) {k : Dev → Dev} (hk : ∀ d, (k d).regs = d.regs) :
    s.instr t e (fun d => (k d).nextPc e) = .next (after s (follow (k (atIssue s t e)) e)) := by
  rw [instr_of_issues _ h, nextPc_of_issues h (hk _)]

theorem result_of_issues (h : Issues s t e) (rd : Nat) (w : Word) :
    (atIssue s t e).result e rd w = follow ((atIssue s t e).setGr e rd w) e :=
  nextPc_of_issues h (setGr_regs _ e rd w)

end

end Sys2Proof.Laws

namespace Sys2Proof
open Sys2Proof.Machine Sys2Proof.Laws

/-- Settles O24: g0 is not in the store, and the registers of all engines lie apart in it. -/
theorem generalRegisterWrite : Obligations.GeneralRegisterWrite := by
  unfold Obligations.GeneralRegisterWrite
  intro d e n w hn
  refine ⟨gr_zero d, gr_setGr_same d e w, ?_, fun x k hk h => gr_setGr_ne d w hn hk h, setGr_eq_greg d e n w⟩
  rintro rfl
  exact setGr_zero d e w

/-- Settles O21: `Dev.issue` by cases. -/
theorem instructionIssue : Obligations.InstructionIssue := by
  unfold Obligations.InstructionIssue
  intro s t e k
  dsimp only
  split
  case isTrue h => exact instr_of_not_issues k h
  case isFalse h =>
    rw [instr_eq_ite k ((Bool.not_eq_false _).mp h)]
    split
    · rfl
    · split <;> rfl

end Sys2Proof
end

section
/-! Instructions of the formats A, K and B (R390, R397, R398): what each format leaves where an engine issues, and the functions of words
and pairs that give the results. -/
namespace Sys2Proof.Laws
open Sys2Proof.Machine

/-! ## The formats -/

section
variable {s : State} {t e : Nat}

theorem alu_of_issues (h : Issues s t e) (rd rs1 rs2 : BitVec 5) {f : Word → Word → Word} {w : Word}
    (hw : f ((atIssue s t e).gr e rs1.toNat) ((atIssue s t e).gr e rs2.toNat) = w) :
    s.alu t e rd rs1 rs2 f = .next (after s (follow ((atIssue s t e).setGr e rd.toNat w) e)) := by
  rw [State.alu, instr_of_issues _ h, result_of_issues h, hw]

theorem aluK_of_issues (h : Issues s t e) (rd rs1 : BitVec 5) {imm : Word} {f : Word → Word → Word} {w : Word}
    (hw : f ((atIssue s t e).gr e rs1.toNat) imm = w) :
    s.aluK t e rd rs1 imm f = .next (after s (follow ((atIssue s t e).setGr e rd.toNat w) e)) := by
  rw [State.aluK, instr_of_issues _ h, result_of_issues h, hw]

theorem branch_of_issues (h : Issues s t e) (rs1 rs2 : BitVec 5) (off : BitVec 16) {f : Word → Word → Bool} {taken : Bool}
    (hf : f ((atIssue s t e).gr e rs1.toNat) ((atIssue s t e).gr e rs2.toNat) = taken) :
    s.branch t e rs1 rs2 off f = .next (after s (
      if taken = true then (atIssue s t e).setPc e ((atIssue s t e).target e off.toInt) else follow (atIssue s t e) e)) := by
  rw [State.branch, instr_of_issues _ h, nextPc_of_issues h rfl, hf]

/-- An odd register where a pair is required is an illegal instruction. -/
theorem withEven_eq_ite {w : Nat} (d : Dev) (e : Nat) (rs : List (BitVec w)) (k : Dev → Dev) :
    d.withEven e (rs.map BitVec.toNat) k
      = if rs.all (fun r => r.toNat % 2 == 0) = true then k d else d.fault e 1 (d.pcOf e) := by
  rw [Dev.withEven, List.all_map]
  rfl

/-- An instruction with registers that must be even, whose effect leaves the device registers alone. -/
theorem even_of_issues {w : Nat} (h : Issues s t e) (rs : List (BitVec w)) {k : Dev → Dev} (hk : ∀ d, (k d).regs = d.regs) :
    s.instr t e (fun d => d.withEven e (rs.map BitVec.toNat) (fun d => (k d).nextPc e)) = .next (after s (
      if rs.all (fun r => r.toNat % 2 == 0) = true then follow (k (atIssue s t e)) e
      else (atIssue s t e).fault e 1 ((atIssue s t e).pcOf e))) := by
  rw [instr_of_issues _ h, withEven_eq_ite, nextPc_of_issues h (hk _)]

theorem aluD_of_issues (h : Issues s t e) (rd rs1 rs2 : BitVec 5) (f : Nat → Nat → Nat) :
    let d := atIssue s t e
    s.aluD t e rd rs1 rs2 f = .next (after s (
      if [rd, rs1, rs2].all (fun r => r.toNat % 2 == 0) = true then
        follow (d.setGp e rd.toNat (f (d.gp e rs1.toNat) (d.gp e rs2.toNat))) e
      else d.fault e 1 (d.pcOf e))) :=
  even_of_issues h [rd, rs1, rs2] (fun d => setGp_regs d e _ _)

theorem cmpD_of_issues (h : Issues s t e) (rd rs1 rs2 : BitVec 5) {f : Nat → Nat → Bool} {w : Word}
    (hw : truth (f ((atIssue s t e).gp e rs1.toNat) ((atIssue s t e).gp e rs2.toNat)) = w) :
    let d := atIssue s t e
    s.cmpD t e rd rs1 rs2 f = .next (after s (
      if [rs1, rs2].all (fun r => r.toNat % 2 == 0) = true then follow (d.setGr e rd.toNat w) e else d.fault e 1 (d.pcOf e))) := by
  subst hw
  exact even_of_issues h [rs1, rs2] (fun d => setGr_regs d e _ _)

end

/-! ## Results of words -/

theorem truth_eq_ite (b : Bool) : truth b = if b = true then 1 else 0 := by cases b <;> rfl

theorem truth_decide (p : Prop) [Decidable p] : truth (decide p) = if p then 1 else 0 := by
  rw [truth_eq_ite]
  exact if_congr decide_eq_true_iff rfl rfl

theorem minS_eq_ite (a b : Word) : minS a b = if b.toInt < a.toInt then b else a := if_congr BitVec.slt_iff_toInt_lt rfl rfl
theorem maxS_eq_ite (a b : Word) : maxS a b = if a.toInt < b.toInt then b else a := if_congr BitVec.slt_iff_toInt_lt rfl rfl
theorem minU_eq_ite (a b : Word) : minU a b = if b.toNat < a.toNat then b else a := if_congr BitVec.ult_iff_lt rfl rfl
theorem maxU_eq_ite (a b : Word) : maxU a b = if a.toNat < b.toNat then b else a := if_congr BitVec.ult_iff_lt rfl rfl

theorem quoS_eq_ite (a b : Word) : quoS a b = if b = 0 then 0xFFFFFFFF else quoS a b := by
  split
  case isTrue h => rw [quoS, if_pos h]
  case isFalse h => rfl

theorem modS_eq_ite (a b : Word) : modS a b = if b = 0 then a else modS a b := by
  split
  case isTrue h => rw [modS, if_pos h]
  case isFalse h => rfl

theorem quoU_eq_ite (a b : Word) : quoU a b = if b = 0 then 0xFFFFFFFF else a / b := by
  rw [quoU, ← BitVec.toNat_udiv, wd_of_toNat]

theorem modU_eq_ite (a b : Word) : modU a b = if b = 0 then a else a % b := by
  rw [modU, ← BitVec.toNat_umod, wd_of_toNat]

theorem shiftBy_eq_ite (kind : Nat) (a : Word) (n : Nat) :
    shiftBy kind a n = if kind = 0 then a <<< n else if kind = 1 then a >>> n else a.sshiftRight n := by
  match kind with
  | 0 => rfl
  | 1 => rfl
  | k + 2 => simp [shiftBy]

theorem bne_eq_decide (a b : Word) : (a != b) = decide (a ≠ b) := by rw [bne, beq_eq_decide, decide_not]

theorem not_slt_eq_decide (a b : Word) : (!a.slt b) = decide (b.toInt ≤ a.toInt) := by
  rw [BitVec.slt, ← decide_not]
  exact decide_eq_decide.mpr Int.not_lt

theorem not_ult_eq_decide (a b : Word) : (!a.ult b) = decide (b.toNat ≤ a.toNat) := by
  rw [BitVec.ult, ← decide_not]
  exact decide_eq_decide.mpr Nat.not_lt

theorem toInt_simm (imm : BitVec 16) : (simm imm).toInt = imm.toInt := BitVec.toInt_signExtend_of_le (by decide)

end Sys2Proof.Laws

namespace Sys2Proof
open Sys2Proof.Machine Sys2Proof.Laws

/-- Settles O25: formats A and K give the function of their operands, and SHK alone has an encoding that is not listed (log entry 27). -/
theorem integerResults : Obligations.IntegerResults := by
  unfold Obligations.IntegerResults
  intro s t e rd rs1 rs2 imm h d a b gives
  refine ⟨?add, ?sub, ?and, ?or, ?xor, ?shl, ?shr, ?sar, ?clt, ?cltu, ?mul, ?mulhi, ?mulhiu, ?quo, ?quou, ?mod, ?modu,
    ?min, ?max, ?minu, ?maxu, ?lzc, ?bitc, ?addk, ?andk, ?ork, ?xork, ?cltk, ?hik, ?shk⟩
  case add | sub | and | or | xor | shl | shr | sar | mul | mulhi | mulhiu => exact alu_of_issues h rd rs1 rs2 rfl
  case clt => exact alu_of_issues (f := fun a b => truth (a.slt b)) h rd rs1 rs2 (truth_decide _)
  case cltu => exact alu_of_issues (f := fun a b => truth (a.ult b)) h rd rs1 rs2 (truth_decide _)
  case quo => exact alu_of_issues h rd rs1 rs2 (quoS_eq_ite a b)
  case quou => exact alu_of_issues h rd rs1 rs2 (quoU_eq_ite a b)
  case mod => exact alu_of_issues h rd rs1 rs2 (modS_eq_ite a b)
  case modu => exact alu_of_issues h rd rs1 rs2 (modU_eq_ite a b)
  case min => exact alu_of_issues h rd rs1 rs2 (minS_eq_ite a b)
  case max => exact alu_of_issues h rd rs1 rs2 (maxS_eq_ite a b)
  case minu => exact alu_of_issues h rd rs1 rs2 (minU_eq_ite a b)
  case maxu => exact alu_of_issues h rd rs1 rs2 (maxU_eq_ite a b)
  case lzc => exact alu_of_issues (f := fun a _ => leadZeros a) h rd rs1 0 rfl
  case bitc => exact alu_of_issues (f := fun a _ => setBits a) h rd rs1 0 rfl
  case addk | andk | ork | xork => exact aluK_of_issues h rd rs1 rfl
  case cltk =>
    have hlt : truth (a.slt (simm imm)) = if a.toInt < imm.toInt then 1 else 0 := by rw [← toInt_simm]; exact truth_decide _
    exact aluK_of_issues (f := fun a b => truth (a.slt b)) h rd rs1 hlt
  case hik => exact aluK_of_issues (f := fun _ i => i <<< 16) h rd 0 rfl
  case shk =>
    have heffect := instr_of_issues (fun d => if bitsOf imm.toNat 6 5 = 3 then d.illegal e
      else d.result e rd.toNat (shiftBy (bitsOf imm.toNat 6 5) (d.gr e rs1.toNat) (bitsOf imm.toNat 4 0))) h
    rw [result_of_issues h, shiftBy_eq_ite] at heffect
    exact heffect

/-- Settles O26: a pair instruction is judged by its registers before its effect, a float instruction is of format A. That
g0 may stand for an even register of a pair is the model's (log entry 27). -/
theorem pairAndFloatResults : Obligations.PairAndFloatResults := by
  unfold Obligations.PairAndFloatResults
  intro s t e rd rs1 rs2 h d a b pa pb even gives pair
  refine ⟨?addD, ?subD, ?cltuD, ?cltD, ?fadd, ?fsub, ?fmul, ?fdiv, ?fsqrt, ?fmin, ?fmax, ?fclt, ?fceq, ?ffromi, ?ftoi, ?fang, ?fsct⟩
  case addD => exact aluD_of_issues h rd rs1 rs2 (fun a b => (a + b) % 2 ^ 64)
  case subD => exact aluD_of_issues h rd rs1 rs2 (fun a b => (a + 2 ^ 64 - b) % 2 ^ 64)
  case cltuD => exact cmpD_of_issues (f := fun a b => decide (a < b)) h rd rs1 rs2 (truth_decide _)
  case cltD => exact cmpD_of_issues (f := fun a b => decide (sx 64 a < sx 64 b)) h rd rs1 rs2 (truth_decide _)
  case fadd | fsub | fmul | fdiv | fmin | fmax | fang => exact alu_of_issues h rd rs1 rs2 rfl
  case fclt => exact alu_of_issues (f := fun a b => truth (fLt a b)) h rd rs1 rs2 (truth_eq_ite _)
  case fceq => exact alu_of_issues (f := fun a b => truth (fEq a b)) h rd rs1 rs2 (truth_eq_ite _)
  case fsqrt => exact alu_of_issues (f := fun a _ => fSqrt a) h rd rs1 0 rfl
  case ffromi => exact alu_of_issues (f := fun a _ => fOfWord a) h rd rs1 0 rfl
  case ftoi => exact alu_of_issues (f := fun a _ => fToWord a) h rd rs1 0 rfl
  case fsct =>
    exact even_of_issues (k := fun d => (d.setGr e rd.toNat (fSin (d.gr e rs1.toNat))).setGr e (rd.toNat + 1) (fCos (d.gr e rs1.toNat)))
      h [rd] (fun d => (setGr_regs _ e _ _).trans (setGr_regs d e _ _))

/-- Settles O27: a branch is format A with a condition for its function, and a jump writes the program counter itself. -/
theorem branchesAndJumps : Obligations.BranchesAndJumps := by
  unfold Obligations.BranchesAndJumps
  intro s t e rd rs1 rs2 off imm far h d a b pc dest long near branches
  refine ⟨?eq, ?ne, ?lt, ?ge, ?ltu, ?geu, ?go, ?call, ?gor, ?callr⟩
  case eq => exact branch_of_issues h rs1 rs2 off (beq_eq_decide a b)
  case ne => exact branch_of_issues h rs1 rs2 off (bne_eq_decide a b)
  case lt | ltu => exact branch_of_issues h rs1 rs2 off rfl
  case ge => exact branch_of_issues (f := fun a b => !a.slt b) h rs1 rs2 off (not_slt_eq_decide a b)
  case geu => exact branch_of_issues (f := fun a b => !a.ult b) h rs1 rs2 off (not_ult_eq_decide a b)
  case go | call | gor | callr => exact instr_of_issues _ h

end Sys2Proof
end

section
/-! Vector instructions that name no memory (R398, R400): masked operations, compares and reductions. -/
namespace Sys2Proof.Laws
open Sys2Proof.Machine

section
variable {s : State} {t e : Nat}

theorem vop_of_issues (h : Issues s t e) (vd vs1 vs2 : BitVec 4) (m : BitVec 5) {f : Word → Word → Word} {g : Nat → Word}
    (hg : ∀ i, f ((atIssue s t e).lane e vs1.toNat i) ((atIssue s t e).lane e vs2.toNat i) = g i) :
    s.vop t e vd vs1 vs2 m f = .next (after s (follow
      ((atIssue s t e).setLanes e vd.toNat ((atIssue s t e).laneMask e m.toNat) g) e)) := by
  rw [← funext hg]
  exact step_of_issues h (fun d => setLanes_regs d e _ _ _)

theorem vcmp_of_issues (h : Issues s t e) (g : BitVec 5) (vs1 vs2 : BitVec 4) {f : Word → Word → Bool} {p : Nat → Bool}
    (hp : ∀ i, f ((atIssue s t e).lane e vs1.toNat i) ((atIssue s t e).lane e vs2.toNat i) = p i) :
    s.vcmp t e g vs1 vs2 f = .next (after s (follow ((atIssue s t e).setGr e g.toNat (lanesWhere p)) e)) := by
  rw [← funext hp]
  exact step_of_issues h (fun d => setGr_regs d e _ _)

theorem vred_of_issues (h : Issues s t e) (g : BitVec 5) (vs1 : BitVec 4) {f f' : Word → Word → Word} (hf : ∀ a b, f a b = f' a b) :
    let v1 (i : Nat) : Word := (atIssue s t e).lane e vs1.toNat i
    s.vred t e g vs1 f = .next (after s (follow
      ((atIssue s t e).setGr e g.toNat ((List.range 15).foldl (fun w i => f' w (v1 (i + 1))) (v1 0))) e)) := by
  have hff : f = f' := funext fun a => funext (hf a)
  rw [← hff]
  exact step_of_issues h (fun d => setGr_regs d e _ _)

/-- VINS and VEXT with a lane that they list. -/
theorem listedLane_of_issues (h : Issues s t e) {lane : BitVec 5} (hlane : lane.toNat ≤ 15) {k : Dev → Dev}
    (hk : ∀ d, (k d).regs = d.regs) :
    s.instr t e (fun d => if 15 < lane.toNat then d.illegal e else (k d).nextPc e)
      = .next (after s (follow (k (atIssue s t e)) e)) := by
  simp only [if_neg (Nat.not_lt.mpr hlane)]
  exact step_of_issues h hk

end

end Sys2Proof.Laws

namespace Sys2Proof
open Sys2Proof.Machine Sys2Proof.Laws

/-- Settles O59, format by format. That VFSCT writes vd and vd + 1, and that VSEL with mask field 0 takes vs2, are the model's (log
entry 28), as is the bound on the lane of VINS and VEXT (log entry 27). -/
theorem vectorInstructionsComplete : Obligations.VectorInstructionsComplete := by
  unfold Obligations.VectorInstructionsComplete
  intro s t e vd vs1 vs2 m g lane h d v1 v2 mask lanes all gives folds shift
  refine ⟨?add, ?sub, ?mul, ?mulhi, ?and, ?or, ?xor, ?shl, ?shr, ?sar, ?min, ?max, ?minu, ?maxu, ?fadd, ?fsub, ?fmul, ?fdiv, ?fma,
    ?fmin, ?fmax, ?fsqrt, ?ffromi, ?ftoi, ?fsct, ?sel, ?ceq, ?clt, ?cltu, ?fclt, ?fceq, ?bcast, ?ins, ?ext, ?redadd, ?redmin, ?redmax,
    ?redminu, ?redmaxu⟩
  case add | sub | mul | mulhi | and | or | xor | shl | shr | sar | fadd | fsub | fmul | fdiv | fmin | fmax =>
    exact vop_of_issues h vd vs1 vs2 m (fun _ => rfl)
  case min => exact vop_of_issues h vd vs1 vs2 m (fun i => minS_eq_ite (v1 i) (v2 i))
  case max => exact vop_of_issues h vd vs1 vs2 m (fun i => maxS_eq_ite (v1 i) (v2 i))
  case minu => exact vop_of_issues h vd vs1 vs2 m (fun i => minU_eq_ite (v1 i) (v2 i))
  case maxu => exact vop_of_issues h vd vs1 vs2 m (fun i => maxU_eq_ite (v1 i) (v2 i))
  case fma =>
    exact step_of_issues (k := fun d => d.setLanes e vd.toNat (d.laneMask e m.toNat)
      (fun i => fMulAdd (d.lane e vs1.toNat i) (d.lane e vs2.toNat i) (d.lane e vd.toNat i))) h (fun d => setLanes_regs d e _ _ _)
  case fsqrt => exact vop_of_issues (f := fun a _ => fSqrt a) h vd vs1 0 m (fun _ => rfl)
  case ffromi => exact vop_of_issues (f := fun a _ => fOfWord a) h vd vs1 0 m (fun _ => rfl)
  case ftoi => exact vop_of_issues (f := fun a _ => fToWord a) h vd vs1 0 m (fun _ => rfl)
  case fsct =>
    intro heven
    have heffect := even_of_issues (k := fun d =>
      (d.setLanes e vd.toNat (d.laneMask e m.toNat) (fun i => fSin (d.lane e vs1.toNat i))).setLanes e (vd.toNat + 1)
        (d.laneMask e m.toNat) (fun i => fCos (d.lane e vs1.toNat i)))
      h [vd] (fun d => (setLanes_regs _ e _ _ _).trans (setLanes_regs d e _ _ _))
    rwa [if_pos (by simp [heven])] at heffect
  case sel =>
    exact step_of_issues (k := fun d => d.setLanes e vd.toNat 0xFFFF
      (fun i => if bitOf (d.gr e m.toNat).toNat i then d.lane e vs1.toNat i else d.lane e vs2.toNat i))
      h (fun d => setLanes_regs d e _ _ _)
  case ceq => exact vcmp_of_issues (f := (· == ·)) h g vs1 vs2 (fun i => beq_eq_decide (v1 i) (v2 i))
  case clt | cltu | fclt | fceq => exact vcmp_of_issues h g vs1 vs2 (fun _ => rfl)
  case bcast =>
    exact step_of_issues (k := fun d => d.setLanes e vd.toNat 0xFFFF (fun _ => d.gr e g.toNat)) h (fun d => setLanes_regs d e _ _ _)
  case ins =>
    intro hlane
    exact listedLane_of_issues (k := fun d => d.putLane e vd.toNat lane.toNat (d.gr e g.toNat)) h hlane (fun d => putLane_regs d e _ _ _)
  case ext =>
    intro hlane
    exact listedLane_of_issues (k := fun d => d.setGr e g.toNat (d.lane e vs1.toNat lane.toNat)) h hlane (fun d => setGr_regs d e _ _)
  case redadd => exact (vred_of_issues (f := (· + ·)) (f' := (· + ·)) h g vs1 (fun _ _ => rfl) :)
  case redmin => exact (vred_of_issues h g vs1 minS_eq_ite :)
  case redmax => exact (vred_of_issues h g vs1 maxS_eq_ite :)
  case redminu => exact (vred_of_issues h g vs1 minU_eq_ite :)
  case redmaxu => exact (vred_of_issues h g vs1 maxU_eq_ite :)

end Sys2Proof
end

section
/-! Loads, atomic operations and vector accesses of engines (R391 to R401, R420): the order in which each is judged, with its freezes and
results spelled out. -/
namespace Sys2Proof.Laws
open Sys2Proof.Machine

/-! ## Accesses outside the windows (R420) -/

theorem violate_read (d : Dev) (e a : Nat) : d.violate e a false = d.freeze e 1 a (d.pcOf e) := rfl

theorem violate_write (d : Dev) (e a : Nat) : d.violate e a true = (d.louvreWrong e a).freeze e 2 a (d.pcOf e) := rfl

/-! ## Scalar accesses -/

theorem loadInto_eq_ite (d : Dev) (e rd a n : Nat) (f : Nat → Word) :
    d.loadInto e rd a n f =
      if a % n ≠ 0 then d.fault e 2 a
      else if d.mayRead e a = false then d.freeze e 1 a (d.pcOf e)
      else if isRegAddr a = true then
        (d.regRead e (a - a % 4)).1.result e rd (f ((d.regRead e (a - a % 4)).2.toNat / 2 ^ (8 * (a % 4)) % 2 ^ (8 * n)))
      else (d.seen e a).result e rd (f (d.engLd e a n)) := by
  simp only [Dev.loadInto, Dev.load, Bool.not_eq_true', violate_read]
  rfl

theorem withEven_singleton (d : Dev) (e r : Nat) (k : Dev → Dev) :
    d.withEven e [r] k = if r % 2 ≠ 0 then d.fault e 1 (d.pcOf e) else k d := by
  by_cases hr : r % 2 = 0 <;> simp [Dev.withEven, pairReg, Dev.illegal, hr]

theorem loadPair_eq_ite (d : Dev) (e rd a : Nat) :
    d.loadPair e rd a =
      if a % 8 ≠ 0 then d.fault e 2 a
      else if d.mayRead e a = false then d.freeze e 1 a (d.pcOf e)
      else if isRegAddr a = true then
        ((d.regReadPair e a).1.setGp e rd ((d.regReadPair e a).2.1.toNat + 2 ^ 32 * (d.regReadPair e a).2.2.toNat)).nextPc e
      else ((d.seen e a).setGp e rd (d.engLd e a 8)).nextPc e := by
  simp only [Dev.loadPair, Bool.not_eq_true', violate_read]

theorem atomic_eq_ite (d : Dev) (e rd a : Nat) (f : Word → Option Word) {new : Option Word} (hf : f (wd (d.engLd e a 4)) = new) :
    d.atomic e rd a f =
      if a % 4 ≠ 0 then d.fault e 2 a
      else if isRegAddr a = true then d.fault e 5 a
      else if d.mayRead e a = false then d.freeze e 1 a (d.pcOf e)
      else if d.mayWrite e a 4 = false then (d.louvreWrong e a).freeze e 2 a (d.pcOf e)
      else (match new with
        | some w => (d.seen e a).engSt e a 4 w.toNat
        | none => d.seen e a).result e rd (wd (d.engLd e a 4)) := by
  cases new <;> simp only [Dev.atomic, Bool.not_eq_true', violate_read, violate_write, hf]

/-! ## Vector accesses -/

theorem loadBlock_eq_ite (d : Dev) (e vd a : Nat) :
    d.loadBlock e vd a =
      if a % 64 ≠ 0 ∨ isRegAddr a = true then d.fault e 4 a
      else if d.mayRead e a = false then d.freeze e 1 a (d.pcOf e)
      else ((d.seen e a).setLanes e vd 0xFFFF (fun i => wd (d.engLd e (a + 4 * i) 4))).nextPc e := by
  simp only [Dev.loadBlock, Bool.not_eq_true', Bool.or_eq_true, decide_eq_true_eq, violate_read]

theorem storeBlock_eq_ite (d : Dev) (e vd a : Nat) :
    d.storeBlock e vd a =
      if a % 64 ≠ 0 ∨ isRegAddr a = true then d.fault e 4 a
      else if d.mayWrite e a 64 = false then (d.louvreWrong e a).freeze e 2 a (d.pcOf e)
      else ((List.range 16).foldl (fun (x : Dev) i => x.engSt e (a + 4 * i) 4 (d.lane e vd i).toNat) d).nextPc e := by
  simp only [Dev.storeBlock, Bool.not_eq_true', Bool.or_eq_true, decide_eq_true_eq, violate_write]

theorem loadLanes_eq_match (d : Dev) (e vd : Nat) (f : Nat → Nat) :
    d.loadLanes e vd f =
      match ((List.range 16).map f).find? (fun a => a % 4 != 0 || decide (0x10000 ≤ a)) with
      | some a => d.fault e 4 a
      | none => (d.setLanes e vd 0xFFFF (fun i => wd (d.engLd e (f i) 4))).nextPc e := rfl

theorem storeLanes_eq_match (d : Dev) (e vd : Nat) (f : Nat → Nat) :
    d.storeLanes e vd f =
      match ((List.range 16).map f).find? (fun a => a % 4 != 0 || decide (0x10000 ≤ a)) with
      | some a => d.fault e 4 a
      | none =>
        match ((List.range 16).map f).find? (fun a => !d.mayWrite e a 4) with
        | some a => (d.louvreWrong e a).freeze e 2 a (d.pcOf e)
        | none => ((List.range 16).foldl (fun (x : Dev) i => x.engSt e (f i) 4 (d.laneStored e vd f (f i))) d.bump).nextPc e := rfl

end Sys2Proof.Laws

namespace Sys2Proof
open Sys2Proof.Machine Sys2Proof.Laws

/-- Settles O28. The order of the checks is the model's (log entry 21), as are the bytes that a load takes of a device register's word
(log entry 20) and what it sees of the device's own areas (log entries 11, 31). -/
theorem scalarLoads : Obligations.ScalarLoads := by
  unfold Obligations.ScalarLoads
  intro s t e rd rs1 imm h d a loads
  have hload (n : Nat) (f : Nat → Word) := instr_eq_of_issues
    (k := fun d => d.loadInto e rd.toNat (d.based e rs1.toNat imm) n f) h (loadInto_eq_ite d e rd.toNat a n f)
  refine ⟨hload 4 _, hload 2 _, hload 2 _, hload 1 _, hload 1 _, ?ldd⟩
  case ldd =>
    have hldd := instr_eq_of_issues
      (k := fun d => d.withEven e [rd.toNat] (fun d => d.loadPair e rd.toNat (d.based e rs1.toNat imm))) h
      (withEven_singleton d e rd.toNat _)
    rwa [loadPair_eq_ite] at hldd

/-- Settles O31. The order of the checks is the model's (log entry 21). -/
theorem atomicOperations : Obligations.AtomicOperations := by
  unfold Obligations.AtomicOperations
  intro s t e rd rs1 rs2 h d a b old swaps
  have hatomic (f : Dev → Word → Option Word) (new : Option Word) (hf : f d old = new) := instr_eq_of_issues
    (k := fun d => d.atomic e rd.toNat (d.gr e rs1.toNat).toNat (f d)) h (atomic_eq_ite d e rd.toNat a (f d) hf)
  refine ⟨?add, ?swap, ?min, ?max, ?cas⟩
  case add => exact hatomic (fun d w => some (w + d.gr e rs2.toNat)) (some (old + b)) rfl
  case swap => exact hatomic (fun d _ => some (d.gr e rs2.toNat)) (some b) rfl
  case min =>
    exact hatomic (fun d w => some (minS w (d.gr e rs2.toNat))) (some (if b.toInt < old.toInt then b else old))
      (congrArg some (minS_eq_ite old b))
  case max =>
    exact hatomic (fun d w => some (maxS w (d.gr e rs2.toNat))) (some (if old.toInt < b.toInt then b else old))
      (congrArg some (maxS_eq_ite old b))
  case cas =>
    exact hatomic (fun d w => if w = d.gr e rd.toNat then some (d.gr e rs2.toNat) else none)
      (if old = d.gr e rd.toNat then some b else none) rfl

/-- Settles O33. The order of the checks is the model's (log entry 21), as are FAULT_ADDR at the first offending lane and fault 4 for device
registers before the windows (log entry 29). -/
theorem vectorMemory : Obligations.VectorMemory := by
  unfold Obligations.VectorMemory
  intro s t e vd aux4 base aux imm h d block stride gather bad reads
  refine ⟨?vld, ?vst, ?vlds, ?vgath, ?vsts⟩
  case vld =>
    exact instr_eq_of_issues (k := fun d => d.loadBlock e vd.toNat (d.blockAddr e base.toNat imm)) h (loadBlock_eq_ite d e vd.toNat block)
  case vst =>
    exact instr_eq_of_issues (k := fun d => d.storeBlock e vd.toNat (d.blockAddr e base.toNat imm)) h (storeBlock_eq_ite d e vd.toNat block)
  case vlds =>
    refine instr_eq_of_issues
      (k := fun d => d.loadLanes e vd.toNat (fun i => d.laneAddr e base.toNat imm (wd i * d.gr e aux.toNat))) h ?_
    exact loadLanes_eq_match d e vd.toNat stride
  case vgath =>
    refine instr_eq_of_issues
      (k := fun d => d.loadLanes e vd.toNat (fun i => d.laneAddr e base.toNat imm (d.lane e aux4.toNat i))) h ?_
    exact loadLanes_eq_match d e vd.toNat gather
  case vsts =>
    refine instr_eq_of_issues
      (k := fun d => d.storeLanes e vd.toNat (fun i => d.laneAddr e base.toNat imm (wd i * d.gr e aux.toNat))) h ?_
    exact storeLanes_eq_match d e vd.toNat stride

end Sys2Proof
end

section
/-! Queue and Latch primitives, interrupt enable, return, sleep, synchronisation and breakpoint (R402, R406 to R408, R418). -/
namespace Sys2Proof.Laws
open Sys2Proof.Machine

theorem withEven_pair (d : Dev) (e ra rb : Nat) (k : Dev → Dev) :
    d.withEven e [ra, rb] k = if (!(ra % 2 == 0 && rb % 2 == 0)) = true then d.fault e 1 (d.pcOf e) else k d := by
  have hall : [ra, rb].all pairReg = (ra % 2 == 0 && rb % 2 == 0) := by simp [pairReg]
  rw [Dev.withEven, hall]
  cases (ra % 2 == 0 && rb % 2 == 0) <;> rfl

/-- A Latch primitive is judged at each register that it writes, then at LAT_RESULT (log entry 30). -/
theorem latAccess_eq_match (d : Dev) (e : Nat) (ws : List Nat) (k : Dev → Dev) :
    d.latAccess e ws k =
      match ws.find? (fun a => !d.mayWrite e a 4) with
      | some a => (d.louvreWrong e a).freeze e 2 a (d.pcOf e)
      | none => if d.mayRead e Reg.LAT_RESULT = true then k d else d.freeze e 1 Reg.LAT_RESULT (d.pcOf e) := rfl

end Sys2Proof.Laws

namespace Sys2Proof
open Sys2Proof.Machine Sys2Proof.Laws

/-- Settles O34. That the staged registers go back where the primitive's own command froze the engine is the model's (log entry 23), as is
the Latch primitives' need of granted windows (log entry 30). -/
theorem primitives : Obligations.Primitives := by
  unfold Obligations.Primitives
  intro s t e ga gb h d odd illegal staged named result latch
  refine ⟨?qput, ?qrep, ?qwd, ?latr, ?latc⟩
  case qput =>
    exact instr_eq_of_issues (k := fun d => d.withEven e [ga.toNat, gb.toNat] (fun d => d.qput e t ga.toNat gb.toNat)) h
      (withEven_pair d e ga.toNat gb.toNat _)
  case qrep =>
    exact instr_eq_of_issues (k := fun d => d.withEven e [ga.toNat, gb.toNat] (fun d => d.qrep e t ga.toNat gb.toNat)) h
      (withEven_pair d e ga.toNat gb.toNat _)
  case qwd => exact instr_of_issues (fun d => d.qwd e t ga.toNat) h
  case latr =>
    have hlatr := instr_eq_of_issues
      (k := fun d => d.withEven e [ga.toNat, gb.toNat] (fun d => d.latr e t ga.toNat gb.toNat)) h (withEven_pair d e ga.toNat gb.toNat _)
    rw [Dev.latr, latAccess_eq_match] at hlatr
    exact hlatr
  case latc => exact instr_eq_of_issues (k := fun d => d.latc e ga.toNat) h (latAccess_eq_match d e _ _)

/-- Settles O35. That SYNC only moves on and that BRK is always fault 6 are the model's (log entry 32). -/
theorem interruptAndSleep : Obligations.InterruptAndSleep := by
  unfold Obligations.InterruptAndSleep
  intro s t e h d sleep
  refine ⟨?ien, ?idis, ?iret, ?wait, ?fdone, ?sync, ?brk⟩
  case ien | idis | iret | brk => exact instr_of_issues _ h
  case wait => exact instr_of_issues (fun d => d.wait e) h
  case fdone => exact instr_of_issues (fun d => (d.frmDone e).wait e) h
  case sync => exact step_of_issues (k := id) h (fun _ => rfl)

end Sys2Proof
end

section
/-! Faults, interrupts, the read shadows and reset (R391, R392, R405, R406, R408): the registers of an engine's own, what a vector entry
writes of them, and that the record of a fault changes none. -/
namespace Sys2Proof.Laws
open Sys2Proof.Machine

/-! ## Registers of which each master has its own copy -/

/-- The register at `a` is one of which each master has its own copy. -/
abbrev OwnReg (a : Nat) : Prop := (regRow a).map RegRow.bank = some .master

theorem bankKey_of_ownReg {a : Nat} (ha : OwnReg a) (m : Nat) : bankKey m a = regKey (m + 1) a := by
  obtain ⟨r, hrow, hbank⟩ := Option.map_eq_some_iff.mp ha
  rw [bankKey, hrow]
  dsimp only
  rw [hbank]

theorem bankKey_ne {a b : Nat} (ha : OwnReg a) (hb : OwnReg b) (hne : b ≠ a) (m : Nat) : bankKey m b ≠ bankKey m a := by
  rw [bankKey_of_ownReg ha, bankKey_of_ownReg hb, regKey, regKey]
  omega

@[simp] theorem rdM_wrM_same (d : Dev) (m a : Nat) (w : Word) : (d.wrM m a w).rdM m a = w := rd_wr_same d (bankKey m a) w

theorem rdM_wrM_ne (d : Dev) {m a b : Nat} (w : Word) (ha : OwnReg a) (hb : OwnReg b) (hne : b ≠ a) :
    (d.wrM m a w).rdM m b = d.rdM m b := rd_wr_ne d _ _ w (bankKey_ne ha hb hne m)

theorem rdM_setBitM_ne (d : Dev) {m a b : Nat} (i : Nat) (v : Bool) (ha : OwnReg a) (hb : OwnReg b) (hne : b ≠ a) :
    (d.setBitM m a i v).rdM m b = d.rdM m b := rdM_wrM_ne d _ ha hb hne

theorem bitM_setBitM_ne (d : Dev) (m a : Nat) {i j : Nat} (v : Bool) (hi : i < 32) (hj : j ≠ i) :
    (d.setBitM m a i v).bitM m a j = d.bitM m a j := bit_setBit_ne d (bankKey m a) i j v hi hj

theorem rd_congr {d x : Dev} (h : x.regs = d.regs) (a : Nat) : x.rd a = d.rd a := by
  simp only [Dev.rd, h]

theorem rdM_congr {d x : Dev} (h : x.regs = d.regs) (m a : Nat) : x.rdM m a = d.rdM m a :=
  rd_congr h (bankKey m a)

theorem pcOf_congr {d x : Dev} (h : x.eng = d.eng) (e : Nat) : x.pcOf e = d.pcOf e := by
  simp only [Dev.pcOf, Dev.engine, h]

theorem pcOf_setBitM (d : Dev) (m a i : Nat) (v : Bool) (e : Nat) : (d.setBitM m a i v).pcOf e = d.pcOf e :=
  pcOf_congr (wr_eng d _ _) e

theorem fM_setFM_same (d : Dev) (m a : Nat) {hi lo : Nat} (v : Nat) (h : lo ≤ hi) (h32 : hi < 32) :
    (d.setFM m a hi lo v).fM m a hi lo = v % 2 ^ (hi + 1 - lo) := f_setF_same d (bankKey m a) hi lo v h h32

/-! ## Entry at a place of the vector table -/

/-- The registers that an entry leaves: EPC written, HANDLER set and IE cleared. -/
theorem vector_regs (d : Dev) (e off : Nat) :
    (d.vector e off).regs
      = (((d.wrM e Reg.EPC (wd (d.pcOf e))).setBitM e Reg.ENG_STATUS 1 true).setBitM e Reg.ENG_CTRL 16 false).regs := by
  unfold Dev.vector
  exact setPc_regs _ _ _

theorem rdM_vector_ne (d : Dev) (e off : Nat) {a : Nat} (ha : OwnReg a) (hepc : a ≠ Reg.EPC) (hstatus : a ≠ Reg.ENG_STATUS)
    (hctrl : a ≠ Reg.ENG_CTRL) : (d.vector e off).rdM e a = d.rdM e a := by
  rw [rdM_congr (vector_regs d e off), rdM_setBitM_ne _ _ _ (by decide) ha hctrl, rdM_setBitM_ne _ _ _ (by decide) ha hstatus,
    rdM_wrM_ne _ _ (by decide) ha hepc]

theorem rdM_vector_epc (d : Dev) (e off : Nat) : (d.vector e off).rdM e Reg.EPC = wd (d.pcOf e) := by
  rw [rdM_congr (vector_regs d e off), rdM_setBitM_ne _ _ _ (by decide) (by decide) (by decide),
    rdM_setBitM_ne _ _ _ (by decide) (by decide) (by decide), rdM_wrM_same]

theorem handler_vector (d : Dev) (e off : Nat) : (d.vector e off).handler e = true := by
  rw [Dev.handler, Dev.bitM, rdM_congr (vector_regs d e off), rdM_setBitM_ne _ _ _ (by decide) (by decide) (by decide)]
  exact bitM_setBitM_same _ e Reg.ENG_STATUS 1 true (by decide)

theorem ie_vector (d : Dev) (e off : Nat) : (d.vector e off).ie e = false := by
  rw [Dev.ie, Dev.bitM, rdM_congr (vector_regs d e off)]
  exact bitM_setBitM_same _ e Reg.ENG_CTRL 16 false (by decide)

theorem pcOf_vector (d : Dev) (e off : Nat) : (d.vector e off).pcOf e = ((d.rdM e Reg.IRQ_BASE).toNat + off) % 2 ^ 32 := by
  have hbase : (d.wrM e Reg.EPC (wd (d.pcOf e))).rdM e Reg.IRQ_BASE = d.rdM e Reg.IRQ_BASE :=
    rdM_wrM_ne d _ (by decide) (by decide) (by decide)
  rw [Dev.vector, pcOf_setPc, hbase]

/-! ## The record of a fault -/

@[simp] theorem event_eng (d : Dev) (origin code : Nat) (ps : List Param) : (d.event origin code ps).eng = d.eng := by
  unfold Dev.event Dev.stageRec
  dsimp only
  split
  · rfl
  · change ((d.incOb Obj.EventsDropped).setBit Reg.REC_STATUS 29 true).eng = d.eng
    rw [setBit_eng]
    exact setOb_eng d _ _

theorem rd_event_ne (d : Dev) (origin code : Nat) (ps : List Param) {a : Nat} (ha : a ≠ Reg.REC_STATUS) :
    (d.event origin code ps).rd a = d.rd a := by
  rcases stageRec_regs d origin code ps 0 with h | h
  · exact rd_congr h a
  · exact (rd_congr h a).trans (rd_setBit_ne d _ _ _ _ ha)

/-- An event limited in its rate is recorded or not; the record's own bookkeeping is the recorder's. -/
theorem eventEvery_cases (d : Dev) (period origin code subject : Nat) (ps : List Param) :
    d.eventEvery period origin code subject ps = d
    ∨ ∃ r, d.eventEvery period origin code subject ps = { d.event origin code ps with rcd := r } := by
  unfold Dev.eventEvery
  dsimp only
  split
  · split
    · exact .inl rfl
    · exact .inr ⟨_, rfl⟩
  · exact .inr ⟨_, rfl⟩

theorem pcOf_eventEvery (d : Dev) (period origin code subject : Nat) (ps : List Param) (e : Nat) :
    (d.eventEvery period origin code subject ps).pcOf e = d.pcOf e := by
  rcases eventEvery_cases d period origin code subject ps with h | ⟨r, h⟩
  · rw [h]
  · rw [h]
    exact pcOf_congr (event_eng d origin code ps) e

/-- A record touches REC_STATUS, of which there is one, and so no register of a master's own. -/
theorem rdM_eventEvery (d : Dev) (period origin code subject : Nat) (ps : List Param) (m : Nat) {a : Nat} (ha : OwnReg a) :
    (d.eventEvery period origin code subject ps).rdM m a = d.rdM m a := by
  have hkey : bankKey m a ≠ Reg.REC_STATUS := by
    rw [bankKey_of_ownReg ha, regKey]
    simp only [Reg.REC_STATUS]
    omega
  rcases eventEvery_cases d period origin code subject ps with h | ⟨r, h⟩
  · rw [h]
  · rw [h]
    exact rd_event_ne d origin code ps hkey

/-! ## Faults -/

theorem rdM_faultRegs_irqBase (d : Dev) (e cause addr : Nat) :
    (d.faultRegs e cause addr).rdM e Reg.IRQ_BASE = d.rdM e Reg.IRQ_BASE := by
  rw [Dev.faultRegs, rdM_wrM_ne _ _ (by decide) (by decide) (by decide), rdM_wrM_ne _ _ (by decide) (by decide) (by decide), Dev.setFM,
    rdM_wrM_ne _ _ (by decide) (by decide) (by decide)]

theorem pcOf_faultRegs (d : Dev) (e cause addr : Nat) : (d.faultRegs e cause addr).pcOf e = d.pcOf e := by
  refine pcOf_congr ?_ e
  rw [Dev.faultRegs, Dev.wrM, Dev.wrM, Dev.setFM, Dev.wrM, wr_eng, wr_eng, wr_eng]

section
variable {d : Dev} {e : Nat} (cause addr : Nat) (h : d.handler e = false)
include h

/-- A fault outside a handler: its registers, the vector entry, FAULT_SEEN and the record 0x3030. -/
theorem fault_of_thread : d.fault e cause addr
    = (((d.faultRegs e cause addr).vector e 0xF0).setBitM e Reg.ENG_STATUS 30 true).eventEvery 1000000000 (dieOf e) 0x3030 e
        [.w e, .h cause, .w (d.pcOf e)] := by
  rw [Dev.fault, if_neg (by rw [h]; exact Bool.false_ne_true)]

theorem rdM_fault_ne {a : Nat} (ha : OwnReg a) (hstatus : a ≠ Reg.ENG_STATUS) :
    (d.fault e cause addr).rdM e a = ((d.faultRegs e cause addr).vector e 0xF0).rdM e a := by
  rw [fault_of_thread cause addr h, rdM_eventEvery _ _ _ _ _ _ _ ha]
  exact rdM_setBitM_ne _ 30 true (by decide) ha hstatus

theorem faultCause_fault (hcause : cause < 16) : (d.fault e cause addr).fM e Reg.FAULT_CAUSE 3 0 = cause := by
  rw [Dev.fM, rdM_fault_ne cause addr h (by decide) (by decide), rdM_vector_ne _ _ _ (by decide) (by decide) (by decide) (by decide),
    Dev.faultRegs, rdM_wrM_ne _ _ (by decide) (by decide) (by decide), rdM_wrM_ne _ _ (by decide) (by decide) (by decide)]
  exact (fM_setFM_same d e Reg.FAULT_CAUSE cause (by decide) (by decide)).trans (Nat.mod_eq_of_lt hcause)

theorem faultAddr_fault : (d.fault e cause addr).rdM e Reg.FAULT_ADDR = wd addr := by
  rw [rdM_fault_ne cause addr h (by decide) (by decide), rdM_vector_ne _ _ _ (by decide) (by decide) (by decide) (by decide),
    Dev.faultRegs, rdM_wrM_ne _ _ (by decide) (by decide) (by decide), rdM_wrM_same]

theorem epc_fault : (d.fault e cause addr).rdM e Reg.EPC = wd (d.pcOf e) := by
  rw [rdM_fault_ne cause addr h (by decide) (by decide), rdM_vector_epc, pcOf_faultRegs]

theorem ie_fault : (d.fault e cause addr).ie e = false := by
  rw [Dev.ie, Dev.bitM, rdM_fault_ne cause addr h (by decide) (by decide)]
  exact ie_vector _ e 0xF0

theorem faultSeen_fault : (d.fault e cause addr).bitM e Reg.ENG_STATUS 30 = true := by
  rw [fault_of_thread cause addr h, Dev.bitM, rdM_eventEvery _ _ _ _ _ _ _ (by decide)]
  exact bitM_setBitM_same _ e Reg.ENG_STATUS 30 true (by decide)

theorem handler_fault : (d.fault e cause addr).handler e = true := by
  rw [fault_of_thread cause addr h, Dev.handler, Dev.bitM, rdM_eventEvery _ _ _ _ _ _ _ (by decide)]
  exact (bitM_setBitM_ne _ e Reg.ENG_STATUS true (by decide) (by decide)).trans (handler_vector _ e 0xF0)

theorem pcOf_fault : (d.fault e cause addr).pcOf e = ((d.rdM e Reg.IRQ_BASE).toNat + 0xF0) % 2 ^ 32 := by
  rw [fault_of_thread cause addr h, pcOf_eventEvery, pcOf_setBitM, pcOf_vector, rdM_faultRegs_irqBase]

end

/-! ## The source of an interrupt -/

/-- The search for the lowest set bit finds it where one of the bits searched is set. -/
theorem lowestBit_of_bit {v : Nat} (n : Nat) {i j : Nat} (hij : i ≤ j) (hjn : j < i + n) (hj : bitOf v j = true) :
    ∃ b, lowestBit v n i = some b ∧ b ≤ j ∧ bitOf v b = true ∧ ∀ k, i ≤ k → k < b → bitOf v k = false := by
  induction n generalizing i with
  | zero => omega
  | succ n ih =>
    by_cases hi : bitOf v i = true
    · exact ⟨i, by rw [lowestBit, if_pos hi], hij, hi, fun k hk hk' => by omega⟩
    · have hne : i ≠ j := fun heq => hi (heq ▸ hj)
      obtain ⟨b, hb, hbj, hset, hlow⟩ := ih (i := i + 1) (by omega) (by omega)
      refine ⟨b, by rw [lowestBit, if_neg hi, hb], hbj, hset, fun k hk hkb => ?_⟩
      rcases Nat.eq_or_lt_of_le hk with rfl | hlt
      · exact Bool.eq_false_iff.mpr hi
      · exact hlow k hlt hkb

theorem irqNow_lt (d : Dev) (e : Nat) : d.irqNow e < 2 ^ 14 := Nat.and_lt_two_pow _ (fld_lt _ 13 0)

/-- The source of an interrupt is the lowest of the 14 that is enabled and pending. -/
theorem irqSource_lowest {d : Dev} {e : Nat} (h : d.irqNow e ≠ 0) :
    d.irqSource e < 14 ∧ bitOf (d.irqNow e) (d.irqSource e) = true ∧ ∀ i, i < d.irqSource e → bitOf (d.irqNow e) i = false := by
  obtain ⟨j, hj⟩ := Nat.exists_testBit_of_ne_zero h
  have hj14 : j < 14 := by
    by_contra hge
    have hlow := Nat.testBit_lt_two_pow (Nat.lt_of_lt_of_le (irqNow_lt d e) (Nat.pow_le_pow_right (by decide) (Nat.not_lt.mp hge)))
    exact Bool.false_ne_true (hlow.symm.trans hj)
  rw [← bitOf_eq_testBit] at hj
  obtain ⟨b, hb, hbj, hset, hlow⟩ := lowestBit_of_bit 14 (Nat.zero_le j) (by omega) hj
  rw [Dev.irqSource, hb, Option.getD_some]
  exact ⟨by omega, hset, fun i hi => hlow i (Nat.zero_le i) hi⟩

theorem irqNow_ungate (d : Dev) (e : Nat) : (d.ungate e).irqNow e = d.irqNow e := by
  unfold Dev.ungate
  split <;> rfl

/-- An interrupt that is due is taken: the clock gate opens and the entry follows. -/
theorem exec_interruptEntry_of_taken {s : State} {t e : Nat} (hruns : (s.dev.advance t).runs e = true)
    (htaken : (s.dev.advance t).irqTaken e = true) :
    exec (.interruptEntry t e) s = .next (after s ((atIssue s t e).irqEntry e)) := by
  change execInterruptEntry t e s = _
  rw [execInterruptEntry, hruns, htaken]
  rfl

/-! ## The read shadows (R391) -/

theorem shadow_setShadow (d : Dev) (m : Nat) (w : Word) : (d.setShadow m w).shadow m = w := by
  unfold Dev.setShadow Dev.shadow
  split
  case isTrue =>
    rw [engine_setEngine_same, Dev.bitM, rdM_congr (setEngine_regs d m _), ← Dev.bitM]
    cases d.bitM m Reg.ENG_STATUS 1 <;> rfl
  case isFalse => exact get_set_same _ _ _ _

/-- GB_CODE_DATA, whose read steps GB_CODE_ADDR, is no half of a 64-bit register. -/
theorem ne_codeData_of_half {a : Nat} (h : halfOf a ≠ 0) : a ≠ Reg.GB_CODE_DATA := by
  rintro rfl
  exact h (by decide)

section
variable {d : Dev} {m a : Nat}
  (hpop : ¬(0x40040040 ≤ regPlace a ∧ regPlace a < 0x40040140 ∧ (regPlace a - 0x40040040) % 32 = 0x14))
  (hopen : openReg (regPlace a) = false)
include hpop hopen

/-- A read of a low word puts the high word into the reader's shadow. -/
theorem regRead_of_low (h : halfOf (regPlace a) = 1) :
    d.regRead m a = (d.setShadow m (d.highView m (regPlace a)), d.regView m (regPlace a)) := by
  have hcode : regPlace a ≠ Reg.GB_CODE_DATA := ne_codeData_of_half (by rw [h]; decide)
  simp [Dev.regRead, hpop, hopen, h, hcode]

theorem regRead_of_high (h : halfOf (regPlace a) = 2) : d.regRead m a = (d, d.shadow m) := by
  have hcode : regPlace a ≠ Reg.GB_CODE_DATA := ne_codeData_of_half (by rw [h]; decide)
  simp [Dev.regRead, hpop, hopen, h, hcode]

end

/-! ## Reset -/

/-- A master's copy of a register resets to what its row says. -/
theorem regReset_regKey (b a : Nat) : regReset (regKey b a) = regReset a := by
  have hmod : regKey b a % 0x100000000 = a % 0x100000000 := Nat.mul_add_mod_self_right b 0x100000000 a
  rw [regReset, regReset, hmod]

theorem rd_reset (a : Nat) : Dev.reset.rd a = regReset a := by rw [Dev.rd, Dev.reset, SMap.get]

theorem rdM_reset (m : Nat) {a : Nat} (ha : OwnReg a) : Dev.reset.rdM m a = regReset a := by
  rw [Dev.rdM, bankKey_of_ownReg ha, rd_reset, regReset_regKey]

end Sys2Proof.Laws

namespace Sys2Proof
open Sys2Proof.Machine Sys2Proof.Laws

/-- Settles O36: the fault's registers are written, then come the vector entry, FAULT_SEEN and the record, and none of them undoes what
another wrote. -/
theorem faultEntry : Obligations.FaultEntry := by
  unfold Obligations.FaultEntry
  intro d e cause addr _ hcause h x
  exact ⟨faultCause_fault cause addr h hcause, faultAddr_fault cause addr h, epc_fault cause addr h, handler_fault cause addr h,
    ie_fault cause addr h, faultSeen_fault cause addr h, pcOf_fault cause addr h⟩

/-- Settles O37: the source is the lowest that the search finds, and its entry is at 16 times its number. -/
theorem interruptTaken : Obligations.InterruptTaken := by
  unfold Obligations.InterruptTaken
  intro s t e _ d hruns hie hhandler hirq
  have htaken : d.irqTaken e = true := by simp [Dev.irqTaken, hie, hhandler, hirq]
  have hirq' : (d.ungate e).irqNow e ≠ 0 := (irqNow_ungate d e).symm ▸ hirq
  obtain ⟨hlt, hset, hlow⟩ := irqSource_lowest hirq'
  rw [irqNow_ungate] at hset hlow
  refine ⟨(d.ungate e).irqEntry e, (d.ungate e).irqSource e, exec_interruptEntry_of_taken hruns htaken, hlt, hset, hlow, ?epc,
    handler_vector _ e _, ie_vector _ e _, ?pc⟩
  case epc => exact (rdM_vector_epc (d.ungate e) e _).trans (congrArg wd (pcOf_ungate d e))
  case pc => exact (pcOf_vector (d.ungate e) e _).trans (by rw [rdM_congr (ungate_regs d e)])

/-- Settles O16: outside the pop port and the open values a read changes the reader's shadow at most. -/
theorem sixtyFourBitReads : Obligations.SixtyFourBitReads := by
  unfold Obligations.SixtyFourBitReads
  intro d m a hpop hopen
  refine ⟨fun hlow => ?low, regRead_of_high hpop hopen⟩
  case low =>
    rw [regRead_of_low hpop hopen hlow]
    exact ⟨rfl, shadow_setShadow d m _⟩

/-- Settles O38. Off (log entry 4) and the zeros of general and vector registers (log entry 2) are the model's. -/
theorem resetRegisters : Obligations.ResetRegisters := by
  unfold Obligations.ResetRegisters
  refine ⟨rfl, rfl, fun e _ => ⟨?tmrLo, ?tmrHi, ?irqBase, ?ie, ?irqEn⟩, fun e n => ?gr, fun e r i => rfl⟩
  case tmrLo => exact (rdM_reset e (by decide)).trans (by decide)
  case tmrHi => exact (rdM_reset e (by decide)).trans (by decide)
  case irqBase => exact (rdM_reset e (by decide)).trans (by decide)
  case ie => exact (congrArg (fbit · 16) (rdM_reset e (by decide))).trans (by decide)
  case irqEn => exact (rdM_reset e (by decide)).trans (by decide)
  case gr =>
    rw [Dev.gr]
    exact ite_self 0

end Sys2Proof
end

section
/-! Deadbolt (R420 to R425): what the records, counters and discarded queue entries that go with a freeze or a release leave alone, and
what a freeze itself comes to. -/
namespace Sys2Proof.Laws
open Sys2Proof.Machine

/-! ## What goes with a freeze leaves engines, time, the Deadbolt log and the Deadbolt registers alone -/

/-- The part of the device that a freeze is judged by: registers and states of the engines, time, the Deadbolt log, and the registers
from DB_FROZEN(0) to DB_COUNT. -/
structure DeadboltView where
  greg : SMap Word
  vreg : SMap Word
  eng : SMap Eng
  time : FtUnit
  sec : Security
  regs : Fin 34 → Word

def deadboltView (d : Dev) : DeadboltView :=
  { greg := d.greg, vreg := d.vreg, eng := d.eng, time := d.time, sec := d.sec, regs := fun i => d.rd (0x400E0000 + 4 * i) }

/-- A write of a register outside the Deadbolt block. -/
theorem deadboltView_wr (d : Dev) {a : Nat} (w : Word) (h : a < 0x400E0000 ∨ 0x400E0088 ≤ a) :
    deadboltView (d.wr a w) = deadboltView d := by
  have hrd : ∀ i : Fin 34, (d.wr a w).rd (0x400E0000 + 4 * i) = d.rd (0x400E0000 + 4 * i) := fun i => rd_wr_ne d a _ w (by omega)
  simp only [deadboltView, hrd, wr_greg, wr_vreg, wr_eng, wr_time, wr_sec]

theorem deadboltView_setBit (d : Dev) {a : Nat} (i : Nat) (b : Bool) (h : a < 0x400E0000 ∨ 0x400E0088 ≤ a) :
    deadboltView (d.setBit a i b) = deadboltView d := deadboltView_wr d _ h

/-- A master's own registers lie behind keys of their own. -/
theorem deadboltView_wrM (d : Dev) (m : Nat) {a : Nat} (w : Word) (ha : OwnReg a) : deadboltView (d.wrM m a w) = deadboltView d :=
  deadboltView_wr d w (by rw [bankKey_of_ownReg ha, regKey]; omega)

theorem deadboltView_setFM (d : Dev) (m : Nat) {a : Nat} (hi lo v : Nat) (ha : OwnReg a) :
    deadboltView (d.setFM m a hi lo v) = deadboltView d := deadboltView_wrM d m _ ha

theorem deadboltView_setBitM (d : Dev) (m : Nat) {a : Nat} (i : Nat) (b : Bool) (ha : OwnReg a) :
    deadboltView (d.setBitM m a i b) = deadboltView d := deadboltView_wrM d m _ ha

theorem deadboltView_foldl {α : Type} (f : Dev → α → Dev) (hf : ∀ d a, deadboltView (f d a) = deadboltView d) (l : List α)
    (d : Dev) : deadboltView (l.foldl f d) = deadboltView d :=
  List.foldlRecOn l f (motive := fun x => deadboltView x = deadboltView d) rfl fun x hx a _ => (hf x a).trans hx

theorem deadboltView_rcd (d : Dev) (x : Recorder) : deadboltView { d with rcd := x } = deadboltView d := rfl
theorem deadboltView_shq (d : Dev) (x : Shutter) : deadboltView { d with shq := x } = deadboltView d := rfl
@[simp] theorem deadboltView_incOb (d : Dev) (k : Nat) : deadboltView (d.incOb k) = deadboltView d := rfl
@[simp] theorem deadboltView_setQueue (d : Dev) (q : List QEntry) : deadboltView (d.setQueue q) = deadboltView d := rfl
@[simp] theorem deadboltView_recCount (d : Dev) (e s off : Nat) : deadboltView (d.recCount e s off) = deadboltView d := rfl
@[simp] theorem deadboltView_sillOff (d : Dev) (out fireFt : Nat) : deadboltView (d.sillOff out fireFt) = deadboltView d := rfl

/-- A record touches the recorder, and REC_STATUS where it is dropped. -/
@[simp] theorem deadboltView_event (d : Dev) (origin code : Nat) (ps : List Param) :
    deadboltView (d.event origin code ps) = deadboltView d := by
  have hdropped : deadboltView ((d.incOb Obj.EventsDropped).setBit Reg.REC_STATUS 29 true) = deadboltView d :=
    deadboltView_setBit _ 29 true (by decide)
  unfold Dev.event Dev.stageRec
  extract_lets
  split
  · rfl
  · exact (deadboltView_rcd _ _).trans hdropped

/-! ### Frames to nodes -/

@[simp] theorem deadboltView_ibPush (d : Dev) (f : TxFrame) : deadboltView (d.ibPush f).1 = deadboltView d := by
  have hrefuse : ∀ (r : List Nat) (ps : List Param),
      deadboltView (Dev.event { d with ib := { d.ib with refused := r } } 0 0x7009 ps) = deadboltView d :=
    fun r ps => deadboltView_event _ 0 0x7009 ps
  unfold Dev.ibPush
  dsimp only
  split
  · split
    · split
      · rfl
      · exact hrefuse _ _
    · rfl
  · split
    · rfl
    · split
      · rfl
      · split
        · rfl
        · exact hrefuse _ _

@[simp] theorem deadboltView_cancelNow (d : Dev) (out handle : Nat) (iv : Option Nat) :
    deadboltView (d.cancelNow out handle iv) = deadboltView d := by
  unfold Dev.cancelNow Dev.nodeFrame
  cases iv <;> dsimp only <;> split
  case none.isFalse | some.isFalse => exact deadboltView_ibPush _ _
  all_goals rfl

@[simp] theorem deadboltView_cancelIfNode (d : Dev) (q : QEntry) : deadboltView (d.cancelIfNode q) = deadboltView d := by
  unfold Dev.cancelIfNode
  split
  · unfold Dev.nodeCancel
    dsimp only
    split
    · rfl
    · exact deadboltView_cancelNow _ _ _ _
  · rfl

@[simp] theorem deadboltView_uncommand (d : Dev) (q : QEntry) : deadboltView (d.uncommand q) = deadboltView d := by
  unfold Dev.uncommand
  dsimp only
  split
  · rw [deadboltView_sillOff, deadboltView_cancelIfNode]
  · exact deadboltView_cancelIfNode d q

/-! ### Entries that leave a queue -/

@[simp] theorem deadboltView_aaWrite (d : Dev) (e word epoch account fireFt : Nat) (delay : Int) (level late : Nat) :
    deadboltView (d.aaWrite e word epoch account fireFt delay level late) = deadboltView d := by
  unfold Dev.aaWrite
  extract_lets wr rd dropped counted rejected flagged _ g stored moved _ turned _ closed
  have hflagged : deadboltView flagged = deadboltView d :=
    (deadboltView_setBitM rejected e 0 true (by decide)).trans (deadboltView_setFM counted e 31 16 _ (by decide))
  have hmoved : deadboltView moved = deadboltView d := deadboltView_wrM stored e (wd g) (by decide)
  have hturned : deadboltView turned = deadboltView d := by
    unfold turned
    split
    · exact (deadboltView_shq _ _).trans hmoved
    · exact hmoved
  split
  · exact (deadboltView_shq _ _).trans hflagged
  · split
    · exact hturned
    · exact (deadboltView_event closed _ _ _).trans ((deadboltView_shq _ _).trans hturned)

@[simp] theorem deadboltView_fixOnPending (d : Dev) (e s : Nat) : deadboltView (d.fixOnPending e s) = deadboltView d := by
  unfold Dev.fixOnPending
  dsimp only
  split <;> rfl

@[simp] theorem deadboltView_takeEntries (d : Dev) (e : Nat) (p : QEntry → Bool) : deadboltView (d.takeEntries e p) = deadboltView d := by
  have hslot : ∀ (x : Dev) (q : QEntry), deadboltView (x.fixOnPending e q.slot) = deadboltView x :=
    fun x q => deadboltView_fixOnPending x e q.slot
  unfold Dev.takeEntries
  extract_lets gone kept
  have hkept : deadboltView kept = deadboltView d := deadboltView_setQueue d _
  rw [deadboltView_foldl _ hslot, hkept]

@[simp] theorem deadboltView_fixQueueStatus (d : Dev) (e : Nat) : deadboltView (d.fixQueueStatus e) = deadboltView d := by
  unfold Dev.fixQueueStatus
  extract_lets fill low filled flagged full raised lowered was _ noted
  have hflagged : deadboltView flagged = deadboltView d :=
    (deadboltView_setBitM filled e 16 low (by decide)).trans (deadboltView_setFM d e 10 0 fill (by decide))
  have hfull : deadboltView full = deadboltView d := by
    unfold full
    split
    · exact (deadboltView_setBitM flagged e 17 true (by decide)).trans hflagged
    · exact hflagged
  have hnoted : deadboltView noted = deadboltView d := (deadboltView_shq lowered _).trans hfull
  split
  · exact (deadboltView_event noted _ _ _).trans hnoted
  · exact hnoted

@[simp] theorem deadboltView_removeEntries (d : Dev) (e : Nat) (p : QEntry → Bool) :
    deadboltView (d.removeEntries e p) = deadboltView d := by
  unfold Dev.removeEntries
  extract_lets left
  split
  · exact (deadboltView_fixQueueStatus left e).trans (deadboltView_takeEntries d e p)
  · exact deadboltView_takeEntries d e p

@[simp] theorem deadboltView_dropEntry (d : Dev) (q : QEntry) (cause : Nat) : deadboltView (d.dropEntry q cause) = deadboltView d := by
  have hevent : ∀ x : Dev, deadboltView (x.dropEvent q cause) = deadboltView x := fun x => deadboltView_aaWrite x _ _ _ _ _ _ _ _
  unfold Dev.dropEntry
  rw [deadboltView_removeEntries, hevent, deadboltView_incOb]
  exact deadboltView_recCount d _ _ _

@[simp] theorem deadboltView_freezeEntry (d : Dev) (q : QEntry) : deadboltView (d.freezeEntry q) = deadboltView d := by
  unfold Dev.freezeEntry
  split
  · rfl
  · rw [deadboltView_dropEntry, deadboltView_uncommand]

/-- The kick block has a register of its own behind the Deadbolt registers that count and show freezes (R422). -/
@[simp] theorem deadboltView_fixKickBlock (d : Dev) : deadboltView d.fixKickBlock = deadboltView d := by
  unfold Dev.fixKickBlock
  refine deadboltView_foldl _ (fun x die => ?_) _ _
  dsimp only
  split
  · rfl
  · rw [deadboltView_event, deadboltView_setBit _ _ _ (by decide)]

/-! ## Frozen masters -/

theorem frozen_of_engine (d : Dev) {m : Nat} (hm : m < engines) : d.frozen m = d.bit (Reg.DB_FROZEN (m / 32)) (m % 32) := if_pos hm

theorem setFrozen_of_engine (d : Dev) {m : Nat} (b : Bool) (hm : m < engines) :
    d.setFrozen m b = d.setBit (Reg.DB_FROZEN (m / 32)) (m % 32) b := if_pos hm

theorem dbCount_ne_dbFrozen {m : Nat} (hm : m < engines) : Reg.DB_COUNT ≠ Reg.DB_FROZEN (m / 32) := by
  rw [engines] at hm
  simp only [Reg.DB_COUNT, Reg.DB_FROZEN]
  omega

/-- An engine's frozen bit lies among the registers of the view. -/
theorem frozen_of_deadboltView_regs {d x : Dev} {m : Nat} (hm : m < engines) (h : (deadboltView x).regs = (deadboltView d).regs) :
    x.frozen m = d.frozen m := by
  have hword : m / 32 < 34 := by
    rw [engines] at hm
    omega
  have hrd : x.rd (Reg.DB_FROZEN (m / 32)) = d.rd (Reg.DB_FROZEN (m / 32)) := congrFun h ⟨m / 32, hword⟩
  rw [frozen_of_engine x hm, frozen_of_engine d hm, Dev.bit, Dev.bit, hrd]

theorem frozen_setFrozen_same (d : Dev) {m : Nat} (b : Bool) (hm : m < engines) : (d.setFrozen m b).frozen m = b := by
  rw [frozen_of_engine _ hm, setFrozen_of_engine d b hm]
  exact bit_setBit_same d _ _ b (Nat.mod_lt m (by decide))

/-- Every engine has a bit of its own in DB_FROZEN (R436). -/
theorem frozen_setFrozen_ne (d : Dev) {m k : Nat} (b : Bool) (hm : m < engines) (hk : k < engines) (hne : k ≠ m) :
    (d.setFrozen m b).frozen k = d.frozen k := by
  rw [frozen_of_engine _ hk, frozen_of_engine d hk, setFrozen_of_engine d b hm]
  by_cases hword : k / 32 = m / 32
  · rw [hword]
    exact bit_setBit_ne d _ _ _ b (Nat.mod_lt m (by decide)) (by omega)
  · rw [Dev.bit, rd_setBit_ne d _ _ _ b (by simp only [Reg.DB_FROZEN]; omega), Dev.bit]

theorem runs_of_frozen {d : Dev} {e : Nat} (h : d.frozen e = true) : d.runs e = false := by
  simp [Dev.runs, Dev.alive, h]

theorem issues_of_frozen {d : Dev} {e : Nat} (h : d.frozen e = true) : d.issues e = false := by
  rw [Dev.issues, runs_of_frozen h, Bool.false_and]

/-- An interrupt reaches no engine that does not run. -/
theorem exec_interruptEntry_of_not_runs {s : State} {t e : Nat} (h : (s.dev.advance t).runs e = false) :
    exec (.interruptEntry t e) s = .next (after s (s.dev.advance t)) := by
  change execInterruptEntry t e s = _
  rw [execInterruptEntry, h]
  rfl

/-! ## A freeze and its release -/

/-- The frozen bit and the count of a freeze. -/
def markFrozen (d : Dev) (m : Nat) : Dev := (d.setFrozen m true).wr Reg.DB_COUNT ((d.setFrozen m true).rd Reg.DB_COUNT + 1)

/-- The bit and the count are registers. -/
theorem deadboltView_markFrozen (d : Dev) {m : Nat} (hm : m < engines) :
    deadboltView (markFrozen d m) = { deadboltView d with regs := (deadboltView (markFrozen d m)).regs } := by
  rw [markFrozen, setFrozen_of_engine d true hm]
  rfl

theorem frozen_markFrozen (d : Dev) (m : Nat) {k : Nat} (hk : k < engines) : (markFrozen d m).frozen k = (d.setFrozen m true).frozen k := by
  rw [frozen_of_engine _ hk, frozen_of_engine _ hk, Dev.bit, markFrozen, rd_wr_ne _ _ _ _ (dbCount_ne_dbFrozen hk).symm, Dev.bit]

theorem dbCount_markFrozen (d : Dev) {m : Nat} (hm : m < engines) :
    (markFrozen d m).rd Reg.DB_COUNT = d.rd Reg.DB_COUNT + 1 := by
  rw [markFrozen, rd_wr_same, setFrozen_of_engine d true hm, rd_setBit_ne d _ _ _ true (dbCount_ne_dbFrozen hm)]

/-- The log with the entry of a freeze in front (R425). -/
def DeadboltView.logged (v : DeadboltView) (m cause addr epc : Nat) (kick : Bool) : DeadboltView :=
  let x : DbEntry :=
    { ft := v.time.ft / 2 ^ 32, master := m, cause := cause, flags := if kick then 2 else 0, addr := addr, epc := epc, releaseFt := 0 }
  { v with sec := { v.sec with log := (x :: v.sec.log).take 64 } }

theorem deadboltView_logFreeze (d : Dev) (m cause addr epc : Nat) (kick : Bool) :
    deadboltView (d.logFreeze m cause addr epc kick) = (deadboltView d).logged m cause addr epc kick := rfl

/-- All of a freeze that the view shows: the bit, the count and the log entry. -/
theorem deadboltView_freeze {d : Dev} {m : Nat} (cause addr epc : Nat) (h : d.frozen m = false) :
    ∃ kick, deadboltView (d.freeze m cause addr epc) = (deadboltView (markFrozen d m)).logged m cause addr epc kick := by
  unfold Dev.freeze
  rw [if_neg (by rw [h]; exact Bool.false_ne_true)]
  extract_lets frozen counted causes byCause byOrigin dropped logged recorded
  have hcounted : deadboltView byOrigin = deadboltView (markFrozen d m) := rfl
  have hdropped : deadboltView dropped = deadboltView (markFrozen d m) := by
    unfold dropped
    split
    · rw [deadboltView_foldl _ deadboltView_freezeEntry, hcounted]
    · exact hcounted
  refine ⟨dropped.blocksKick m, ?_⟩
  calc deadboltView recorded.fixKickBlock
    _ = deadboltView logged := by rw [deadboltView_fixKickBlock, deadboltView_event]
    _ = (deadboltView (markFrozen d m)).logged m cause addr epc _ := by rw [deadboltView_logFreeze, hdropped]

theorem frozen_release (d : Dev) {m : Nat} (means : Nat) (hm : m < engines) : (d.release m means).frozen m = false := by
  unfold Dev.release
  split
  case isTrue =>
    extract_lets thawed log _ logged
    calc ((logged.event 1 0x8002 [.w m, .h means]).fixKickBlock).frozen m
      _ = logged.frozen m := frozen_of_deadboltView_regs hm (by rw [deadboltView_fixKickBlock, deadboltView_event])
      _ = thawed.frozen m := frozen_congr rfl m
      _ = false := frozen_setFrozen_same d false hm
  case isFalse h => exact Bool.eq_false_iff.mpr h

end Sys2Proof.Laws

namespace Sys2Proof
open Sys2Proof.Machine Sys2Proof.Laws

/-- Settles O22: a frozen engine does not run, and both instructions and interrupts ask for that. -/
theorem frozenEngineDoesNothing : Obligations.FrozenEngineDoesNothing := by
  unfold Obligations.FrozenEngineDoesNothing
  intro s t e h
  have hissues : (s.dev.advance t).issues e = false := issues_of_frozen h
  exact ⟨hissues, exec_interruptEntry_of_not_runs (runs_of_frozen h), fun k => instr_of_not_issues k hissues⟩

/-- Settles O23: bit, count and log entry are all that a freeze changes of the view; what else goes with it lies outside. -/
theorem freezeTakesEffect : Obligations.FreezeTakesEffect := by
  unfold Obligations.FreezeTakesEffect
  intro d m cause addr epc means hm hfree x
  obtain ⟨kick, hview⟩ := deadboltView_freeze cause addr epc hfree
  have hmark := deadboltView_markFrozen d hm
  have hregs : (deadboltView x).regs = (deadboltView (markFrozen d m)).regs := (congrArg DeadboltView.regs hview).trans rfl
  have hbits : ∀ k, k < engines → x.frozen k = (d.setFrozen m true).frozen k := fun k hk =>
    (frozen_of_deadboltView_regs hk hregs).trans (frozen_markFrozen d m hk)
  have hfrozen : x.frozen m = true := (hbits m hm).trans (frozen_setFrozen_same d true hm)
  have hcount : x.rd Reg.DB_COUNT = (markFrozen d m).rd Reg.DB_COUNT := congrFun hregs 33
  have hsec : x.sec = ((deadboltView (markFrozen d m)).logged m cause addr epc kick).sec := congrArg DeadboltView.sec hview
  refine ⟨hfrozen, issues_of_frozen hfrozen, fun k hk hne => (hbits k hk).trans (frozen_setFrozen_ne d true hm hk hne), ?greg, ?vreg,
    ?eng, hcount.trans (dbCount_markFrozen d hm), ?log, frozen_release x means hm⟩
  case greg => exact (congrArg DeadboltView.greg hview).trans (congrArg DeadboltView.greg hmark)
  case vreg => exact (congrArg DeadboltView.vreg hview).trans (congrArg DeadboltView.vreg hmark)
  case eng => exact (congrArg DeadboltView.eng hview).trans (congrArg DeadboltView.eng hmark)
  case log =>
    rw [hsec]
    exact ⟨_, rfl, congrArg (fun v => v.time.ft / 2 ^ 32) hmark, rfl, rfl, rfl, rfl, rfl⟩

end Sys2Proof
end

section
/-! Event parameters, the records of firmware and the bins of a histogram (R471, R472, R475). -/
namespace Sys2Proof.Laws
open Sys2Proof.Machine

/-! ## Parameters of a record -/

theorem placeParams_of_fits {p : Param} {room : Nat} (ps : List Param) (h : p.size ≤ room) :
    placeParams (p :: ps) room
      = (leBytes p.val p.size ++ (placeParams ps (room - p.size)).1, (placeParams ps (room - p.size)).2) := by
  rw [placeParams, if_pos h]

theorem placeParams_of_not_fits {p : Param} {room : Nat} (ps : List Param) (h : room < p.size) :
    placeParams (p :: ps) room = ([], true) := by
  rw [placeParams, if_neg (Nat.not_le.mpr h)]

/-- Three U32 parameters fill a record's 12 bytes exactly, so none is omitted. -/
theorem placeParams_three_words (a b c : Nat) :
    placeParams [.w a, .w b, .w c] 12 = (leBytes a 4 ++ leBytes b 4 ++ leBytes c 4, false) := by
  simp [placeParams, Param.size, Param.val]

theorem eventRecord_three_words (d : Dev) (origin code a b c : Nat) :
    d.eventRecord origin code [.w a, .w b, .w c] 0
      = { code := code, flags := 0, origin := origin, params := leBytes a 4 ++ leBytes b 4 ++ leBytes c 4
          ft := d.now, cycles := d.porch.powerCycles, opSeconds := d.opSeconds } := by
  simp [Dev.eventRecord, placeParams_three_words, b2n]

/-! ## Records of firmware -/

/-- Where the ring has room and its agent is not frozen, an event appends its one record. -/
theorem event_staged_of_room {d : Dev} (origin code : Nat) (ps : List Param) (hroom : d.rcd.staged.length < stagingRoom)
    (hagent : d.bit Reg.DB_FROZEN_DEV 12 = false) :
    (d.event origin code ps).rcd.staged = d.rcd.staged ++ [d.eventRecord origin code ps 0] := by
  simp [Dev.event, Dev.stageRec, hroom, hagent]

theorem evtCode_of_reserved (d : Dev) (m : Nat) {code : Nat} (h : code < 0xD000) : d.evtCode m code = d.reject m Reg.EVT_CODE :=
  if_pos h

/-- CFG_REJECT of the recorder answers a rejected EVT_CODE (R8, R472); all masters share it. -/
theorem reject_evtCode_sets_recStatus (d : Dev) (m : Nat) : (d.reject m Reg.EVT_CODE).bit Reg.REC_STATUS 31 = true := by
  have hkey : bankKey m Reg.REC_STATUS = Reg.REC_STATUS := rfl
  have hbit : (d.reject m Reg.EVT_CODE).bitM m Reg.REC_STATUS 31 = true := reject_sets_cfgReject d m Reg.EVT_CODE
  rwa [Dev.bitM, Dev.rdM, hkey] at hbit

theorem evtCode_of_policy (d : Dev) (m : Nat) {code : Nat} (h : 0xD000 ≤ code) :
    d.evtCode m code = d.event (if m < engines then dieOf m else 1) code
      [.w (d.rdM m (Reg.EVT_P 0)).toNat, .w (d.rdM m (Reg.EVT_P 1)).toNat, .w (d.rdM m (Reg.EVT_P 2)).toNat] :=
  if_neg (Nat.not_lt.mpr h)

theorem exec_firmwareEvent_of_mayAct {s : State} {t m : Nat} (code : Nat) (h : MayAct (s.dev.advance t) m Reg.EVT_CODE) :
    exec (.firmwareEvent t m code) s = .next (after s ((s.dev.advance t).evtCode m (code % 65536))) := by
  change s.put ((s.dev.advance t).byMaster m Reg.EVT_CODE true (fun d => d.evtCode m (code % 65536))) = _
  rw [byMaster_write_of_mayAct h]
  rfl

/-! ## Bins of a histogram -/

section
variable {lower width x : Int}

theorem histBin_of_below (h : x < lower) : histBin lower width x = 0 := if_pos h

theorem histBin_of_above (hx : lower ≤ x) (h : lower + 30 * width ≤ x) : histBin lower width x = 31 := by
  rw [histBin, if_neg (Int.not_lt.mpr hx), if_pos h]

/-- Bin `k` of the 30 between the outer two holds the `k`-th interval of Width from Lower on. -/
theorem histBin_of_mem {k : Nat} (hw : 0 < width) (hk : 1 ≤ k) (hk30 : k ≤ 30) (hlo : lower + ((k : Int) - 1) * width ≤ x)
    (hhi : x < lower + k * width) : histBin lower width x = k := by
  have hstart : 0 ≤ ((k : Int) - 1) * width := Int.mul_nonneg (by omega) hw.le
  have hend : (k : Int) * width ≤ 30 * width := Int.mul_le_mul_of_nonneg_right (by omega) hw.le
  have hquot : (x - lower) / width = (k : Int) - 1 :=
    Int.le_antisymm (Int.lt_add_one_iff.mp (Int.ediv_lt_of_lt_mul hw (by rw [Int.sub_add_cancel]; omega)))
      (Int.le_ediv_of_mul_le hw (by omega))
  rw [histBin, if_neg (by omega), if_neg (by omega), hquot]
  omega

/-- A value that is neither below nor above lies in one of the 30 intervals. -/
theorem exists_bin_of_between (hw : 0 < width) (hx : lower ≤ x) (h : x < lower + 30 * width) :
    ∃ k : Nat, 1 ≤ k ∧ k ≤ 30 ∧ lower + ((k : Int) - 1) * width ≤ x ∧ x < lower + k * width := by
  have hnonneg : 0 ≤ (x - lower) / width := Int.ediv_nonneg (by omega) hw.le
  have hlt : (x - lower) / width < 30 := Int.ediv_lt_of_lt_mul hw (by omega)
  have hlo : (x - lower) / width * width ≤ x - lower := Int.ediv_mul_le _ hw.ne'
  have hhi : x - lower < ((x - lower) / width + 1) * width := Int.lt_ediv_add_one_mul_self _ hw
  refine ⟨((x - lower) / width).toNat + 1, by omega, by omega, ?_, ?_⟩
  · rw [Nat.cast_add_one, Int.toNat_of_nonneg hnonneg, Int.add_sub_cancel]
    omega
  · rw [Nat.cast_add_one, Int.toNat_of_nonneg hnonneg]
    omega

/-- The one bin of a value, with the range that names it. -/
theorem histBin_cases (hw : 0 < width) (lower x : Int) :
    x < lower ∧ histBin lower width x = 0
    ∨ lower + 30 * width ≤ x ∧ histBin lower width x = 31
    ∨ ∃ k : Nat, 1 ≤ k ∧ k ≤ 30 ∧ lower + ((k : Int) - 1) * width ≤ x ∧ x < lower + k * width ∧ histBin lower width x = k := by
  rcases lt_or_ge x lower with hx | hx
  · exact .inl ⟨hx, histBin_of_below hx⟩
  · rcases lt_or_ge x (lower + 30 * width) with h | h
    · obtain ⟨k, hk, hk30, hlo, hhi⟩ := exists_bin_of_between hw hx h
      exact .inr (.inr ⟨k, hk, hk30, hlo, hhi, histBin_of_mem hw hk hk30 hlo hhi⟩)
    · exact .inr (.inl ⟨h, histBin_of_above hx h⟩)

end

/-- What a bin holds: 0 until it first counts. -/
def binCount (bins : List (Nat × Nat)) (k : Nat) : Nat := ((bins.find? (fun p => p.1 == k)).map (fun p => p.2)).getD 0

/-- An entry as a list of bins keeps it once bin `b` holds `v`. -/
def setBin (b v : Nat) (q : Nat × Nat) : Nat × Nat := if q.1 = b then (q.1, v) else q

theorem setBin_fst (b v : Nat) (q : Nat × Nat) : (setBin b v q).1 = q.1 := by
  unfold setBin
  split <;> rfl

theorem bumpBin_of_counted {bins : List (Nat × Nat)} {b : Nat} {p : Nat × Nat} (h : bins.find? (fun p => p.1 == b) = some p) :
    bumpBin bins b = bins.map (setBin b (min 0xFFFFFFFF (p.2 + 1))) := by
  rw [bumpBin, h]
  rfl

theorem bumpBin_of_uncounted {bins : List (Nat × Nat)} {b : Nat} (h : bins.find? (fun p => p.1 == b) = none) :
    bumpBin bins b = bins ++ [(b, 1)] := by
  rw [bumpBin, h]

/-- Setting a bin moves no entry: the entry found for bin `k` stands where it stood. -/
theorem find?_map_setBin (bins : List (Nat × Nat)) (b v k : Nat) :
    (bins.map (setBin b v)).find? (fun p => p.1 == k) = (bins.find? (fun p => p.1 == k)).map (setBin b v) := by
  simp [List.find?_map, setBin_fst]

/-- Setting a bin to `v` leaves what every other bin holds. -/
theorem binCount_map_setBin_ne (bins : List (Nat × Nat)) {b k : Nat} (v : Nat) (h : k ≠ b) :
    binCount (bins.map (setBin b v)) k = binCount bins k := by
  rw [binCount, find?_map_setBin, binCount]
  cases hq : bins.find? (fun p => p.1 == k) with
  | none => rfl
  | some q =>
    have hkey : q.1 = k := by simpa using List.find?_some hq
    simp [setBin, hkey, h]

theorem binCount_map_setBin_same {bins : List (Nat × Nat)} {b : Nat} {p : Nat × Nat} (v : Nat)
    (h : bins.find? (fun p => p.1 == b) = some p) : binCount (bins.map (setBin b v)) b = v := by
  have hkey : p.1 = b := by simpa using List.find?_some h
  rw [binCount, find?_map_setBin, h]
  simp [setBin, hkey]

theorem binCount_bumpBin_same (bins : List (Nat × Nat)) (b : Nat) :
    binCount (bumpBin bins b) b = min 0xFFFFFFFF (binCount bins b + 1) := by
  cases h : bins.find? (fun p => p.1 == b) with
  | none =>
    rw [bumpBin_of_uncounted h]
    simp [binCount, h]
  | some p =>
    rw [bumpBin_of_counted h, binCount_map_setBin_same _ h]
    simp [binCount, h]

theorem binCount_bumpBin_ne (bins : List (Nat × Nat)) {b k : Nat} (hne : k ≠ b) :
    binCount (bumpBin bins b) k = binCount bins k := by
  cases h : bins.find? (fun p => p.1 == b) with
  | none =>
    rw [bumpBin_of_uncounted h]
    simp [binCount, hne.symm]
  | some p => rw [bumpBin_of_counted h, binCount_map_setBin_ne bins _ hne]

end Sys2Proof.Laws

namespace Sys2Proof
open Sys2Proof.Machine Sys2Proof.Laws

/-- Settles O18, by induction on the parameters: one that fits leaves the rest its size less room, one that does not ends the list. -/
theorem parametersPlacedInOrder : Obligations.ParametersPlacedInOrder := by
  unfold Obligations.ParametersPlacedInOrder
  intro ps
  induction ps with
  | nil => exact fun room => ⟨0, Nat.le_refl 0, rfl, Nat.zero_le room, fun h => absurd h (Nat.lt_irrefl 0)⟩
  | cons p ps ih =>
    intro room
    rcases Nat.lt_or_ge room p.size with hp | hp
    · refine ⟨0, Nat.zero_le _, ?_, Nat.zero_le room, fun _ => ?_⟩
      · rw [placeParams_of_not_fits ps hp]
        simp
      · simpa using hp
    · obtain ⟨k, hk, hplaced, hfits, hnext⟩ := ih (room - p.size)
      refine ⟨k + 1, Nat.succ_le_succ hk, ?_, ?_, fun hlt => ?_⟩
      · rw [placeParams_of_fits ps hp, hplaced]
        simp
      · rw [List.take_succ_cons, List.map_cons, List.sum_cons]
        omega
      · have hmore := hnext (Nat.lt_of_succ_lt_succ hlt)
        rw [List.take_succ_cons, List.map_cons, List.sum_cons]
        omega

/-- Settles O19: a reserved code ends in the rejection alone, whose status bit is CFG_REJECT of the recorder; any other stages one
record, which three U32 parameters fill exactly. -/
theorem firmwareEventRecorded : Obligations.FirmwareEventRecorded := by
  unfold Obligations.FirmwareEventRecorded
  intro s t m code d hact
  rw [exec_firmwareEvent_of_mayAct code hact]
  refine ⟨fun hcode => ?reserved, fun hcode hroom hagent => ?policy⟩
  case reserved =>
    rw [evtCode_of_reserved d m hcode]
    exact ⟨_, rfl, reject_evtCode_sets_recStatus d m, rfl⟩
  case policy =>
    rw [evtCode_of_policy d m hcode]
    refine ⟨_, _, rfl, event_staged_of_room _ _ _ hroom hagent, ?_⟩
    rw [eventRecord_three_words]
    exact ⟨rfl, rfl, rfl, rfl⟩

/-- Settles O20: every value has a bin with the range that names it, so the bin tells the range and the range the bin; counting a bin
is read off its entry, which stays the first of its key. -/
theorem histogramBinCounts : Obligations.HistogramBinCounts := by
  unfold Obligations.HistogramBinCounts
  refine ⟨fun lower width x hw => ?bin, fun bins b k => ?count⟩
  case bin =>
    have hcases := histBin_cases hw lower x
    refine ⟨by omega, ⟨fun h => by omega, histBin_of_below⟩, ⟨fun h => by omega, fun h => histBin_of_above (by omega) h⟩,
      fun k hk hk30 => ⟨fun h => ?_, fun ⟨hlo, hhi⟩ => histBin_of_mem hw hk hk30 hlo hhi⟩⟩
    obtain ⟨_, h0⟩ | ⟨_, h31⟩ | ⟨j, _, _, hlo, hhi, hj⟩ := hcases
    · omega
    · omega
    · obtain rfl : j = k := hj.symm.trans h
      exact ⟨hlo, hhi⟩
  case count =>
    change binCount (bumpBin bins b) k = if k = b then min 0xFFFFFFFF (binCount bins k + 1) else binCount bins k
    split
    case isTrue h => rw [h, binCount_bumpBin_same]
    case isFalse h => exact binCount_bumpBin_ne bins h

end Sys2Proof
end

section
/-! Steps and the queue: the machine never stops, a step takes the command in front, and a command that looks at those behind it (log
entry 104) sees nothing in commands that come well after it. -/
namespace Sys2Proof.Laws
open Sys2Proof.Machine

/-! ## A step and the queue -/

/-- A command leaves the queue as it is. -/
theorem exec_next_pending (c : Instr) (s : State) : ∃ d, exec c s = .next { dev := d, pending := s.pending } := by
  obtain ⟨d, hd⟩ := exec_put c s
  exact ⟨d.closeGate, hd⟩

theorem step_next_tail (s : State) : ∃ s', step s = .next s' ∧ s'.pending = s.pending.tail := by
  cases h : s.pending with
  | nil => exact ⟨_, step_idle s h, h⟩
  | cons c rest =>
    obtain ⟨d, hd⟩ := exec_next_pending c { s with pending := rest }
    exact ⟨_, (step_front s c rest h).trans hd, rfl⟩

theorem runSteps_append (cs ds : List Instr) (d : Dev) :
    ∃ d', runSteps cs.length { dev := d, pending := cs ++ ds } = .next { dev := d', pending := ds } := by
  induction cs generalizing d with
  | nil => exact ⟨d, rfl⟩
  | cons c cs ih =>
    obtain ⟨d₁, hc⟩ := exec_next_pending c { dev := d, pending := cs ++ ds }
    obtain ⟨d₂, hcs⟩ := ih d₁
    refine ⟨d₂, ?_⟩
    rw [List.length_cons, runSteps, step_front _ c (cs ++ ds) rfl, hc]
    exact hcs

/-! ## Commands that come later -/

/-- Every command of `cs` with a field time of its own comes at least a millisecond after `u`. -/
def Later (u : Nat) (cs : List Instr) : Prop := ∀ x ∈ cs, ∀ p, timed x = some p → u + 1000000 ≤ p.1

theorem later_of_wellAfter {d : Dev} {c : Instr} {cs : List Instr} {p : Nat × (State → Host.Outcome State Fault Refusal)}
    (h : cs.all (wellAfter d c) = true) (hc : timed c = some p) : Later (max d.now p.1) cs := by
  intro x hx q hq
  have hwell := List.all_eq_true.mp h x hx
  simpa [wellAfter, hq, hc] using hwell

theorem Later.mono {u v : Nat} {cs : List Instr} (h : Later u cs) (hv : v ≤ u) : Later v cs :=
  fun x hx p hp => Nat.le_trans (Nat.add_le_add_right hv _) (h x hx p hp)

theorem later_nil (u : Nat) : Later u [] := nofun

/-- Instants of one fabric cycle lie within a millisecond. -/
theorem lt_of_cycleOf_eq {t u : Nat} (h : cycleOf t = cycleOf u) : t < u + 1000000 := by
  unfold cycleOf at h
  omega

/-- A look for commands of the instant `u`, or of its cycle, finds none. -/
theorem Later.any_eq_false {u : Nat} {cs : List Instr} (h : Later u cs) {f : Instr → Bool}
    (hf : ∀ x, f x = true → ∃ t k, timed x = some (t, k) ∧ (t = u ∨ cycleOf t = cycleOf u)) : cs.any f = false := by
  refine List.any_eq_false.mpr fun x hx hfx => ?_
  obtain ⟨t, k, hp, hcycle⟩ := hf x hfx
  have hlt : t < u + 1000000 := lt_of_cycleOf_eq (hcycle.elim (congrArg cycleOf) id)
  exact Nat.not_le.mpr hlt (h x hx _ hp)

theorem now_advance_le_max (d : Dev) (t : Nat) : (d.advance t).now ≤ max d.now t := by
  cases h : d.fabricOn with
  | true => exact Nat.le_of_eq (now_advance_of_fabricOn h t)
  | false =>
    rw [advance_of_not_fabricOn h]
    exact Nat.le_max_left _ _

section
variable {d : Dev} {c : Instr} {ds : List Instr} {t : Nat} {k : State → Host.Outcome State Fault Refusal}

theorem later_instant_of_wellAfter (h : ds.all (wellAfter d c) = true) (hc : timed c = some (t, k)) : Later t ds :=
  (later_of_wellAfter h hc).mono (Nat.le_max_right _ _)

theorem later_now_of_wellAfter (h : ds.all (wellAfter d c) = true) (hc : timed c = some (t, k)) : Later (d.advance t).now ds :=
  (later_of_wellAfter h hc).mono (now_advance_le_max d t)

end

/-! ## What a look at later commands finds -/

theorem soonFrom_of_later {u : Nat} {cs : List Instr} (h : Later u cs) (d : Dev) : soonFrom u d cs = [] := by
  induction cs with
  | nil => rfl
  | cons c cs ih =>
    have hcs := ih fun x hx => h x (List.mem_cons_of_mem c hx)
    unfold soonFrom
    split
    · exact hcs
    next t k hc =>
      have hlater := h c List.mem_cons_self _ hc
      rw [if_neg fun heq => Nat.not_le.mpr (lt_of_cycleOf_eq heq) hlater, hcs]

theorem soon_of_later {s : State} {d : Dev} (h : Later d.now s.pending) : s.soon d = [] := soonFrom_of_later h d

theorem expireFirst_of_later {d : Dev} {cs : List Instr} (h : Later d.now cs) (i : Nat) : d.expireFirst cs i = d := by
  refine if_neg (Bool.eq_false_iff.mp (h.any_eq_false fun x hx => ?_))
  split at hx
  · simp only [Bool.and_eq_true, beq_iff_eq] at hx
    exact ⟨_, _, rfl, by tauto⟩
  · exact absurd hx Bool.false_ne_true

theorem kickFirst_of_later {d : Dev} {cs : List Instr} (h : Later d.now cs) (a : Nat) : d.kickFirst cs a = d := by
  simp [Dev.kickFirst, expireFirst_of_later h]

theorem activeWaits_of_later {t : Nat} {cs : List Instr} (h : Later t cs) (d : Dev) (p : Nat) : d.activeWaits cs t p = false := by
  refine h.any_eq_false fun x hx => ?_
  split at hx
  · simp only [Bool.and_eq_true, beq_iff_eq] at hx
    exact ⟨_, _, rfl, by tauto⟩
  · exact absurd hx Bool.false_ne_true

theorem permitWaits_of_later {t : Nat} {cs : List Instr} (h : Later t cs) : permitWaits cs t = false := by
  refine h.any_eq_false fun x hx => ?_
  split at hx
  · simp only [Bool.and_eq_true, beq_iff_eq] at hx
    exact ⟨_, _, rfl, by tauto⟩
  · exact absurd hx Bool.false_ne_true

theorem haltWaits_of_later {d : Dev} {cs : List Instr} (h : Later d.now cs) (c : Nat) : d.haltWaits cs c = false := by
  refine h.any_eq_false fun x hx => ?_
  split at hx
  · simp only [Bool.and_eq_true, decide_eq_true_eq] at hx
    exact ⟨_, _, rfl, by tauto⟩
  · exact absurd hx Bool.false_ne_true

theorem lossWaits_of_later {t : Nat} {cs : List Instr} (h : Later t cs) (n : Nat) : lossWaits cs t n = false := by
  refine h.any_eq_false fun x hx => ?_
  split at hx
  · simp only [Bool.and_eq_true, decide_eq_true_eq] at hx
    exact ⟨_, _, rfl, by tauto⟩
  · exact absurd hx Bool.false_ne_true

theorem any_failsNow_of_later {t : Nat} {cs : List Instr} (h : Later t cs) : cs.any (failsNow t) = false := by
  refine h.any_eq_false fun x hx => ?_
  unfold failsNow at hx
  split at hx
  · simp only [Bool.and_eq_true, beq_iff_eq] at hx
    exact ⟨_, _, rfl, by tauto⟩
  · simp only [Bool.and_eq_true, beq_iff_eq] at hx
    exact ⟨_, _, rfl, by tauto⟩
  · exact absurd hx Bool.false_ne_true

theorem any_lowerWrite_of_later {t : Nat} {cs : List Instr} (h : Later t cs) (tr idx sub : Nat) :
    cs.any (lowerWrite t tr idx sub) = false := by
  refine h.any_eq_false fun x hx => ?_
  unfold lowerWrite at hx
  split at hx
  · simp only [Bool.and_eq_true, beq_iff_eq] at hx
    exact ⟨_, _, rfl, by tauto⟩
  · exact absurd hx Bool.false_ne_true

theorem serveHeld_of_later {t : Nat} {cs : List Instr} (h : Later t cs) (d : Dev) (idx sub : Nat) :
    d.serveHeld t idx sub cs = d.serveHeld t idx sub [] := by
  simp [Dev.serveHeld, any_lowerWrite_of_later h]

theorem writeHere_of_later {t : Nat} {cs : List Instr} (h : Later t cs) (d : Dev) (r : Req) (idx sub off : Nat) (data : List Byte) :
    d.writeHere cs t r idx sub off data = d.writeHere [] t r idx sub off data := by
  simp only [Dev.writeHere, Dev.ackTooSoon, activeWaits_of_later h, permitWaits_of_later h, any_lowerWrite_of_later h,
    serveHeld_of_later h, List.any_nil]
  rfl

/-- What an engine's instruction does is judged on devices of the instruction's own instant. -/
theorem issue_congr {d : Dev} {e : Nat} {f g : Dev → Dev} (h : ∀ x : Dev, x.now = d.now → f x = g x) : d.issue e f = d.issue e g := by
  have hnow : (d.ungate e).now = d.now := by
    rw [ungate_eq_eng]
    rfl
  simp only [Dev.issue, h _ hnow]

/-! ## Commands that look at those behind them -/

/-- The commands that look at what waits behind them, for the order of coinciding events (R20, R143, R193, R238, R291, R311, R388, R435,
R504; log entry 104). -/
def looksBehind : Instr → Bool
  | .registerWrite .. | .stw .. | .sth .. | .stb .. | .std .. | .wdgKick .. | .sinAck .. | .aclAck .. | .lvCmdTimeout ..
  | .sillStatusRx .. | .startInService .. | .actionFire .. | .queueWithdraw .. | .latchFire .. | .frameStart .. | .ledgerRunSubmit ..
  | .epBind .. | .clusterPowerRequest .. | .dictWrite .. => true
  | _ => false

/-- `c` leaves the same device with `ds` behind it as with nothing behind it. -/
def IgnoresQueue (d : Dev) (c : Instr) (ds : List Instr) : Prop :=
  ∃ d', exec c { dev := d, pending := ds } = .next { dev := d', pending := ds }
    ∧ exec c { dev := d, pending := [] } = .next { dev := d', pending := [] }

section
variable {d : Dev} {c : Instr} {ds : List Instr}

theorem ignoresQueue_of_put {f : List Instr → Dev}
    (hf : ∀ cs, exec c { dev := d, pending := cs } = State.put { dev := d, pending := cs } (f cs)) (h : f ds = f []) :
    IgnoresQueue d c ds :=
  ⟨(f []).closeGate, (hf ds).trans (congrArg (State.put _) h), hf []⟩

theorem ignoresQueue_of_not_looksBehind (d : Dev) (ds : List Instr) (h : looksBehind c = false) : IgnoresQueue d c ds := by
  cases c
  case registerWrite | stw | sth | stb | std | wdgKick | sinAck | aclAck | lvCmdTimeout | sillStatusRx | startInService | actionFire
    | queueWithdraw | latchFire | frameStart | ledgerRunSubmit | epBind | clusterPowerRequest | dictWrite =>
    exact absurd h.symm Bool.false_ne_true
  all_goals try exact ignoresQueue_of_put (fun _ => rfl) rfl
  all_goals (rename Via => v; cases v <;> exact ignoresQueue_of_put (fun _ => rfl) rfl)

theorem ignoresQueue_of_looksBehind (hc : looksBehind c = true) (h : ds.all (wellAfter d c) = true) : IgnoresQueue d c ds := by
  cases c
  case registerWrite =>
    refine ignoresQueue_of_put (fun _ => rfl) ?_
    simp only [kickFirst_of_later (later_now_of_wellAfter h rfl), any_failsNow_of_later (later_instant_of_wellAfter h rfl),
      kickFirst_of_later (later_nil _)]
    rfl
  case stw | sth | stb =>
    refine ignoresQueue_of_put (fun _ => rfl) (issue_congr fun x hx => ?_)
    simp only [kickFirst_of_later (hx ▸ later_now_of_wellAfter h rfl), kickFirst_of_later (later_nil _)]
  case std =>
    refine ignoresQueue_of_put (fun _ => rfl) (issue_congr fun x hx => ?_)
    simp only [Dev.withEven, kickFirst_of_later (hx ▸ later_now_of_wellAfter h rfl), kickFirst_of_later (later_nil _)]
  case wdgKick =>
    refine ignoresQueue_of_put (fun _ => rfl) ?_
    simp only [expireFirst_of_later (later_now_of_wellAfter h rfl)]
    rfl
  case sinAck =>
    refine ignoresQueue_of_put (fun _ => rfl) ?_
    simp only [activeWaits_of_later (later_instant_of_wellAfter h rfl)]
    rfl
  case aclAck =>
    refine ignoresQueue_of_put (fun _ => rfl) ?_
    simp only [permitWaits_of_later (later_instant_of_wellAfter h rfl)]
    rfl
  case lvCmdTimeout =>
    refine ignoresQueue_of_put (fun _ => rfl) ?_
    simp only [haltWaits_of_later (later_now_of_wellAfter h rfl)]
    rfl
  case sillStatusRx =>
    refine ignoresQueue_of_put (fun _ => rfl) ?_
    simp only [lossWaits_of_later (later_instant_of_wellAfter h rfl)]
    rfl
  case startInService =>
    refine ignoresQueue_of_put (fun _ => rfl) ?_
    simp only [any_failsNow_of_later (later_instant_of_wellAfter h rfl)]
    rfl
  case actionFire | queueWithdraw | latchFire | frameStart | ledgerRunSubmit | epBind | clusterPowerRequest =>
    refine ignoresQueue_of_put (fun _ => rfl) ?_
    simp only [soon_of_later (s := ⟨_, ds⟩) (later_now_of_wellAfter h rfl)]
    rfl
  case dictWrite =>
    refine ignoresQueue_of_put (fun _ => rfl) ?_
    simp only [soon_of_later (s := ⟨_, ds⟩) (later_now_of_wellAfter h rfl), writeHere_of_later (later_instant_of_wellAfter h rfl),
      serveHeld_of_later (later_instant_of_wellAfter h rfl)]
    rfl
  all_goals exact absurd hc Bool.false_ne_true

end

theorem ignoresQueue_of_wellAfter {d : Dev} {c : Instr} {ds : List Instr} (h : ds.all (wellAfter d c) = true) : IgnoresQueue d c ds := by
  cases hc : looksBehind c with
  | true => exact ignoresQueue_of_looksBehind hc h
  | false => exact ignoresQueue_of_not_looksBehind d ds hc

end Sys2Proof.Laws

namespace Sys2Proof
open Sys2Proof.Machine Sys2Proof.Laws

/-- Settles O4: each step of a run takes one command, by induction on the commands; and a command either does not look at the queue, or
looks for commands of its own cycle or tick, which come nowhere well after it (log entry 104). -/
theorem queueIsFirstInFirstOut : Obligations.QueueIsFirstInFirstOut := by
  unfold Obligations.QueueIsFirstInFirstOut
  exact ⟨fun d cs ds => runSteps_append cs ds d, fun _ _ _ h => ignoresQueue_of_wellAfter h⟩

/-- Settles O3: every meaning ends in `State.put`, and so does the tick of an empty queue. That no step ends in a fault or a refusal, and
that an empty queue ticks, are the model's choices (log entries 40 and 1). -/
theorem everyStepAnswersNext : Obligations.EveryStepAnswersNext := by
  unfold Obligations.EveryStepAnswersNext
  exact step_next_tail

/-- Settles O1. -/
theorem stepRunsFrontCommand : Obligations.StepRunsFrontCommand := by
  unfold Obligations.StepRunsFrontCommand
  exact fun c s => step_front _ c s.pending rfl

/-- Settles O2. -/
theorem emptyQueueTicks : Obligations.EmptyQueueTicks := by
  unfold Obligations.EmptyQueueTicks
  exact fun d => step_idle { dev := d, pending := [] } rfl

end Sys2Proof
end

section
/-! What every command does, family by family: each meaning is `State.put` of its unit's operation on the device to which the command's
time has come, and a clause writes that operation out. -/
namespace Sys2Proof.Laws
open Sys2Proof.Machine

/-- A meaning that puts a device answers the state that `after` names. -/
theorem put_eq_after (s : State) (d : Dev) : s.put d = .next (after s d) := rfl

/-! ## Endpoint commands that ask for level 2 (R125, R127) -/

section
variable (s : State) (t : Nat) (r : Req) (d : Dev)

theorem exec_epBind : exec (.epBind t r) s = .next (after s
    (let d := s.dev.advance t
    d.behindRemaps (s.soon d) (fun d => d.epCmdReq r 1))) := put_eq_after _ _

theorem exec_epUnbind : exec (.epUnbind t r) s = .next (after s ((s.dev.advance t).epCmdReq r 2)) := put_eq_after _ _

theorem exec_epClearFault : exec (.epClearFault t r) s = .next (after s ((s.dev.advance t).epCmdReq r 7)) := put_eq_after _ _

theorem epCommand_bind : d.epCommand r 1 =
    let id := d.obC (d.stageKey r) Obj.EpId
    if d.levelOf r < 2 then d.no 0x0201
    else d.guarded id (d.bind id (d.ob Obj.EpClass) (d.ob Obj.EpOutput) (d.ob Obj.EpLateWindow) (d.ob Obj.EpAccount) epDisabled
      (List.replicate 44 0)) :=
  if_congr (and_iff_right (.inl rfl)) rfl rfl

theorem epCommand_unbind : d.epCommand r 2 =
    let id := d.obC (d.stageKey r) Obj.EpId
    if d.levelOf r < 2 then d.no 0x0201 else d.guarded id (d.unbind id) :=
  if_congr (and_iff_right (.inr (.inl rfl))) rfl rfl

theorem epCommand_clearFault : d.epCommand r 7 =
    let id := d.obC (d.stageKey r) Obj.EpId
    if d.levelOf r < 2 then d.no 0x0201 else d.guarded id (d.clearFault id) :=
  if_congr (and_iff_right (.inr (.inr rfl))) rfl rfl

end

end Sys2Proof.Laws

namespace Sys2Proof
open Sys2Proof.Machine Sys2Proof.Laws

/-- Settles O39, clause by clause. That a register write, a Latch slot and a frame start look at the commands of their instant or cycle is
the model's (log entry 104). -/
theorem engineSignalCommands : Obligations.EngineSignalCommands := by
  unfold Obligations.EngineSignalCommands
  refine ⟨?registerWrite, ?lowWordRead, ?latchFire, ?latchCopiesDone, ?frameStart, ?interruptEntry, ?engTimerMatch, ?engDoorbell⟩
  all_goals (intros; exact put_eq_after _ _)

/-- Settles O40, clause by clause; DICT_WRITE stands twice. Its looks at the commands of its cycle or tick, for remaps, acknowledgements
and lower transports, are the model's (log entry 104). -/
theorem dictionaryCommands : Obligations.DictionaryCommands := by
  unfold Obligations.DictionaryCommands
  refine ⟨?dictRead, ?dictWrite, ?dictWriteAgain, ?dictCancel, ?dictPendingStatus, ?canTransferFrame, ?canTransferTimeout,
    ?stagedValueExpire, ?laneRetrain, ?udpDatagramRx, ?configJournalCommit, ?configCompactionDone, ?restoreDefaults, ?packageNumberWrite⟩
  all_goals (intros; exact put_eq_after _ _)

/-- Settles O41, clause by clause. -/
theorem fieldTimeCommands : Obligations.FieldTimeCommands := by
  unfold Obligations.FieldTimeCommands
  refine ⟨?refOscRequest, ?refOscStable, ?refOscStop, ?gnssSampleSubmit, ?gnssSourceInvalidate, ?referenceMessageRx, ?masterLossElection,
    ?candidateChallenge, ?gnssSourceTimeout, ?ptpSourceTimeout, ?timeMessage, ?ptpMessageRx, ?ptpSyncSend, ?timeLanePps, ?timeLaneWord,
    ?timeLaneTimeout, ?porchCalWindow, ?porchCarryLoad, ?fieldTimeSet, ?systemEpochWrite, ?wallClockWrite, ?gpsUtcLeapWrite, ?porchMirror,
    ?latchRequestReg, ?latchRequestDict, ?latchCancelReg, ?latchCancelDict, ?porchPairRefresh⟩
  all_goals (intros; exact put_eq_after _ _)

/-- Settles O42, clause by clause. That a failed start of the same cycle decides against a start in service is the model's (log entry
104). -/
theorem startCommands : Obligations.StartCommands := by
  unfold Obligations.StartCommands
  refine ⟨?pllLock, ?coldStart, ?packageReset, ?packageResetClearLatch, ?resetButton, ?startPorchDone, ?startPowerDieResetDone,
    ?startConfigLoaded, ?startImageChecked, ?startEnginesLoaded, ?startReady, ?startInService, ?startFailed, ?startAttemptTimeout,
    ?updateBegin, ?updateEraseDone, ?updateData, ?updateVerify, ?updateAbandon⟩
  all_goals (intros; exact put_eq_after _ _)

/-- Settles O43, clause by clause. That a request for cluster power counts the remaps of its cycle as accepted is the model's (log entry
104). -/
theorem powerCommands : Obligations.PowerCommands := by
  unfold Obligations.PowerCommands
  refine ⟨?porchAlarm, ?burstMeasurement, ?feedClassChange, ?feedOverload, ?powerFail, ?holdupDeadline, ?holdupEnd, ?powerFailEnd,
    ?holdupMeasure, ?clusterPowerRequest, ?fabricReady, ?clusterPowerUpDone, ?clusterCodeLoaded, ?powerRequestParked,
    ?powerRequestStandby, ?powerRequestReady, ?powerRequestField, ?standbyEntered, ?parkedEntered, ?wakeSource, ?hostWakeLine,
    ?parkedWakeDone, ?dieTempHigh, ?dieTempStop, ?dieTempRecover, ?dieSensorTimeout, ?memoryScrub, ?temperatureSensorIgnored⟩
  all_goals (intros; exact put_eq_after _ _)

/-- Settles O44, clause by clause. -/
theorem securityAndPairingCommands : Obligations.SecurityAndPairingCommands := by
  unfold Obligations.SecurityAndPairingCommands
  refine ⟨?roundStart, ?deadboltRelease, ?clusterHalt, ?clusterResume, ?keyProgram, ?keyRevoke, ?sessionChallenge, ?sessionResponse,
    ?sessionEnd, ?sessionIdleTimeout, ?sessionLifetimeExpire, ?sessionSecretWrite, ?windowExtraWrite, ?pairingFrameRx, ?pairPartnerLost,
    ?deviceAgentViolation⟩
  all_goals (intros; exact put_eq_after _ _)

/-- Settles O45, clause by clause. -/
theorem gnssCommands : Obligations.GnssCommands := by
  unfold Obligations.GnssCommands
  refine ⟨?headStatusFrame, ?headLinkTimeout, ?headSupplyTrip, ?headSupplyRetry, ?headControlRepeat, ?integrationEnd, ?intAlign,
    ?codeMemoryWrite, ?acqRequest, ?acqCaptureDone, ?acqSearchDone, ?acqCancel, ?burstStart⟩
  all_goals (intros; exact put_eq_after _ _)

/-- Settles O46, clause by clause. -/
theorem poseCommands : Obligations.PoseCommands := by
  unfold Obligations.PoseCommands
  refine ⟨?fiEdge, ?fiTimeout, ?fiFifoPop, ?imuDrdy, ?imuPeriodicTrigger, ?imuTransferDone, ?imuTimeout, ?poseCommit, ?fieldOriginWrite⟩
  all_goals (intros; exact put_eq_after _ _)

/-- Settles O47, clause by clause; the operation itself judges the level only of EP_BIND, EP_UNBIND and EP_CLEAR_FAULT. That a bind counts
the remaps of its cycle as accepted is the model's (log entry 104). -/
theorem endpointCommands : Obligations.EndpointCommands := by
  unfold Obligations.EndpointCommands
  refine ⟨?epBind, ?epUnbind, ?epEnableReg, ?epEnableDict, ?epDisableReg, ?epDisableDict, ?epSetAccount, ?epSetLateWindowReg,
    ?epSetLateWindowDict, ?epClearFault, ?remapRequestReg, ?remapRequestDict, ?remapWithdrawReg, ?remapWithdrawDict, ?ownLookup,
    ?rangeVerifyStore, ?rangeReload⟩
  case epBind =>
    intro s t r
    simp only [exec_epBind, Dev.epCmdReq, epCommand_bind]
  case epUnbind =>
    intro s t r
    simp only [exec_epUnbind, Dev.epCmdReq, epCommand_unbind]
  case epClearFault =>
    intro s t r
    simp only [exec_epClearFault, Dev.epCmdReq, epCommand_clearFault]
  all_goals (intros; exact put_eq_after _ _)

/-- Settles O48, clause by clause. -/
theorem lookaheadCommands : Obligations.LookaheadCommands := by
  unfold Obligations.LookaheadCommands
  refine ⟨?frameLengthWrite, ?frmDone, ?paneCreate, ?paneDelete, ?paneClearCoverage, ?paneDataWrite, ?paneFetch, ?paneFetchDone,
    ?targetDatagram, ?targetListIn, ?targetSourceTimeout, ?targetSourceRelease⟩
  all_goals (intros; exact put_eq_after _ _)

/-- Settles O49, clause by clause. The looks of a withdrawal, a firing and a run submission at their cycle are the model's (log entry
104). -/
theorem shutterCommands : Obligations.ShutterCommands := by
  unfold Obligations.ShutterCommands
  refine ⟨?queueAction, ?queueWithdraw, ?queueReplace, ?actionFire, ?scheduleUndeliverable, ?measurementWindowClose, ?aaRdWrite,
    ?ledgerRunSubmit, ?ledgerRecordRx, ?ledgerResendRequest, ?ledgerResendRx, ?ledgerGoneRx, ?ledgerResendTimeout, ?ledgerReplay,
    ?ledgerReplayDone, ?dioReadbackChange, ?nodeLeadCommit⟩
  all_goals (intros; exact put_eq_after _ _)

/-- Settles O50, clause by clause. -/
theorem solenoidCommands : Obligations.SolenoidCommands := by
  unfold Obligations.SolenoidCommands
  refine ⟨?solBoostEnd, ?solPeakEnd, ?solKneeReached, ?solSlowRecoveryEnd, ?solOpenLoadCheck, ?solOvercurrent, ?solDriverOvertemp,
    ?solDriverCooled, ?solCoilCooldownEnd, ?solOpeningDetect, ?solClosingDetect, ?solOpenWindowEnd, ?solPulseStart, ?solPulseOff,
    ?solThermStale, ?solOffProbe, ?solHoldLow, ?solFeedUv, ?solFeedRecover, ?solFaultClearReg, ?solFaultClearDict, ?solFcntClear,
    ?solTestPulse, ?boostReadyChange, ?boostFault, ?boostRestart, ?boostChargeComplete, ?boostOvervolt, ?boostOvervoltEnd,
    ?boostCapClearReg, ?boostCapClearDict, ?senseReplicaRead, ?senseOffsetTimeout⟩
  all_goals (intros; exact put_eq_after _ _)

/-- Settles O51, clause by clause. That a halt of the same cycle forestalls a command timeout is the model's (log entry 104). -/
theorem louvreCommands : Obligations.LouvreCommands := by
  unfold Obligations.LouvreCommands
  refine ⟨?lvPeriodStart, ?lvCompare, ?lvCommit, ?lvEnableReg, ?lvEnableDict, ?lvDisableReg, ?lvDisableDict, ?lvCmdTimeout, ?lvSyncPulse,
    ?lvResyncReg, ?lvResyncDict, ?lvChainTimeout, ?lvTestReg, ?lvTestDict, ?lvCarrierEdge, ?lvOutputEdge, ?lvSyncRestart⟩
  all_goals (intros; exact put_eq_after _ _)

/-- Settles O52, clause by clause. -/
theorem hingeCommands : Obligations.HingeCommands := by
  unfold Obligations.HingeCommands
  refine ⟨?hingeSample, ?hingeCommitReg, ?hingeCommitDict, ?hingeSlotEnableReg, ?hingeSlotEnableDict, ?hingeSlotDisableReg,
    ?hingeSlotDisableDict, ?hingeDisableAllReg, ?hingeDisableAllDict, ?aiTriggeredConversion⟩
  all_goals (intros; exact put_eq_after _ _)

/-- Settles O53, clause by clause. -/
theorem loadSwitchCommands : Obligations.LoadSwitchCommands := by
  unfold Obligations.LoadSwitchCommands
  refine ⟨?lsDirectCommandReg, ?lsDirectCommandDict, ?dioDirectCommandReg, ?dioDirectCommandDict, ?lsCurrentLimit, ?lsThermalShutdown,
    ?lsThermalRestore, ?lsFaultClearReg, ?lsFaultClearDict, ?lsFeedUv, ?lsFeedRecover, ?lsPwmPeriod, ?lsDwellEnd, ?lsSenseScan,
    ?lsOpenLoad, ?lsLeakage, ?dioInputChange, ?dioOutputProtect, ?dioGroupUv, ?dioGroupRecover, ?dioReadbackMismatch, ?lsPulseOff⟩
  all_goals (intros; exact put_eq_after _ _)

/-- Settles O54, clause by clause. The looks of a kick and of the acknowledgements at the commands of their instant are the model's (log
entry 104). -/
theorem safetyAndAnalogCommands : Obligations.SafetyAndAnalogCommands := by
  unfold Obligations.SafetyAndAnalogCommands
  refine ⟨?wdgKick, ?wdgExpire, ?wdgHoldSet, ?wdgHoldClear, ?wdgTimeoutWrite, ?wdgOwnerWrite, ?failsafeWrite, ?safetyInputChange,
    ?discrepancyLatch, ?sinAck, ?sinEnable, ?sinDisable, ?aclChannelChange, ?aclDiscrepancyLatch, ?aclAck, ?allCloseRepeat,
    ?sillCloseRepeat, ?aiConversionDone, ?aiScanConversion, ?aiStale, ?aiOverload, ?aiShuntRetry, ?sensorSupplyTrip⟩
  all_goals (intros; exact put_eq_after _ _)

/-- Settles O55, clause by clause. That a link loss of the same cycle discards a status answer is the model's (log entry 104). -/
theorem sillCommands : Obligations.SillCommands := by
  unfold Obligations.SillCommands
  refine ⟨?sillEnableReg, ?sillEnableDict, ?sillSymbolLock, ?sillIdentityRx, ?sillEnumComplete, ?sillTimeFrame, ?sillPoll, ?sillStatusRx,
    ?sillPollTimeout, ?sillLinkLoss, ?sillReenumTimer, ?sillReenumerateReg, ?sillReenumerateDict⟩
  all_goals (intros; exact put_eq_after _ _)

/-- Settles O56, clause by clause. -/
theorem implementBusCommands : Obligations.ImplementBusCommands := by
  unfold Obligations.ImplementBusCommands
  refine ⟨?ibFrameRx, ?nodeWindowsRestore, ?ibSilence, ?ibSilenceRx, ?silenceEnd, ?nodeReportRx, ?nodeStatusRx, ?nodeTimeout,
    ?nodeConfigurePeriodic, ?ibTxQueue, ?ibFrameSend, ?ibErrorState, ?rendezvousBeacon, ?rendezvousBeaconRx, ?rendezvousPartnerLost,
    ?rendezvousWakeRetry, ?ibWakePattern, ?ibRxObjectRelease⟩
  all_goals (intros; exact put_eq_after _ _)

/-- Settles O57, clause by clause. -/
theorem transomCommands : Obligations.TransomCommands := by
  unfold Obligations.TransomCommands
  refine ⟨?transomFrameRx, ?laneDown, ?hostStopWrite, ?hostStopAssert, ?hostStopRelease, ?stopLaneLost, ?stopLaneReturn, ?poseInDatagram,
    ?poseIn, ?asAppliedOut, ?keyholeAttach, ?keyholeDetach, ?hostLinkChange⟩
  all_goals (intros; exact put_eq_after _ _)

/-- Settles O58, clause by clause. -/
theorem recorderAndMeterCommands : Obligations.RecorderAndMeterCommands := by
  unfold Obligations.RecorderAndMeterCommands
  refine ⟨?dictRespWrite, ?dictReady, ?firmwareObjectTimeout, ?firmwareEvent, ?eventPageWrite, ?norPageProgramDone, ?norBlockEraseDone,
    ?histogramFeed, ?histogramSnapshot, ?histogramSafetyWrite, ?recorderScanDone, ?recorderClear, ?periodClose, ?meterCheckpoint,
    ?periodEndWrite, ?accountsClear, ?deviceHistogramSample⟩
  all_goals (intros; exact put_eq_after _ _)

end Sys2Proof
end
